-- ==== Sys2Proof/Word.lean ====
section
/-! DEFINITION. The word types of the model and their plainest arithmetic. -/
namespace Sys2Proof

abbrev Byte := BitVec 8
/-- A grainer register (R94): 64 bits. -/
abbrev Word := BitVec 64

/-- Ticks of the Moment (250 ps, R35) in one microsecond, millisecond and second. -/
abbrev us : Nat := 4000
abbrev ms : Nat := 4000000
abbrev sec : Nat := 4000000000

/-- Bits [hi:lo] of a number. -/
def bits (n hi lo : Nat) : Nat := (n >>> lo) % 2 ^ (hi + 1 - lo)

/-- One bit of a number. -/
def bit (n i : Nat) : Bool := n.testBit i

/-- `n` with bits [lo + w - 1:lo] replaced by `v`. -/
def putBits (n lo w v : Nat) : Nat := n - (bits n (lo + w - 1) lo) * 2 ^ lo + (v % 2 ^ w) * 2 ^ lo

/-- The number that little-endian bytes spell (R6). -/
def leNat : List Byte → Nat
  | [] => 0
  | b :: t => b.toNat + 256 * leNat t

/-- `n` bytes of a number, little-endian (R6). -/
def leBytes : Nat → Nat → List Byte
  | 0, _ => []
  | n + 1, v => BitVec.ofNat 8 v :: leBytes n (v / 256)

/-- Read as a `w`-bit two's complement number. -/
def sgn (w v : Nat) : Int := if v % 2 ^ w < 2 ^ (w - 1) then (v % 2 ^ w : Nat) else (v % 2 ^ w : Nat) - (2 ^ w : Nat)

/-- The `w`-bit two's complement encoding of a number. -/
def enc (w : Nat) (i : Int) : Nat := (i % (2 ^ w : Nat)).toNat

def ceilDiv (a b : Nat) : Nat := (a + b - 1) / b

end Sys2Proof
end

