-- ==== Sys2Proof/Names.lean ====
section
/-! DEFINITION. The small types that the operands of commands use. -/
namespace Sys2Proof

/-- A machine that runs grainer instructions (R94): one of the 16 threads of one of the 96 engines in the Data profile,
a control core or the cable core in the Control profile, the security core in the Secure profile. -/
inductive Mach where
  | eng (e t : Nat)
  | ctl (n : Nat)
  | cable
  | secure
  deriving DecidableEq, Repr

/-- Who makes a bus access (R7, R52): a control core, a host through BAR0 of one controller, a memory mover, or the security core. -/
inductive Master where
  | core (n : Nat)
  | host (ctrl : Nat)
  | mover (m : Nat)
  | secure
  deriving DecidableEq, Repr

/-- A register number of a grainer instruction (R136). -/
abbrev Reg := BitVec 5

/-- What arrives at a berth group (R256, R262): where from, for which channel, what kind of unit (R102), its bytes so far,
whether they are all of it, and what ingress says of it. -/
structure Arrival where
  group : Nat
  port : Nat
  chan : Nat
  kind : Nat
  bytes : List Byte
  length : Nat
  whole : Bool
  bad : Bool
  opened : Bool
  rsv : Bool
  /-- HOPS, CSEQ and OMOMENT when it came in a parcel -/
  link : Option (Nat × Nat × Nat)
  /-- stamp points passed before, with their Moments -/
  passed : List (Nat × Nat)
  deriving DecidableEq, Repr

end Sys2Proof
end

