-- ==== Sys2Proof/Syntax.lean ====
section
/-! DEFINITION. The commands: one constructor per row of spec/opcode_table.json, in the table's order. -/
namespace Sys2Proof

/-- A command of the hub. Every constructor's docstring gives the row's rule. -/
inductive Instr where
  /-- R7: A write to a register field that has no row of its own takes effect according to its access code. -/
  | registerWrite (m : Master) (addr size value : Nat)
  /-- R13: An access to an address that no register occupies reads zero or is ignored, and writes a bittern record. -/
  | regUnmapped (write : Bool) (addr : Nat)
  /-- R12: A low-word read of a 64-bit register snapshots the high word for the next high-word read. -/
  | lowWordRead (addr : Nat)
  /-- R12: A low-word write of a 64-bit register is held until the high word is written. -/
  | lowWordWrite (addr value : Nat)
  /-- R12: A high-word write updates both halves together, or the high half alone when no low word is held. -/
  | highWordWrite (addr value : Nat)
  /-- R56: A write of BLK_COMMIT.COMMIT marks a commit pending until the block's natural boundary, or is refused while one is pending. -/
  | commit (blk : Nat)
  /-- R53: A write of BLK_COMMIT.ABANDON reloads every shadow from the value in force and withdraws a pending commit. -/
  | abandon (blk : Nat)
  /-- R56: At the block's natural boundary the pending commit is checked and then applied or rejected. -/
  | commitBoundary (blk : Nat)
  /-- R58: A write of QUIESCE 1 requests that the block quiesce, or is refused in HOLD for a block carrying HOLD traffic. -/
  | quiesce (blk : Nat)
  /-- R58: Once in-flight work has finished, the quiesce request takes effect and QUIESCED reads 1. -/
  | quiesceDone (blk : Nat)
  /-- R53: A write of QUIESCE 0 releases the block. -/
  | quiesceRelease (blk : Nat)
  /-- R22: At each Moment that is a multiple of 4,096 ticks the hub measures and updates PACE. -/
  | paceUpdate (measured : Nat)
  /-- R28: When PACE has stayed below PACE_FLOOR for BELOW_COUNT consecutive updates, the hub writes a record and may raise the setpoint. -/
  | paceBelowFloor
  /-- R28: If PACE is still below the floor 1 ms after the record and no raise applies, the hub enters SAFE. -/
  | paceSafeTimeout
  /-- R23: The hottest core sensor crosses a band edge, with hysteresis, and PACE_FLOOR changes. -/
  | tbandChange (temp : Int)
  /-- R32: A write of SYS_POWER starts a setpoint change, replaces its target or ends an override; a SETPOINT of P3 is refused. -/
  | setpointWrite (value : Nat)
  /-- R32: The regulator reports completion, and on a rise PACE_FLOOR and ACTIVE take the new setpoint. -/
  | regulatorCompletion
  /-- R33: With no regulator completion within 1 ms, the hub writes AVS_TIMEOUT once and retries every 1 ms. -/
  | avsTimeout
  /-- R60: A write of 0xC1EA to SYS_PACE_MIN.CLEAR sets PACE_MIN to 0xFFFF. -/
  | paceMinClear (value : Nat)
  /-- R44: A warm reset restarts the control cores, moves non-HOLD channels to HELD and leaves HOLD channels running. -/
  | warmReset (key : Nat)
  /-- R529: A cold reset restarts the hub through BOOT, keeping the AON domain, contracts and SAFE latch. -/
  | coldReset (key : Nat)
  /-- R46: When GRACE expires with every upstream port lost, the hub moves non-HOLD channels to HELD and enters HOLD. -/
  | holdTrigger
  /-- R66: The 0-to-1 transition of CHN_CFG.ENABLE reads the whole table, builds the pin set and checks every entry. -/
  | tableEnable (hostTable : List (Nat × List Byte))
  /-- R65: A write to the channel area is accepted or refused by region while the table is enabled. -/
  | channelAreaWrite (offset : Nat) (data : List Byte)
  /-- R129: A write to the program pool is accepted, or refused with POOL_WRITE_REFUSED for words of a registered image. -/
  | poolWrite (word : Nat) (data : List Byte)
  /-- R19: A unit arriving at a berth is stamped, admitted and looked up, and its channel state is judged. -/
  | unitIngress (a : Arrival)
  /-- R79: A channel-cache miss completes, the entry is cached and waiting units may dispatch. -/
  | cacheMissComplete (chan : Nat) (entry : List Byte)
  /-- R80: A host-memory miss fails, its waiting units are dropped and a record is written. -/
  | chnFetchFail (chan cause : Nat)
  /-- R96: A waiting unit is handed to a free thread under the generation active at dispatch, after its state is judged again. -/
  | unitDispatch (berth : Nat)
  /-- R70: CHN_CMD ARM moves an IDLE non-FREE channel to ARMED. -/
  | arm (chan : Nat)
  /-- R70: CHN_CMD GO moves an ARMED channel to LIVE. -/
  | go (chan : Nat)
  /-- R70: CHN_CMD DRAIN moves a channel to DRAINING. -/
  | drain (chan : Nat)
  /-- R70: CHN_CMD RESUME moves a HELD channel to LIVE. -/
  | resume (chan : Nat)
  /-- R70: CHN_CMD CLEAR_FAULT moves a SEALED or FAULTED channel to ARMED and zeroes WIN_COUNT. -/
  | clearFault (chan : Nat)
  /-- R77: CHN_CMD CLEAR_STATS zeroes the channel's statistics record. -/
  | clearStats (chan : Nat)
  /-- R70: A DRAINING channel whose in-flight count reaches zero in every generation becomes IDLE. -/
  | drainComplete (chan : Nat)
  /-- R87: Once R84's conditions hold, the CHN generation advances, shadow slots are filled and staged entries take effect. -/
  | commitPoint
  /-- R88: A superseded version whose in-flight count reaches zero releases its shadow slot and resources. -/
  | shadowRelease (slot : Nat)
  /-- R138: A reserved encoding or a family outside the profile faults GRN_ILLEGAL or traps with cause 1. -/
  | illegalInstruction (m : Mach) (word : BitVec 32)
  /-- R140: rd := rs1 + rs2 modulo 2^64. -/
  | add (m : Mach) (rd rs1 rs2 : Reg)
  /-- R140: rd := rs1 − rs2 modulo 2^64. -/
  | sub (m : Mach) (rd rs1 rs2 : Reg)
  /-- R140: Bitwise AND. -/
  | grnAnd (m : Mach) (rd rs1 rs2 : Reg)
  /-- R140: Bitwise OR. -/
  | grnOr (m : Mach) (rd rs1 rs2 : Reg)
  /-- R140: Bitwise XOR. -/
  | grnXor (m : Mach) (rd rs1 rs2 : Reg)
  /-- R140: rs1 AND NOT rs2. -/
  | andn (m : Mach) (rd rs1 rs2 : Reg)
  /-- R140: Logical shift left. -/
  | sll (m : Mach) (rd rs1 rs2 : Reg)
  /-- R140: Logical shift right. -/
  | srl (m : Mach) (rd rs1 rs2 : Reg)
  /-- R140: Arithmetic shift right. -/
  | sra (m : Mach) (rd rs1 rs2 : Reg)
  /-- R140: Rotate right. -/
  | ror (m : Mach) (rd rs1 rs2 : Reg)
  /-- R140: Low 64 bits of the product. -/
  | mul (m : Mach) (rd rs1 rs2 : Reg)
  /-- R140: High 64 bits of the unsigned product. -/
  | mulhu (m : Mach) (rd rs1 rs2 : Reg)
  /-- R140: High 64 bits of the signed product. -/
  | mulh (m : Mach) (rd rs1 rs2 : Reg)
  /-- R140: Unsigned division, all ones on division by zero. -/
  | divu (m : Mach) (rd rs1 rs2 : Reg)
  /-- R140: Signed division with defined results for zero and overflow. -/
  | div (m : Mach) (rd rs1 rs2 : Reg)
  /-- R140: Unsigned remainder. -/
  | remu (m : Mach) (rd rs1 rs2 : Reg)
  /-- R140: Signed remainder. -/
  | rem (m : Mach) (rd rs1 rs2 : Reg)
  /-- R140: Signed minimum. -/
  | min (m : Mach) (rd rs1 rs2 : Reg)
  /-- R140: Signed maximum. -/
  | max (m : Mach) (rd rs1 rs2 : Reg)
  /-- R140: Unsigned minimum. -/
  | minu (m : Mach) (rd rs1 rs2 : Reg)
  /-- R140: Unsigned maximum. -/
  | maxu (m : Mach) (rd rs1 rs2 : Reg)
  /-- R140: Count of leading zero bits. -/
  | clz (m : Mach) (rd rs1 : Reg)
  /-- R140: Count of one bits. -/
  | popc (m : Mach) (rd rs1 : Reg)
  /-- R141: Add a sign-extended immediate. -/
  | addi (m : Mach) (rd rs1 : Reg) (imm : BitVec 16)
  /-- R141: AND with a zero-extended immediate. -/
  | andi (m : Mach) (rd rs1 : Reg) (imm : BitVec 16)
  /-- R141: OR with a zero-extended immediate. -/
  | ori (m : Mach) (rd rs1 : Reg) (imm : BitVec 16)
  /-- R141: XOR with a zero-extended immediate. -/
  | xori (m : Mach) (rd rs1 : Reg) (imm : BitVec 16)
  /-- R141: Shift or rotate by an immediate amount and kind. -/
  | shi (m : Mach) (rd rs1 : Reg) (kind : BitVec 2) (amt : BitVec 6)
  /-- R141: Insert a 16-bit immediate into one quarter of rd. -/
  | lih (m : Mach) (rd : Reg) (k : BitVec 2) (imm : BitVec 16)
  /-- R142: Byte reversal of the low halfword. -/
  | swapH (m : Mach) (rd rs1 : Reg)
  /-- R142: Byte reversal of the low word. -/
  | swapW (m : Mach) (rd rs1 : Reg)
  /-- R142: Byte reversal of the doubleword. -/
  | swapD (m : Mach) (rd rs1 : Reg)
  /-- R143: Branch if equal. -/
  | beq (m : Mach) (ra rb : Reg) (off : BitVec 16)
  /-- R143: Branch if not equal. -/
  | bne (m : Mach) (ra rb : Reg) (off : BitVec 16)
  /-- R143: Branch if signed less than. -/
  | blt (m : Mach) (ra rb : Reg) (off : BitVec 16)
  /-- R143: Branch if signed greater or equal. -/
  | bge (m : Mach) (ra rb : Reg) (off : BitVec 16)
  /-- R143: Branch if unsigned less than. -/
  | bltu (m : Mach) (ra rb : Reg) (off : BitVec 16)
  /-- R143: Branch if unsigned greater or equal. -/
  | bgeu (m : Mach) (ra rb : Reg) (off : BitVec 16)
  /-- R143: Branch if equal to a sign-extended 5-bit immediate. -/
  | beqi (m : Mach) (ra : Reg) (imm : BitVec 5) (off : BitVec 16)
  /-- R143: Branch if not equal to a sign-extended 5-bit immediate. -/
  | bnei (m : Mach) (ra : Reg) (imm : BitVec 5) (off : BitVec 16)
  /-- R143: Jump relative and link. -/
  | jal (m : Mach) (rd : Reg) (off : BitVec 21)
  /-- R143: Jump to register plus immediate and link. -/
  | jalr (m : Mach) (rd rs1 : Reg) (imm : BitVec 16)
  /-- R144: Extract an unsigned bit field. -/
  | ext (m : Mach) (rd rs1 : Reg) (pos len1 : BitVec 6)
  /-- R144: Extract a sign-extended bit field. -/
  | exts (m : Mach) (rd rs1 : Reg) (pos len1 : BitVec 6)
  /-- R144: Insert a bit field into rd. -/
  | ins (m : Mach) (rd rs1 : Reg) (pos len1 : BitVec 6)
  /-- R146: Scale, offset and clip a value, optionally writing a clip flag. -/
  | scale (m : Mach) (rd rs1 rs2 : Reg) (w : BitVec 6) (so si cf : Bool)
  /-- R147: Convert between integer and float kinds under a rounding mode. -/
  | fcvt (m : Mach) (rd rs1 : Reg) (src dst rnd : BitVec 2)
  /-- R145: Load from U space. -/
  | ldu (m : Mach) (rd rs1 : Reg) (size : BitVec 2) (sign : Bool) (imm : BitVec 11)
  /-- R145: Store to the header bytes or RW metadata of U space. -/
  | stu (m : Mach) (rs rs1 : Reg) (size : BitVec 2) (imm : BitVec 11)
  /-- R145: Load from the entry or annex in C space. -/
  | ldc (m : Mach) (rd rs1 : Reg) (size : BitVec 2) (sign : Bool) (imm : BitVec 11)
  /-- R145: Store to the annex in C space. -/
  | stc (m : Mach) (rs rs1 : Reg) (size : BitVec 2) (imm : BitVec 11)
  /-- R145: Load from an ARRAY table in T space. -/
  | ldt (m : Mach) (rd rs1 : Reg) (size : BitVec 2) (sign : Bool) (imm : BitVec 11)
  /-- R145: Load from K scratch. -/
  | ldk (m : Mach) (rd rs1 : Reg) (size : BitVec 2) (sign : Bool) (imm : BitVec 11)
  /-- R145: Store to K scratch. -/
  | stk (m : Mach) (rs rs1 : Reg) (size : BitVec 2) (imm : BitVec 11)
  /-- R145: Control or Secure load from M under the protection unit. -/
  | ldm (m : Mach) (rd rs1 : Reg) (size : BitVec 2) (sign : Bool) (imm : BitVec 11)
  /-- R145: Control or Secure store to M under the protection unit. -/
  | stm (m : Mach) (rs rs1 : Reg) (size : BitVec 2) (imm : BitVec 11)
  /-- R148: Search a declared table and copy the result record to K. -/
  | lookup (m : Mach) (rd rs1 rs2 : Reg) (slot : BitVec 3)
  /-- R151: Charge a policer and return the colour. -/
  | meter (m : Mach) (rd rs1 rs2 : Reg) (colour : BitVec 2) (own aware : Bool)
  /-- R152: Take a stamp at the engine's dispatch point, or read the Moment. -/
  | stamp (m : Mach) (rd : Reg)
  /-- R153: Hand the unit to the saltern, which checks route and limits and may spill or multicast. -/
  | enq (m : Mach) (rs1 : Reg) (own saf multi : Bool)
  /-- R155: Create a new unit from K bytes, held until DONE. -/
  | emit (m : Mach) (rd rs1 rs2 : Reg) (kind : BitVec 3)
  /-- R156: Drop the unit, count it and retire the thread. -/
  | drop (m : Mach) (reason : BitVec 8)
  /-- R157: Mark the unit bad or for trace. -/
  | mark (m : Mach) (func : BitVec 2)
  /-- R158: Request or withdraw sealing of the unit. -/
  | grnSeal (m : Mach) (on : Bool)
  /-- R159: Copy a block of bytes between spaces. -/
  | move (m : Mach) (rd rs1 rs2 : Reg) (dst src : BitVec 3)
  /-- R160: Acquire a semaphore, or try once. -/
  | acq (m : Mach) (rd rs1 : Reg) (once : Bool)
  /-- R160: Fence and release a semaphore. -/
  | rel (m : Mach) (rs1 : Reg)
  /-- R161: Send a message body to a block's queue if a credit is free. -/
  | msg (m : Mach) (rd rs1 rs2 : Reg) (blk : BitVec 8)
  /-- R162: Wait for and reserve a message credit or queue space. -/
  | waitc (m : Mach) (rd rs1 : Reg) (queue : Bool) (blk : BitVec 8)
  /-- R160: A waiting owner acquires a freed semaphore in wait order. -/
  | semaphoreGrant (sem : Nat)
  /-- R162: The credit or queue space that WAITC waits for becomes free and is reserved. -/
  | creditGrant (m : Mach)
  /-- R107: A WAITC or ACQ wait passes GRN_WAIT_LIMIT and completes with a failure status. -/
  | waitLimit (m : Mach)
  /-- R98: A table fetch or annex miss a thread waits on completes and the thread becomes ready. -/
  | threadResume (m : Mach)
  /-- R163: Order every earlier access before every later one. -/
  | fence (m : Mach)
  /-- R163: The thread stops being ready until every other ready thread has issued. -/
  | yield (m : Mach)
  /-- R99: Fence, release emitted units and retire the thread. -/
  | done (m : Mach)
  /-- R163: Raise a program fault or a trap with the immediate. -/
  | trap (m : Mach) (imm : BitVec 11)
  /-- R121: Restore mode and interrupt enable and continue at TEPC. -/
  | eret (m : Mach)
  /-- R125: Wait until an enabled interrupt is pending. -/
  | wfi (m : Mach)
  /-- R125: A pending enabled interrupt is taken while IE is 1. -/
  | interrupt (m : Mach) (blk : Nat)
  /-- R165: Read a CSR. -/
  | csrr (m : Mach) (rd : Reg) (csr : BitVec 11)
  /-- R165: Write a CSR. -/
  | csrw (m : Mach) (csr : BitVec 11) (rs1 : Reg)
  /-- R166: Unwrap a blob into a vault slot. -/
  | kload (m : Mach) (rd rs1 rs2 : Reg)
  /-- R166: Derive a child key into a slot. -/
  | kderive (m : Mach) (rd rs1 rs2 : Reg)
  /-- R166: Write a slot's key as a wrapped blob. -/
  | kwrap (m : Mach) (rd rs1 rs2 : Reg)
  /-- R166: Zeroise a slot. -/
  | kdrop (m : Mach) (rd rs1 rs2 : Reg)
  /-- R435: Burn the life-cycle fuse group and cold reset. -/
  | lcstep (m : Mach) (rd rs1 rs2 : Reg)
  /-- R111: An uncorrectable program-store error drops the unit and reloads the line. -/
  | grnStoreEcc (m : Mach)
  /-- R111: An uncorrectable pool error faults the image's channels. -/
  | grnPoolEcc (word : Nat)
  /-- R115: A harvest slot meeting its release conditions is released and its ENQ and emitted units performed. -/
  | harvestRelease (slot : Nat)
  /-- R116: A slot not released within TIMEOUT_US is released as a gap. -/
  | hrvGap (slot : Nat)
  /-- R129: GRN_IMG_CMD REGISTER checks and registers a pool image. -/
  | register (slot : Nat)
  /-- R130: GRN_IMG_CMD UNREGISTER removes an unused image and invalidates its lines. -/
  | unregister (slot : Nat)
  /-- R171: The transmitter starts a parcel or lane control block into its block stream. -/
  | parcelSend (port : Nat)
  /-- R184: The receiver accepts or rejects a parcel and sends a NAK on the first rejection. -/
  | parcelReceive (port : Nat) (parcel : List Byte) (clean : Bool)
  /-- R174: A received FILLER lane control block is discarded. -/
  | filler (port : Nat) (block : List Byte)
  /-- R186: A received ACK frees held parcels up to its LSEQ. -/
  | ack (port : Nat) (block : List Byte)
  /-- R186: A received NAK replays every held parcel after its LSEQ. -/
  | nak (port : Nat) (block : List Byte)
  /-- R186: No ACK within ACK_TIMEOUT_US resends from the oldest held parcel. -/
  | ackTimeout (port : Nat)
  /-- R186: REPLAY_LIMIT consecutive fruitless replays start a partial retrain of every lane. -/
  | lnkReplayLimit (port : Nat)
  /-- R196: A received POWER HALF block schedules half-sleep at codeword ENTRY. -/
  | powerHalf (port : Nat) (block : List Byte)
  /-- R197: A received POWER DEEP block schedules the deep state at codeword ENTRY. -/
  | powerDeep (port : Nat) (block : List Byte)
  /-- R200: A received lane-change REQ is answered with GRANT or REFUSE. -/
  | laneReq (port : Nat) (block : List Byte)
  /-- R201: A received GRANT makes the lane-change commit DONE. -/
  | laneGrant (port : Nat) (block : List Byte)
  /-- R201: A received REFUSE rejects the lane change with COMBO_REJECT. -/
  | laneRefuse (port : Nat) (block : List Byte)
  /-- R198: A received RETRAIN_REQ takes the lane out of its direction for a partial retrain. -/
  | retrainReq (port : Nat) (block : List Byte)
  /-- R198: A received JOIN schedules the lane to rejoin at the named codeword. -/
  | join (port : Nat) (block : List Byte)
  /-- R189: A received TRAIN_CTL block carries training control and status during a partial retrain. -/
  | trainCtl (port : Nat) (block : List Byte)
  /-- R182: A received marker locks, deskews or wakes a lane. -/
  | marker (port lane : Nat) (block : List Byte)
  /-- R182: Four consecutive invalid markers drop the lane's lock and start a partial retrain. -/
  | lnkLockLost (port lane : Nat)
  /-- R190: A received training frame applies tap requests and status. -/
  | trainingFrame (port lane control status : Nat)
  /-- R192: Every receive lane has seen the wake pattern for 10 µs. -/
  | detectComplete (port : Nat)
  /-- R192: RX_READY is exchanged and the link leaves TRAIN. -/
  | trainComplete (port own : Nat)
  /-- R192: Lanes 1 and 3 finish reverse training and REV_READY sets. -/
  | reverseComplete (port : Nat) (skew : Option Int)
  /-- R192: Every lane is locked and deskewed and the link comes UP. -/
  | alignComplete (port : Nat) (skew : Option Int) (skewed : Nat)
  /-- R193: A training phase passes its limit and the attempt fails. -/
  | trainPhaseTimeout (port good : Nat)
  /-- R195: An idle transmit direction after HALF_US sends POWER HALF. -/
  | halfIdleTimeout (port : Nat)
  /-- R195: A direction in half-sleep for DEEP_MS wakes and sends POWER DEEP. -/
  | deepIdleTimeout (port : Nat)
  /-- R196: At codeword ENTRY the lanes become idle or enter deep. -/
  | sleepEntry (port : Nat) (tx : Bool)
  /-- R196: A sleeping direction with something to send wakes and sends its wake marker. -/
  | directionWake (port : Nat)
  /-- R208: Every 1 ms the middle-eye height of each receive lane is updated. -/
  | eyeMonUpdate (port : Nat) (heights : List Nat)
  /-- R198: A partial retrain running past four 20 µs periods sends the lane to FAIL. -/
  | retrainTimeout (port lane : Nat)
  /-- R200: At SWITCH the losing direction stops using the lane. -/
  | laneSwitch (port : Nat)
  /-- R200: 1 µs after SWITCH the gaining transmitter drives the lane and trains it. -/
  | laneDrive (port : Nat)
  /-- R201: No answer within 10 µs rejects the lane change. -/
  | laneChangeTimeout (port : Nat)
  /-- R203: The link falls, the replay buffer is discarded and loss is reported for hold-over. -/
  | lnkDown (port : Nat)
  /-- R206: A write to LNK_SLIP moves a lane's symbol alignment one symbol later. -/
  | slip (port lane : Nat)
  /-- R207: A write of START begins an eye scan. -/
  | eyeScanStart (port : Nat)
  /-- R207: The eye scan ends and its results show VALID. -/
  | eyeScanComplete (port : Nat) (heights widths : List Nat)
  /-- R220: An accepted DATA parcel is checked and passed to berth ingress. -/
  | dataParcel (port : Nat)
  /-- R219: A received filler parcel is CRC-checked and discarded. -/
  | fillerParcel (port : Nat) (parcel : List Byte)
  /-- R224: A received HELLO records the peer and enables tunnels, time sync and resumption. -/
  | hello (port : Nat)
  /-- R224: Every HELLO_MS until the peer's HELLO arrives, a HELLO is sent. -/
  | helloTimer (port : Nat)
  /-- R226: A received EST_REQ is checked and answered; an ARMED target goes LIVE. -/
  | estReq (port : Nat)
  /-- R226: A received EST_ACK moves the sending channel to LIVE. -/
  | estAck (port : Nat)
  /-- R226: A received EST_NAK writes TUN_EST_NAK. -/
  | estNak (port : Nat)
  /-- R225: Every EST_RETRY_MS an ARMED channel without ACK resends EST_REQ. -/
  | estRetry (port chan : Nat)
  /-- R238: A received ALLOT_REQ is answered with ALLOT_ACK or ALLOT_NAK. -/
  | allotReq (port : Nat)
  /-- R238: A timely ALLOT_ACK schedules the allotment change at EPOCH. -/
  | allotAck (port : Nat)
  /-- R238: An ALLOT_NAK abandons the epoch for a retry. -/
  | allotNak (port : Nat)
  /-- R238: No ACK within ALLOT_TIMEOUT_US abandons the epoch and writes TUN_ALLOT_LATE. -/
  | allotTimeout (port : Nat)
  /-- R235: At each epoch start reserved credits reset, agreed allotments switch and pending re-allotments retry. -/
  | epochStart
  /-- R249: A received HOLD_REPORT is written to the report ring and raises the TUN interrupt. -/
  | holdReport (port : Nat)
  /-- R249: A received HOLD_CONFIRM resumes matching HELD channels or reports a generation mismatch. -/
  | holdConfirm (port : Nat)
  /-- R249: TUN_CMD CONFIRM sends HOLD_CONFIRM records. -/
  | confirm (port : Nat) (last all : Bool) (gen : Nat)
  /-- R249: TUN_CMD LOCAL_END completes the handshake from the hub's own firmware. -/
  | localEnd (all : Bool)
  /-- R244: A received SYNC, with its FOLLOW_UP, runs the time servo. -/
  | sync (port : Nat)
  /-- R244: A received FOLLOW_UP supplies T1 for the servo. -/
  | followUp (port : Nat)
  /-- R244: A received PDELAY_REQ is answered with PDELAY_RESP and PDELAY_FOLLOW. -/
  | pdelayReq (port : Nat)
  /-- R244: A received PDELAY_RESP supplies T2 for the delay computation. -/
  | pdelayResp (port : Nat)
  /-- R244: A received PDELAY_FOLLOW supplies T3 and updates the link delay. -/
  | pdelayFollow (port : Nat)
  /-- R244: Every 2^LOG_SYNC s a master port sends SYNC and FOLLOW_UP. -/
  | syncInterval (port : Nat)
  /-- R244: Every 2^LOG_PDELAY s each port sends PDELAY_REQ. -/
  | pdelayInterval (port : Nat)
  /-- R244: No SYNC for 16 intervals clears DISCIPLINED. -/
  | syncReceiptTimeout
  /-- R248: A received CTL parcel goes to its mailbox or is forwarded. -/
  | ctl (port : Nat)
  /-- R267: The rake starts a unit in cut-through or store-and-forward. -/
  | egressStart (group port : Nat)
  /-- R280: A unit or copy leaves and its multicast reference is returned. -/
  | egressComplete (q : Nat)
  /-- R267: A flake missing LOST_US after a later flake makes the unit bad. -/
  | lostFlakeTimeout (q : Nat)
  /-- R273: A spilled unit is read back from the lagoon into the pans. -/
  | refill
  /-- R278: A write of FLUSH discards or ends every unit enqueued in the slot. -/
  | flush (q : Nat)
  /-- R278: The flush finishes and FLUSH reads 0. -/
  | flushComplete (q : Nat)
  /-- R285: SAL_BERTH_CMD DRAIN moves a berth to DRAINING. -/
  | berthDrain (berth : Nat)
  /-- R285: A draining berth's units complete and it becomes OFF. -/
  | berthOff (berth : Nat)
  /-- R286: SAL_BERTH_CMD RESTORE returns an OFF berth to ON, or is refused. -/
  | berthRestore (berth : Nat)
  /-- R294: A received Ethernet frame is checked, classified and dispatched or passed to the time engine. -/
  | ethFrameReceive (port : Nat) (frame : List Byte) (pcsError : Bool)
  /-- R300: At each transmission opportunity the rake selects the next frame by class, gate and shaper. -/
  | transmissionOpportunity (port : Nat)
  /-- R303: At each sluice entry boundary the gate states change. -/
  | gateChange (port : Nat)
  /-- R306: At ConfigChangeTime the new sluice list and other shadowed ETH fields take effect. -/
  | sluiceConfigChange (port : Nat)
  /-- R318: An Ethernet link rises. -/
  | ethLinkUp (port speed : Nat)
  /-- R314: An Ethernet link falls and its queued units are discarded. -/
  | ethLinkDown (port : Nat)
  /-- R299: A received gPTP Announce feeds the best master clock algorithm. -/
  | ptpAnnounce (port p1 cls p2 ident steps : Nat)
  /-- R299: A received gPTP Sync is stamped for the servo. -/
  | ptpSync (port seq : Nat)
  /-- R299: A received gPTP Follow_Up runs the servo. -/
  | ptpFollowUp (port seq : Nat) (t1 : Int)
  /-- R299: A received Pdelay_Req is answered. -/
  | ptpPdelayReq (port seq : Nat)
  /-- R299: A received Pdelay_Resp feeds the neighbour delay. -/
  | ptpPdelayResp (port seq : Nat) (t2 : Int)
  /-- R299: A received Pdelay_Resp_Follow_Up completes the neighbour delay and asCapable check. -/
  | ptpPdelayRespFollowUp (port seq : Nat) (t3 : Int)
  /-- R299: A received Signaling message is accepted and ignored. -/
  | ptpSignaling (port : Nat)
  /-- R299: Every 1 s a gPTP port sends Announce. -/
  | announceInterval (port : Nat)
  /-- R322: A received TLP is decoded as a BAR access, completion or unit. -/
  | pciTlpReceive (ctrl : Nat) (tlp : List Byte) (bar : Option (Nat × Nat))
  /-- R325: A completion is delivered to its requester under the original tag. -/
  | pciCompletionReceive (ctrl tag status : Nat) (data : List Byte)
  /-- R323: A non-posted request is issued once tag, slot and buffer space are held. -/
  | pciRequestIssue (ctrl : Nat)
  /-- R351: A PCI Express link comes up. -/
  | pciLinkUp (ctrl rate width : Nat) (tag10 : Bool)
  /-- R347: A PCI Express link goes down and its outstanding requests end. -/
  | pciLinkDown (ctrl : Nat)
  /-- R531: PCIn_PERST_N low resets an endpoint link's controllers. -/
  | perstAssert (ctrl : Nat)
  /-- R527: PCIn_PERST_N rising lets the endpoint link train after 20 ms. -/
  | perstRelease (ctrl : Nat)
  /-- R330: A read of BRG_PWERR_ENTRY.MOMENT_LO removes the oldest entry. -/
  | pwerrPop
  /-- R334: A BRG RAISE message enqueues an MSI-X write behind the slot's units. -/
  | raise
  /-- R334: A BRG MOVE message queues a mover transfer within the channel's region. -/
  | brgMove
  /-- R337: Prefetched bytes unused within 4 µs are discarded and recorded. -/
  | prefetchDiscard
  /-- R339: A semaphore's lease expires: it is released, TAINTED and granted onward. -/
  | semLeaseExpiry (sem : Nat)
  /-- R341: An AtomicOp to a region without ATOMIC is emulated under its semaphore. -/
  | atomicEmulation (ctrl : Nat) (tlp old : List Byte)
  /-- R342: A mover starts the next descriptor while HEAD differs from TAIL. -/
  | moverStart (m : Nat)
  /-- R343: A descriptor completes, writes STATUS and may raise its vector or stop the mover. -/
  | moverComplete (m : Nat) (data : List Byte) (status : Nat)
  /-- R343: MOV_CMD RESTART skips the failed descriptor and resumes the mover. -/
  | movRestart (m : Nat)
  /-- R344: A response record added to a mailbox is sent to its origin as a CTL reply. -/
  | mailboxResponse (mbox : Nat)
  /-- R346: A local-bus window transfer starts on its peripheral. -/
  | localBusTransfer (k : Nat)
  /-- R346: A local-bus transfer completes or fails. -/
  | localBusComplete (k err : Nat) (data : List Byte)
  /-- R346: A UART byte is received into the receive FIFO. -/
  | uartReceive (k : Nat) (byte : Byte) (parity framing : Bool)
  /-- R357: The signal engine takes a unit and extracts its signals into the store. -/
  | sigUnit
  /-- R359: At each multiple of CYCLE an output channel fires a trigger unit. -/
  | cyclicTrigger (chan : Nat)
  /-- R362: A PACK message builds an output unit from the store. -/
  | pack
  /-- R361: A GPIO_SET message drives masked output lines. -/
  | gpioSet
  /-- R363: A GPIO line changes level and is stamped, pending debounce. -/
  | gpioTransition (line : Nat) (level : Bool)
  /-- R363: A level held for DEBOUNCE_US counts the edge and enters an edge unit. -/
  | gpioDebounce (line : Nat)
  /-- R366: A received CAN frame is filtered and dispatched. -/
  | canFrameReceive (ctrl id : Nat) (esi remote : Bool) (data : List Byte)
  /-- R367: A CAN frame is sent from a transmit buffer. -/
  | canFrameSent (ctrl : Nat)
  /-- R367: A frame not sent within TX_TIMEOUT_MS is dropped. -/
  | canTxTimeout (ctrl : Nat)
  /-- R368: A bus error updates TEC and REC and may change the error state. -/
  | canBusError (ctrl tec rec_ lec : Nat)
  /-- R368: After 128 sequences of 11 recessive bits the controller rejoins. -/
  | canBusRecover (ctrl : Nat)
  /-- R368: CAN_CMD RESTART starts recovery with AUTO_RECOVER 0. -/
  | canRestart (ctrl : Nat)
  /-- R380: At vertical blanking start a head applies commits and PRESENTs and posts fences. -/
  | vblankStart (head : Nat)
  /-- R391: DSP_HCTRL.COMMIT commits one head's shadows at a later vertical blanking. -/
  | headCommit (head : Nat)
  /-- R391: DSP_HCTRL.ABANDON withdraws a pending head commit. -/
  | headAbandon (head : Nat)
  /-- R395: A PRESENT message switches a layer's buffer at a vertical blanking start. -/
  | present
  /-- R390: A tile arrives at a head's tile writer and is checked. -/
  | tileUpdate (head : Nat)
  /-- R390: A deferred or held tile is written once the scan or lease allows. -/
  | tileApply (head : Nat)
  /-- R397: After PSR_FRAMES undamaged frames a head enters Panel Self Refresh. -/
  | psrEntry (head : Nat) (sinkOk : Bool)
  /-- R398: An empty FIFO at an active pixel repeats the last pixel and counts the line. -/
  | dspUnderrun (head : Nat)
  /-- R400: HPD loss stops sending and writes DSP_LINK_DOWN. -/
  | hpdLoss (head : Nat)
  /-- R400: A failed AUX transaction stops sending and writes DSP_LINK_DOWN. -/
  | auxFailure (head : Nat)
  /-- R400: HPD returning retrains the head's link. -/
  | hpdReturn (head : Nat)
  /-- R392: The head's link completes training and video unmutes. -/
  | dspTrainingComplete (head rate lanes tx : Nat)
  /-- R405: The pixel PLL fails to relock within 1 ms; the head stays muted and retries. -/
  | dspPllUnlock (head : Nat)
  /-- R409: A Type-C attach is detected on a cable port. -/
  | ccAttach (port orient : Nat) (source ra : Bool) (cable speed : Nat) (fiveA epr : Bool)
  /-- R409: On detach both gates open and VBUS discharges. -/
  | ccDetach (port : Nat)
  /-- R413: Unpowered, a VBUS reaching 4.5 V starts the dead-battery sequence. -/
  | vbusRise (port : Nat)
  /-- R413: A received Source_Capabilities is answered with a Request within the sink ceiling. -/
  | pdSourceCapabilities (port : Nat) (pdos : List Nat)
  /-- R410: A received Request is accepted or refused against the source ceiling. -/
  | pdRequest (port object ma offers vdo : Nat)
  /-- R413: A received PS_RDY puts the contract in force. -/
  | pdPsRdy (port offers vdo : Nat)
  /-- R423: A received PR_Swap is accepted or rejected. -/
  | pdPrSwap (port : Nat)
  /-- R423: A received DR_Swap is accepted or rejected. -/
  | pdDrSwap (port : Nat)
  /-- R423: A received VCONN_Swap is accepted or rejected. -/
  | pdVconnSwap (port : Nat)
  /-- R425: A received Hard Reset returns the port to attach roles and tears down modes and the link. -/
  | pdHardReset (port : Nat)
  /-- R417: A received EPR_KeepAlive is acknowledged. -/
  | pdEprKeepalive (port : Nat)
  /-- R407: A received EPR mode request is accepted only with an EPR 5 A cable. -/
  | pdEprMode (port : Nat) (enter : Bool)
  /-- R407: A Discover Identity VDM is answered. -/
  | pdDiscoverIdentity (port : Nat)
  /-- R418: A Discover SVIDs VDM is answered with the enabled SVIDs. -/
  | pdDiscoverSvids (port : Nat)
  /-- R418: A Discover Modes VDM is answered with the mode VDO. -/
  | pdDiscoverModes (port svid : Nat)
  /-- R418: A received Enter Mode is ACKed or NAKed and the multiplexer set by policy. -/
  | pdEnterMode (port svid vdo : Nat)
  /-- R421: A received Exit Mode exits the mode and sets SAFE. -/
  | pdExitMode (port : Nat)
  /-- R418: A received Attention updates the peer's rates for the next training. -/
  | pdAttention (port svid vdo : Nat)
  /-- R422: A DP Status Update is exchanged and HPD reported. -/
  | pdDpStatusUpdate (port status : Nat)
  /-- R422: A DP Configure sets the pin assignment. -/
  | pdDpConfigure (port config : Nat)
  /-- R424: A received Accept completes the outstanding request. -/
  | pdAccept (port : Nat)
  /-- R424: A received Reject ends the outstanding request. -/
  | pdReject (port : Nat)
  /-- R424: A received Wait defers the outstanding request. -/
  | pdWait (port : Nat)
  /-- R427: A Soft_Reset resets the protocol state of the port. -/
  | pdSoftReset (port : Nat)
  /-- R423: CBL_CMD SWAP_PR requests a power role swap. -/
  | swapPr (port : Nat)
  /-- R423: CBL_CMD SWAP_DR requests a data role swap, or ends WRONG_STATE with a mode entered. -/
  | swapDr (port : Nat)
  /-- R423: CBL_CMD SWAP_VCONN requests a VCONN swap. -/
  | swapVconn (port : Nat)
  /-- R421: CBL_CMD ENTER_AVRATH enters the Avrath mode, optionally split. -/
  | enterAvrath (port : Nat) (split src : Bool) (peer : Nat) (ack : Bool)
  /-- R421: CBL_CMD ENTER_DP enters DisplayPort Alt Mode with the given pin assignment. -/
  | enterDp (port pin : Nat) (src ack : Bool)
  /-- R421: CBL_CMD EXIT_MODE exits the entered mode. -/
  | exitMode (port : Nat)
  /-- R425: CBL_CMD HARD_RESET sends a Hard Reset on the port. -/
  | hardReset (port : Nat)
  /-- R411: CBL_CMD RECAPS releases a trip-latched port and renegotiates. -/
  | recaps (port : Nat)
  /-- R424: A Sink retries a collided swap after a random delay. -/
  | swapRetry (port : Nat)
  /-- R421: A CBL_MUX write sets the multiplexer under MUX_POLICY 1, or is refused. -/
  | cblMuxWrite (port state : Nat)
  /-- R411: A VBUS voltage or current comparator trips, opens the gates and issues Hard Reset. -/
  | cblTrip (port mv ma : Nat)
  /-- R414: A VCONN load above 320 mA for 1 ms opens the switch. -/
  | cblVconnOc (port : Nat)
  /-- R417: After a double trap the cable core restarts from its image while the PD hardware holds state. -/
  | cableCoreRestart
  /-- R416: A trial policy image writes CONFIRM and the rollback floor rises. -/
  | policyConfirm
  /-- R416: A trial image not confirmed within 5 s is replaced by the other slot. -/
  | trialTimeout
  /-- R416: CBL_IMG_CMD REVERT replaces an unconfirmed image by the other slot. -/
  | imgRevert
  /-- R426: In SAFE, a Source with no Request within 30 ms issues Hard Reset. -/
  | safeSourceTimeout (port : Nat)
  /-- R461: A contract still above a lowered ceiling after 30 ms issues Hard Reset. -/
  | ceilingTimeout (port : Nat)
  /-- R458: Epmas service STATUS returns state, anchor, floors and device identity. -/
  | status
  /-- R458: Service RANDOM returns DRBG bytes. -/
  | random (length : Nat)
  /-- R458: Service NODE_ALLOC allocates a ledger node. -/
  | nodeAlloc (parent usage : Nat)
  /-- R451: Service NODE_INVALIDATE increments a node's epoch through a ledger write. -/
  | nodeInvalidate (node : Nat)
  /-- R451: The OTP step burns and every slot at or below the node is doomed. -/
  | invalidationPoint
  /-- R451: A doomed slot is zeroised once its last parcel completes, and its channels become SEALED. -/
  | slotZeroise (slot : Nat)
  /-- R458: Service NODE_FREE frees a childless node. -/
  | nodeFree (node : Nat)
  /-- R458: Service KEY_GENERATE places a DRBG key in a slot and returns its blob. -/
  | keyGenerate (node slot : Nat)
  /-- R448: Service KEY_LOAD checks and loads a blob into a slot. -/
  | keyLoad (blob : List Byte) (slot : Nat)
  /-- R458: Service KEY_DROP zeroises a slot. -/
  | keyDrop (slot : Nat)
  /-- R459: Service KEY_EXPORT encapsulates a key to a peer hub. -/
  | keyExport (slot : Nat) (peer : List Byte)
  /-- R459: Service KEY_IMPORT places an exported key and returns a local blob. -/
  | keyImport (record sender : List Byte) (node slot : Nat)
  /-- R460: Service ATTEST returns a signed quote. -/
  | attest (nonce : List Byte)
  /-- R458: Service DATA_SEAL encrypts data under a storage-domain key. -/
  | dataSeal (slot : Nat) (data : List Byte)
  /-- R458: Service DATA_OPEN decrypts sealed data. -/
  | dataOpen (slot : Nat) (data : List Byte)
  /-- R440: Service IMAGE_AUTH authenticates an image. -/
  | imageAuth (image : Nat)
  /-- R440: Service SVN_COMMIT raises the hub-firmware SVN floor. -/
  | svnCommit
  /-- R461: Service CEILING_SET writes and locks a port's ceilings. -/
  | ceilingSet (port srcMv srcMa snkMv snkMa : Nat)
  /-- R486: Service SELFTEST_CFG writes the SLT schedule fields. -/
  | selftestCfg (interval retry kinds : Nat)
  /-- R458: Service SAFE_ENTER moves the device to SAFE with cause 3. -/
  | safeEnter
  /-- R42: Service SAFE_RELEASE clears the SAFE latch through a cold reset. -/
  | safeRelease
  /-- R434: Service LC_TRANSITION performs an authorised life-cycle transition. -/
  | lcTransition (target : Nat)
  /-- R494: Service RETURN_PREPARE invalidates nodes 2, 3 and 5 and returns a signed return request. -/
  | returnPrepare (reference : List Byte)
  /-- R462: Service OWNER_SET stores the owner record and burns its hash. -/
  | ownerSet (record : List Byte)
  /-- R458: Service TEST_ENTER moves a RETURNED hub from RUN to TEST. -/
  | testEnter
  /-- R467: Service ZEROISE overwrites vault, DRBG and key-bearing Secure RAM. -/
  | zeroise
  /-- R449: A blob missing from the pool is loaded into a pool slot, or its channel becomes SEALED. -/
  | poolLoad (chan : Nat)
  /-- R449: No free pool slot for 100 µs drops the unit and writes KEY_POOL_BUSY. -/
  | poolBusyTimeout (chan : Nat)
  /-- R446: An uncorrectable vault error zeroises the slot. -/
  | keyVaultEcc (slot : Nat)
  /-- R465: Each entropy sample passes the continuous health tests or puts Epmas in error. -/
  | entropySample (healthy : Bool)
  /-- R471: At each multiple of PERIOD_US a gauge takes a sample and accumulates it. -/
  | periodicSample (gauge : Nat) (value : Int)
  /-- R474: GAU_CMD SNAPSHOT copies accumulators at one Moment. -/
  | snapshot (gauge : Nat) (all : Bool)
  /-- R474: GAU_CMD CLEAR clears the live accumulators. -/
  | clear (gauge : Nat) (all : Bool)
  /-- R474: GAU_CMD SNAPSHOT_CLEAR snapshots and clears at one Moment. -/
  | snapshotClear (gauge : Nat) (all : Bool)
  /-- R477: A staged bittern record moves to the ring in DRAM. -/
  | ringWrite
  /-- R477: A read of BTN_POP word 7 removes the oldest staged record. -/
  | btnPop
  /-- R479: A BTN LOG message writes a program bittern record. -/
  | log
  /-- R487: A runtime self-test slice starts on its target. -/
  | sliceStart (kind target : Nat)
  /-- R487: A slice completes and its target passes or fails. -/
  | sliceEnd (pass last worse : Bool) (signature : Nat)
  /-- R488: A blocked request aborts the slice and returns the target within 2 µs. -/
  | sliceAbort
  /-- R488: An aborted slice is retried RETRY_MS later. -/
  | sliceRetry (kind target : Nat)
  /-- R489: A set incomplete at its deadline is forced. -/
  | sltForced (kind target : Nat)
  /-- R492: TAP instruction BYPASS. -/
  | bypass
  /-- R492: TAP instruction IDCODE. -/
  | idcode
  /-- R492: TAP instruction SAMPLE/PRELOAD. -/
  | samplePreload
  /-- R492: TAP instruction USERCODE. -/
  | usercode
  /-- R492: TAP instruction EXTEST, or BYPASS outside permitted states. -/
  | extest
  /-- R492: TAP instruction EXTEST_PULSE. -/
  | extestPulse
  /-- R492: TAP instruction EXTEST_TRAIN. -/
  | extestTrain
  /-- R493: An access to the test-engine window is served or refused by life-cycle. -/
  | testEngineAccess (write : Bool) (offset value : Nat)
  /-- R556: A core sensor at the SAFE threshold for 1 ms enters SAFE. -/
  | thermalHigh (sensor reading : Nat)
  /-- R556: A core sensor at 140 °C for 100 µs trips the hub OFF under thermal hold. -/
  | thermalTrip (temp : Int)
  /-- R556: The AON sensor below 100 °C releases the thermal hold. -/
  | thermalRelease (temp : Int)
  /-- R525: VIN reaching 4.5 V brings up the AON domain and starts the rail sequence. -/
  | powerUp
  /-- R514: A rail group in range for 0.5 ms lets the next group be enabled. -/
  | railGroupEnable
  /-- R514: A group not in range 5 ms after its enable drops every enable. -/
  | railFault (readback : Bool)
  /-- R514: 1 s after a rail fault the hub tries again. -/
  | railRetry
  /-- R525: PGOOD high enters BOOT and samples the straps. -/
  | pgoodRise (balls : Nat)
  /-- R515: PGOOD low for 10 µs removes the main rails. -/
  | pgoodFall
  /-- R518: The reference PLL locks. -/
  | refLock
  /-- R518: No REF_LOCK within 2 ms of PGOOD sets REF_FAULT and retries every 100 ms. -/
  | refFault
  /-- R518: Loss of reference lock stops the edges and takes every link down. -/
  | refLost
  /-- R438: The boot ROM self-tests pass and Epmas is loaded and authenticated. -/
  | epmasAuthenticated (ok : Bool) (slot : Nat) (fallback flash8d : Bool) (kernel board : List Byte) (ledger : Nat)
  /-- R526: DRAM training completes, or fails with DDR_FAULT. -/
  | dramTrained (ok : Bool) (gib : Nat)
  /-- R526: The start-up self-test completes, possibly leading to SAFE. -/
  | startupSelftestDone (failures : List (Nat × Nat × Bool))
  /-- R438: Hub firmware is authenticated, the control cores released and RUN entered, or BOOT_FAIL set. -/
  | firmwareAuthenticated (ok : Bool) (slot : Nat) (fallback : Bool) (hash : List Byte) (svn start : Nat)
  /-- R515: SYS_STANDBY ENTER with the correct key removes the main rails. -/
  | standbyEnter (key : Nat)
  /-- R515: WAKE_N falling enables the main rails again. -/
  | wakeNFall
  /-- R528: PORn asserted takes the hub OFF and resets everything. -/
  | porn
  /-- R42: VIN and every VBUS below 4.5 V take the hub OFF. -/
  | powerLoss
  /-- R530: SYS_BLK_RESET resets a quiesced LNK, ETH, PCI or CAN block. -/
  | blkReset (blk key : Nat)
  /-- R536: XSPI_CMD READ copies flash bytes to hub DRAM. -/
  | xspiRead (m : Master) (len : Nat)
  /-- R524: XSPI_CMD PROGRAM writes flash, or is refused by area. -/
  | xspiProgram (m : Master) (len : Nat)
  /-- R524: XSPI_CMD ERASE erases 64 KiB of flash, or is refused by area. -/
  | xspiErase (m : Master)
  /-- R536: An xSPI command completes and BUSY clears. -/
  | xspiComplete (data : List Byte) (error : Bool)
  /-- R532: VIN falls below 4.5 V while some VBUS stays up; the AON input switches to VBUS and the main rails stay or are removed by whether a sink contract holds. -/
  | vinLoss
  /-- R517: A pulse on PPS_IN, with REF10_IN, sets the phase of the Moment when the hub is grandmaster. -/
  | ppsPulse
  /-- R376: An IRQ_HPD pulse arrives on a head's HPD input, or from a DisplayPort sink in alternate mode, and is served or passed on. -/
  | irqHpd (head : Nat) (port : Option Nat)
  /-- R185: While parcels arrive, 1 µs passes since the last ACK and the receiver sends an ACK lane control block. -/
  | ackInterval (port : Nat)
  /-- R416: The cable core leaves the ROM policy or the previous image at a point where no PD message sequence is in progress and starts the new policy image. -/
  | policyHandover (slot : Nat) (image sig : List Byte)
  /-- R454: A write of a request address to KEY_CALL queues the request for Epmas, or is refused with FULL or KEY_CALL_REFUSED. -/
  | keyCall (m : Master) (addr : Nat)
  /-- R424: A swap request that the hub sent gets no answer in time and ends with CBL_CMD_STATUS TIMEOUT. -/
  | swapTimeout (port : Nat)
  /-- R369: After a commit has taken the controller off the bus, 11 recessive bits are seen and the controller rejoins with the new timing. -/
  | canRejoin (ctrl : Nat)
  deriving DecidableEq, Repr

end Sys2Proof
end

