-- ==== Sys2Proof/Decode.lean ====
section
/-! DEFINITION. Decoding. spec/opcode_table.json gives no row any bits, so no word of the table spells a command. The grainer
instruction words of R135 to R166, which the hub itself fetches, are decoded and encoded here. -/
namespace Sys2Proof

/-- The table gives no row bits: no word spells a command. -/
def decodeTableWord (nbits w : Nat) : Option Instr :=
  match nbits, w with
  | _, _ => none

/-! ### Formats (R135) -/

def fmtA (maj : BitVec 6) (rd rs1 rs2 : Reg) (func : BitVec 11) : BitVec 32 := maj ++ rd ++ rs1 ++ rs2 ++ func
def fmtI (maj : BitVec 6) (rd rs1 : Reg) (imm : BitVec 16) : BitVec 32 := maj ++ rd ++ rs1 ++ imm
def fmtF (rd rs1 : Reg) (pos len1 : BitVec 6) (func : BitVec 4) : BitVec 32 := 0x12#6 ++ rd ++ rs1 ++ pos ++ len1 ++ func
def fmtM (maj : BitVec 6) (rd rs1 : Reg) (size : BitVec 2) (sign : BitVec 1) (imm : BitVec 11) : BitVec 32 :=
  maj ++ rd ++ rs1 ++ size ++ sign ++ 0#2 ++ imm

/-- Profiles (R94). -/
def Mach.isData : Mach → Bool
  | .eng _ _ => true
  | _ => false
def Mach.isSecure : Mach → Bool
  | .secure => true
  | _ => false

/-- The word of a grainer instruction; 0 stands for a command that is none. -/
def encodeGrn (i : Instr) : BitVec 32 :=
  match i with
  | .add _ rd rs1 rs2 => fmtA 0x00#6 rd rs1 rs2 0#11
  | .sub _ rd rs1 rs2 => fmtA 0x00#6 rd rs1 rs2 1#11
  | .grnAnd _ rd rs1 rs2 => fmtA 0x00#6 rd rs1 rs2 2#11
  | .grnOr _ rd rs1 rs2 => fmtA 0x00#6 rd rs1 rs2 3#11
  | .grnXor _ rd rs1 rs2 => fmtA 0x00#6 rd rs1 rs2 4#11
  | .andn _ rd rs1 rs2 => fmtA 0x00#6 rd rs1 rs2 5#11
  | .sll _ rd rs1 rs2 => fmtA 0x00#6 rd rs1 rs2 6#11
  | .srl _ rd rs1 rs2 => fmtA 0x00#6 rd rs1 rs2 7#11
  | .sra _ rd rs1 rs2 => fmtA 0x00#6 rd rs1 rs2 8#11
  | .ror _ rd rs1 rs2 => fmtA 0x00#6 rd rs1 rs2 9#11
  | .mul _ rd rs1 rs2 => fmtA 0x00#6 rd rs1 rs2 10#11
  | .mulhu _ rd rs1 rs2 => fmtA 0x00#6 rd rs1 rs2 11#11
  | .mulh _ rd rs1 rs2 => fmtA 0x00#6 rd rs1 rs2 12#11
  | .divu _ rd rs1 rs2 => fmtA 0x00#6 rd rs1 rs2 13#11
  | .div _ rd rs1 rs2 => fmtA 0x00#6 rd rs1 rs2 14#11
  | .remu _ rd rs1 rs2 => fmtA 0x00#6 rd rs1 rs2 15#11
  | .rem _ rd rs1 rs2 => fmtA 0x00#6 rd rs1 rs2 16#11
  | .min _ rd rs1 rs2 => fmtA 0x00#6 rd rs1 rs2 17#11
  | .max _ rd rs1 rs2 => fmtA 0x00#6 rd rs1 rs2 18#11
  | .minu _ rd rs1 rs2 => fmtA 0x00#6 rd rs1 rs2 19#11
  | .maxu _ rd rs1 rs2 => fmtA 0x00#6 rd rs1 rs2 20#11
  | .clz _ rd rs1 => fmtA 0x00#6 rd rs1 0#5 21#11
  | .popc _ rd rs1 => fmtA 0x00#6 rd rs1 0#5 22#11
  | .addi _ rd rs1 imm => fmtI 1#6 rd rs1 imm
  | .andi _ rd rs1 imm => fmtI 2#6 rd rs1 imm
  | .ori _ rd rs1 imm => fmtI 3#6 rd rs1 imm
  | .xori _ rd rs1 imm => fmtI 4#6 rd rs1 imm
  | .shi _ rd rs1 kind amt => fmtI 0x05#6 rd rs1 (0#8 ++ kind ++ amt)
  | .lih _ rd k imm => fmtI 0x06#6 rd (0#3 ++ k) imm
  | .swapH _ rd rs1 => fmtA 0x07#6 rd rs1 0#5 1#11
  | .swapW _ rd rs1 => fmtA 0x07#6 rd rs1 0#5 2#11
  | .swapD _ rd rs1 => fmtA 0x07#6 rd rs1 0#5 3#11
  | .beq _ ra rb off => fmtI 8#6 ra rb off
  | .bne _ ra rb off => fmtI 9#6 ra rb off
  | .blt _ ra rb off => fmtI 10#6 ra rb off
  | .bge _ ra rb off => fmtI 11#6 ra rb off
  | .bltu _ ra rb off => fmtI 12#6 ra rb off
  | .bgeu _ ra rb off => fmtI 13#6 ra rb off
  | .beqi _ ra imm off => fmtI 14#6 ra imm off
  | .bnei _ ra imm off => fmtI 15#6 ra imm off
  | .jal _ rd off => (0x10#6 ++ rd ++ off : BitVec 32)
  | .jalr _ rd rs1 imm => fmtI 0x11#6 rd rs1 imm
  | .ext _ rd rs1 pos len1 => fmtF rd rs1 pos len1 0#4
  | .exts _ rd rs1 pos len1 => fmtF rd rs1 pos len1 1#4
  | .ins _ rd rs1 pos len1 => fmtF rd rs1 pos len1 2#4
  | .scale _ rd rs1 rs2 w so si cf => fmtA 0x13#6 rd rs1 rs2 (0#2 ++ BitVec.ofBool cf ++ BitVec.ofBool si ++ BitVec.ofBool so ++ w)
  | .fcvt _ rd rs1 src dst rnd => fmtA 0x14#6 rd rs1 0#5 (0#3 ++ rnd ++ 0#1 ++ dst ++ 0#1 ++ src)
  | .ldu _ rd rs1 size sign imm => fmtM 24#6 rd rs1 size (BitVec.ofBool sign) imm
  | .stu _ rs rs1 size imm => fmtM 25#6 rs rs1 size 0#1 imm
  | .ldc _ rd rs1 size sign imm => fmtM 26#6 rd rs1 size (BitVec.ofBool sign) imm
  | .stc _ rs rs1 size imm => fmtM 27#6 rs rs1 size 0#1 imm
  | .ldt _ rd rs1 size sign imm => fmtM 28#6 rd rs1 size (BitVec.ofBool sign) imm
  | .ldk _ rd rs1 size sign imm => fmtM 29#6 rd rs1 size (BitVec.ofBool sign) imm
  | .stk _ rs rs1 size imm => fmtM 30#6 rs rs1 size 0#1 imm
  | .ldm _ rd rs1 size sign imm => fmtM 31#6 rd rs1 size (BitVec.ofBool sign) imm
  | .stm _ rs rs1 size imm => fmtM 32#6 rs rs1 size 0#1 imm
  | .lookup _ rd rs1 rs2 slot => fmtA 0x22#6 rd rs1 rs2 (0#8 ++ slot)
  | .meter _ rd rs1 rs2 colour own aware => fmtA 0x23#6 rd rs1 rs2 (0#7 ++ BitVec.ofBool aware ++ BitVec.ofBool own ++ colour)
  | .stamp _ rd => fmtA 0x24#6 rd 0#5 0#5 0#11
  | .enq _ rs1 own saf multi => fmtA 0x25#6 0#5 rs1 0#5 (0#7 ++ BitVec.ofBool multi ++ 0#1 ++ BitVec.ofBool saf ++ BitVec.ofBool own)
  | .emit _ rd rs1 rs2 kind => fmtA 0x26#6 rd rs1 rs2 (0#8 ++ kind)
  | .drop _ reason => fmtA 0x27#6 0#5 0#5 0#5 (0#3 ++ reason)
  | .mark _ func => fmtA 0x28#6 0#5 0#5 0#5 (0#9 ++ func)
  | .grnSeal _ on => fmtA 0x29#6 0#5 0#5 0#5 (0#10 ++ BitVec.ofBool on)
  | .move _ rd rs1 rs2 dst src => fmtA 0x2A#6 rd rs1 rs2 (0#5 ++ src ++ dst)
  | .acq _ rd rs1 once => fmtA 0x2B#6 rd rs1 0#5 (0#10 ++ BitVec.ofBool once)
  | .rel _ rs1 => fmtA 0x2C#6 0#5 rs1 0#5 0#11
  | .msg _ rd rs1 rs2 blk => fmtA 0x2D#6 rd rs1 rs2 (0#3 ++ blk)
  | .waitc _ rd rs1 queue blk => fmtA 0x2E#6 rd rs1 0#5 (0#2 ++ BitVec.ofBool queue ++ blk)
  | .fence _ => fmtA 0x30#6 0#5 0#5 0#5 0#11
  | .yield _ => fmtA 0x30#6 0#5 0#5 1#5 0#11
  | .done _ => fmtA 0x30#6 0#5 0#5 2#5 0#11
  | .trap _ imm => fmtA 0x30#6 0#5 0#5 3#5 imm
  | .eret _ => fmtA 0x30#6 0#5 0#5 4#5 0#11
  | .wfi _ => fmtA 0x30#6 0#5 0#5 5#5 0#11
  | .csrr _ rd csr => fmtA 0x32#6 rd 0#5 0#5 csr
  | .csrw _ csr rs1 => fmtA 0x32#6 0#5 rs1 1#5 csr
  | .kload _ rd rs1 rs2 => fmtA 0x34#6 rd rs1 rs2 0#11
  | .kderive _ rd rs1 rs2 => fmtA 0x34#6 rd rs1 rs2 1#11
  | .kwrap _ rd rs1 rs2 => fmtA 0x34#6 rd rs1 rs2 2#11
  | .kdrop _ rd rs1 rs2 => fmtA 0x34#6 rd rs1 rs2 3#11
  | .lcstep _ rd rs1 rs2 => fmtA 0x34#6 rd rs1 rs2 4#11
  | _ => 0

/-- The machine of a grainer instruction. -/
def machOf (i : Instr) : Option Mach :=
  match i with
  | .add m _ _ _ => some m
  | .sub m _ _ _ => some m
  | .grnAnd m _ _ _ => some m
  | .grnOr m _ _ _ => some m
  | .grnXor m _ _ _ => some m
  | .andn m _ _ _ => some m
  | .sll m _ _ _ => some m
  | .srl m _ _ _ => some m
  | .sra m _ _ _ => some m
  | .ror m _ _ _ => some m
  | .mul m _ _ _ => some m
  | .mulhu m _ _ _ => some m
  | .mulh m _ _ _ => some m
  | .divu m _ _ _ => some m
  | .div m _ _ _ => some m
  | .remu m _ _ _ => some m
  | .rem m _ _ _ => some m
  | .min m _ _ _ => some m
  | .max m _ _ _ => some m
  | .minu m _ _ _ => some m
  | .maxu m _ _ _ => some m
  | .clz m _ _ => some m
  | .popc m _ _ => some m
  | .addi m _ _ _ => some m
  | .andi m _ _ _ => some m
  | .ori m _ _ _ => some m
  | .xori m _ _ _ => some m
  | .shi m _ _ _ _ => some m
  | .lih m _ _ _ => some m
  | .swapH m _ _ => some m
  | .swapW m _ _ => some m
  | .swapD m _ _ => some m
  | .beq m _ _ _ => some m
  | .bne m _ _ _ => some m
  | .blt m _ _ _ => some m
  | .bge m _ _ _ => some m
  | .bltu m _ _ _ => some m
  | .bgeu m _ _ _ => some m
  | .beqi m _ _ _ => some m
  | .bnei m _ _ _ => some m
  | .jal m _ _ => some m
  | .jalr m _ _ _ => some m
  | .ext m _ _ _ _ => some m
  | .exts m _ _ _ _ => some m
  | .ins m _ _ _ _ => some m
  | .scale m _ _ _ _ _ _ _ => some m
  | .fcvt m _ _ _ _ _ => some m
  | .ldu m _ _ _ _ _ => some m
  | .stu m _ _ _ _ => some m
  | .ldc m _ _ _ _ _ => some m
  | .stc m _ _ _ _ => some m
  | .ldt m _ _ _ _ _ => some m
  | .ldk m _ _ _ _ _ => some m
  | .stk m _ _ _ _ => some m
  | .ldm m _ _ _ _ _ => some m
  | .stm m _ _ _ _ => some m
  | .lookup m _ _ _ _ => some m
  | .meter m _ _ _ _ _ _ => some m
  | .stamp m _ => some m
  | .enq m _ _ _ _ => some m
  | .emit m _ _ _ _ => some m
  | .drop m _ => some m
  | .mark m _ => some m
  | .grnSeal m _ => some m
  | .move m _ _ _ _ _ => some m
  | .acq m _ _ _ => some m
  | .rel m _ => some m
  | .msg m _ _ _ _ => some m
  | .waitc m _ _ _ _ => some m
  | .fence m => some m
  | .yield m => some m
  | .done m => some m
  | .trap m _ => some m
  | .eret m => some m
  | .wfi m => some m
  | .csrr m _ _ => some m
  | .csrw m _ _ => some m
  | .kload m _ _ _ => some m
  | .kderive m _ _ _ => some m
  | .kwrap m _ _ _ => some m
  | .kdrop m _ _ _ => some m
  | .lcstep m _ _ _ => some m
  | _ => none

/-- The instruction keeps the encoding rules of R138 and belongs to the machine's profile (R94, R95, R139, R164): what a
decoder accepts. -/
def grnLegal (i : Instr) : Bool :=
  match i with
  | .ext _ _ _ pos len1 | .exts _ _ _ pos len1 | .ins _ _ _ pos len1 => decide (pos.toNat + len1.toNat + 1 ≤ 64)
  | .scale _ rd _ rs2 _ _ _ cf => rs2 != 31#5 && (!cf || rd != 31#5)
  | .ldm m _ _ size sign _ => !m.isData && !(size == 3#2 && sign)
  | .stm m _ _ _ _ => !m.isData
  | .ldu m _ _ size sign _ | .ldc m _ _ size sign _ | .ldt m _ _ size sign _ | .ldk m _ _ size sign _ =>
    m.isData && !(size == 3#2 && sign)
  | .stu m _ _ _ _ | .stc m _ _ _ _ | .stk m _ _ _ _ | .lookup m _ _ _ _ | .drop m _ | .grnSeal m _
  | .enq m _ _ _ _ | .yield m | .done m => m.isData
  | .meter m _ _ _ colour _ aware => m.isData && colour != 3#2 && (aware || colour == 0#2)
  | .stamp _ rd => rd != 31#5
  | .emit m _ _ _ kind => m.isData && decide (kind.toNat < 6)
  | .mark m func => m.isData && func != 0#2
  | .move m _ _ _ dst src =>
    if m.isData then [0, 1, 3].contains dst.toNat && decide (src.toNat < 4) else dst == 4#3 && src == 4#3
  | .msg m _ _ _ blk =>
    if m.isData then [0x30, 0x38, 0x48, 0x61].contains blk.toNat
    else [0x01, 0x02, 0x03, 0x04, 0x05, 0x18, 0x19, 0x1A, 0x30, 0x38, 0x48, 0x50, 0x58, 0x60, 0x61, 0x68, 0x70, 0x78].contains blk.toNat
      || decide (0x10 ≤ blk.toNat ∧ blk.toNat ≤ 0x15) || decide (0x20 ≤ blk.toNat ∧ blk.toNat ≤ 0x29)
      || decide (0x31 ≤ blk.toNat ∧ blk.toNat ≤ 0x34) || decide (0x40 ≤ blk.toNat ∧ blk.toNat ≤ 0x47)
  | .waitc m _ _ queue blk => m.isData && (if queue then blk == 0#8 else [0x30, 0x38, 0x48, 0x61].contains blk.toNat)
  | .eret m | .wfi m | .csrr m _ _ | .csrw m _ _ => !m.isData
  | .kload m _ _ _ | .kderive m _ _ _ | .kwrap m _ _ _ | .lcstep m _ _ _ => m.isSecure
  | .kdrop m _ rs1 _ => m.isSecure && rs1 == 0#5
  | _ => true

/-- The fields of a word, before the rules of R138 are applied. -/
def readGrn (m : Mach) (w : BitVec 32) : Option Instr :=
  let rd : Reg := w.extractLsb' 21 5
  let rs1 : Reg := w.extractLsb' 16 5
  let rs2 : Reg := w.extractLsb' 11 5
  let func : BitVec 11 := w.extractLsb' 0 11
  let imm : BitVec 16 := w.extractLsb' 0 16
  let size : BitVec 2 := w.extractLsb' 14 2
  let sign : Bool := w.getLsbD 13
  let b (n : Nat) : Bool := w.getLsbD n
  match (w.extractLsb' 26 6).toNat with
  | 0x00 => match func.toNat with
    | 0 => some (.add m rd rs1 rs2)
    | 1 => some (.sub m rd rs1 rs2)
    | 2 => some (.grnAnd m rd rs1 rs2)
    | 3 => some (.grnOr m rd rs1 rs2)
    | 4 => some (.grnXor m rd rs1 rs2)
    | 5 => some (.andn m rd rs1 rs2)
    | 6 => some (.sll m rd rs1 rs2)
    | 7 => some (.srl m rd rs1 rs2)
    | 8 => some (.sra m rd rs1 rs2)
    | 9 => some (.ror m rd rs1 rs2)
    | 10 => some (.mul m rd rs1 rs2)
    | 11 => some (.mulhu m rd rs1 rs2)
    | 12 => some (.mulh m rd rs1 rs2)
    | 13 => some (.divu m rd rs1 rs2)
    | 14 => some (.div m rd rs1 rs2)
    | 15 => some (.remu m rd rs1 rs2)
    | 16 => some (.rem m rd rs1 rs2)
    | 17 => some (.min m rd rs1 rs2)
    | 18 => some (.max m rd rs1 rs2)
    | 19 => some (.minu m rd rs1 rs2)
    | 20 => some (.maxu m rd rs1 rs2)
    | 21 => some (.clz m rd rs1)
    | 22 => some (.popc m rd rs1)
    | _ => none
  | 1 => some (.addi m rd rs1 imm)
  | 2 => some (.andi m rd rs1 imm)
  | 3 => some (.ori m rd rs1 imm)
  | 4 => some (.xori m rd rs1 imm)
  | 5 => some (.shi m rd rs1 (w.extractLsb' 6 2) (w.extractLsb' 0 6))
  | 6 => some (.lih m rd (w.extractLsb' 16 2) imm)
  | 7 => match func.toNat with
    | 1 => some (.swapH m rd rs1)
    | 2 => some (.swapW m rd rs1)
    | 3 => some (.swapD m rd rs1)
    | _ => none
  | 8 => some (.beq m rd rs1 imm)
  | 9 => some (.bne m rd rs1 imm)
  | 10 => some (.blt m rd rs1 imm)
  | 11 => some (.bge m rd rs1 imm)
  | 12 => some (.bltu m rd rs1 imm)
  | 13 => some (.bgeu m rd rs1 imm)
  | 14 => some (.beqi m rd rs1 imm)
  | 15 => some (.bnei m rd rs1 imm)
  | 16 => some (.jal m rd (w.extractLsb' 0 21))
  | 17 => some (.jalr m rd rs1 imm)
  | 18 => match (w.extractLsb' 0 4).toNat with
    | 0 => some (.ext m rd rs1 (w.extractLsb' 10 6) (w.extractLsb' 4 6))
    | 1 => some (.exts m rd rs1 (w.extractLsb' 10 6) (w.extractLsb' 4 6))
    | 2 => some (.ins m rd rs1 (w.extractLsb' 10 6) (w.extractLsb' 4 6))
    | _ => none
  | 19 => some (.scale m rd rs1 rs2 (w.extractLsb' 0 6) (b 6) (b 7) (b 8))
  | 20 => some (.fcvt m rd rs1 (w.extractLsb' 0 2) (w.extractLsb' 3 2) (w.extractLsb' 6 2))
  | 0x18 => some (.ldu m rd rs1 size sign func)
  | 0x19 => some (.stu m rd rs1 size func)
  | 0x1A => some (.ldc m rd rs1 size sign func)
  | 0x1B => some (.stc m rd rs1 size func)
  | 0x1C => some (.ldt m rd rs1 size sign func)
  | 0x1D => some (.ldk m rd rs1 size sign func)
  | 0x1E => some (.stk m rd rs1 size func)
  | 0x1F => some (.ldm m rd rs1 size sign func)
  | 0x20 => some (.stm m rd rs1 size func)
  | 0x22 => some (.lookup m rd rs1 rs2 (w.extractLsb' 0 3))
  | 0x23 => some (.meter m rd rs1 rs2 (w.extractLsb' 0 2) (b 2) (b 3))
  | 0x24 => some (.stamp m rd)
  | 0x25 => some (.enq m rs1 (b 0) (b 1) (b 3))
  | 0x26 => some (.emit m rd rs1 rs2 (w.extractLsb' 0 3))
  | 0x27 => some (.drop m (w.extractLsb' 0 8))
  | 0x28 => some (.mark m (w.extractLsb' 0 2))
  | 0x29 => some (.grnSeal m (b 0))
  | 0x2A => some (.move m rd rs1 rs2 (w.extractLsb' 0 3) (w.extractLsb' 3 3))
  | 0x2B => some (.acq m rd rs1 (b 0))
  | 0x2C => some (.rel m rs1)
  | 0x2D => some (.msg m rd rs1 rs2 (w.extractLsb' 0 8))
  | 0x2E => some (.waitc m rd rs1 (b 8) (w.extractLsb' 0 8))
  | 0x30 => match rs2.toNat with
    | 0 => some (.fence m)
    | 1 => some (.yield m)
    | 2 => some (.done m)
    | 3 => some (.trap m func)
    | 4 => some (.eret m)
    | 5 => some (.wfi m)
    | _ => none
  | 0x32 => match rs2.toNat with
    | 0 => some (.csrr m rd func)
    | 1 => some (.csrw m func rs1)
    | _ => none
  | 0x34 => match func.toNat with
    | 0 => some (.kload m rd rs1 rs2)
    | 1 => some (.kderive m rd rs1 rs2)
    | 2 => some (.kwrap m rd rs1 rs2)
    | 3 => some (.kdrop m rd rs1 rs2)
    | 4 => some (.lcstep m rd rs1 rs2)
    | _ => none
  | _ => none

/-- The decoder of grainer words: the fields as R135 to R166 lay them out; every field that must be zero is zero (the word is
exactly the encoding of what was read), and the rules of R138 hold. -/
def decodeGrn (m : Mach) (w : BitVec 32) : Option Instr :=
  match readGrn m w with
  | some i => if encodeGrn i = w ∧ grnLegal i = true then some i else none
  | none => none

end Sys2Proof
end

