-- ==== Sys2Proof/Config.lean ====
section
/-! DEFINITION. What the spec leaves to an implementation or does not state as a value, and the cryptographic functions of the
standards of R3: opaque constants, of which no proof can see a value. -/
namespace Sys2Proof.Config

/-- Free value number `n` (log entry 2): a number nothing constrains. -/
opaque free : Nat → Nat

/-- SHA-384 (FIPS 180-4) of bytes: 48 bytes. -/
opaque sha384 : List Byte → List Byte
/-- AES-256-GCM sealing (SP 800-38D): key, nonce, associated data, plaintext to ciphertext and 16-byte tag. -/
opaque gcmSeal : List Byte → List Byte → List Byte → List Byte → List Byte × List Byte
/-- AES-256-GCM opening: key, nonce, associated data, ciphertext, tag to plaintext when the tag is right. -/
opaque gcmOpen : List Byte → List Byte → List Byte → List Byte → List Byte → Option (List Byte)
/-- AES-256 of one 16-byte block (FIPS 197): key, block. -/
opaque aes : List Byte → List Byte → List Byte
/-- AES key wrap (SP 800-38F): wrapping key, key to wrapped bytes. -/
opaque kwWrap : List Byte → List Byte → List Byte
/-- AES key unwrap: wrapping key, wrapped bytes to the key when the check passes. -/
opaque kwUnwrap : List Byte → List Byte → Option (List Byte)
/-- The counter-mode KDF (SP 800-108): key, label, context to 32 bytes. -/
opaque kdf : List Byte → List Byte → List Byte → List Byte
/-- Hybrid signature check of R439: key name, message, signature. -/
opaque verify : Nat → List Byte → List Byte → Bool
/-- Hybrid signature under the device attestation keys: the message to the signature. -/
opaque sign : List Byte → List Byte
/-- Hybrid key encapsulation of R459: peer public keys, seed to secret and ciphertext. -/
opaque encaps : List Byte → Nat → List Byte × List Byte
/-- The opening of an encapsulation with the hub's own keys. -/
opaque decaps : List Byte → Option (List Byte)
/-- CTR_DRBG output (SP 800-90A): draw number and length. -/
opaque drbg : Nat → Nat → List Byte
/-- The level-0 node secret that PUF and OTP give in a life-cycle state (R436, R437). -/
opaque rootSecret : Nat → List Byte

/-- The hub's device identity (R458 STATUS): its attestation public keys, encapsulation key and Moalvo certificate. -/
opaque deviceId : List Byte
/-- DB_MIN_W of OTP: the sink contract, in watts, that the main rails need (R413). -/
opaque dbMinW : Nat
/-- The fixed labels of nodes 0 to 5 (R442): node 0's holds the OTP salt. -/
opaque bootLabel : Nat → List Byte
/-- Temperature grade of SYS_IDENT (R60): 0 IA, 1 CA. -/
opaque grade : Nat
/-- Contents of the AON ROM (R119). -/
opaque aonRom : Nat → Byte
/-- Vendor ID that Moalvo holds, from OTP (R321). -/
opaque vendorId : Nat
/-- Version of the AON ROM (R415). -/
opaque aonRomVersion : Nat
/-- The hub's own IEEE 802.1AS clock identity, derived from OTP (R243). -/
opaque clockId : Nat

end Sys2Proof.Config
end

