-- ==== Sys2Proof/Machine/Regs.lean ====
section
/-! DEFINITION. The register fields of the hub, one name per field, as the register tables of spec/ list them:
block, place, width, access code, reset value, reserved encodings, and whether a warm reset keeps the field. -/
namespace Sys2Proof.Machine

/-- The blocks of R50 and R54 that own registers; `hdr` stands for the header that every block instance begins with (R53). -/
inductive Blk where
  | hdr | sys | tmb | chn | grn | hrv | lnk | tun | sal | rak | eth | brg | pci | sig | can | dsp | cbl | key | gau | btn | slt | ddr | loc
  deriving DecidableEq, Repr

/-- The access codes of R7, and the joined code RWE+RWS of R8. -/
inductive Acc where
  | ro | rw | w1c | w1s | wo | rws | rwe | rwers | rl
  deriving DecidableEq, Repr

/-- One register field. `off` is the byte offset in its block; instance `n` adds `n * instStride`.
Index `i` adds `(i / n2) * s1` bytes and `(i % n2) * s2` bits. `lsb` and `width` place the field in its register,
which is `regBits` wide. -/
structure FieldInfo where
  blk : Blk
  off : Nat
  insts : Nat
  instStride : Nat
  n1 : Nat
  s1 : Nat
  n2 : Nat
  s2 : Nat
  lsb : Nat
  width : Nat
  regBits : Nat
  acc : Acc
  reset : Nat
  kept : Bool
  reserved : List (Nat × Nat)
  deriving DecidableEq, Repr

/-- Every register field, named REGISTER_FIELD as in the register tables. -/
inductive RegId where
  | BLK_ID_BLOCK
  | BLK_CTRL_LEVEL
  | BLK_CTRL_QUIESCE
  | BLK_STATUS_QUIESCED
  | BLK_STATUS_COMMIT_PENDING
  | BLK_STATUS_LEVEL_ACTIVE
  | BLK_STATUS_RESULT
  | BLK_STATUS_BUSY_REFUSED
  | BLK_COMMIT_COMMIT
  | BLK_COMMIT_ABANDON
  | BLK_COMMIT_COUNT_DONE_COUNT
  | BLK_COMMIT_COUNT_REJECT_COUNT
  | SYS_IDENT_PART
  | SYS_IDENT_REVISION
  | SYS_IDENT_GRADE
  | SYS_STATE_STATE
  | SYS_STATE_BOOT_FAIL
  | SYS_STATE_SAFE_CAUSE
  | SYS_STATE_LIFECYCLE
  | SYS_STATE_CHAIN_POS
  | SYS_PACE_PACE
  | SYS_PACE_PACE_FLOOR
  | SYS_PACE_MIN_PACE_MIN
  | SYS_PACE_MIN_CLEAR
  | SYS_POWER_SETPOINT
  | SYS_POWER_ACTIVE
  | SYS_POWER_TBAND
  | SYS_POWER_TRANSIT
  | SYS_POWER_HOLD_SETPOINT
  | SYS_POWER_PACE_RAISE
  | SYS_HOLD_CFG_UPSTREAM
  | SYS_HOLD_CFG_GRACE
  | SYS_HOLD_CFG_ENABLE
  | SYS_HOLD_STATUS_LOST
  | SYS_HOLD_STATUS_ENTER_COUNT
  | SYS_RESET_WARM
  | SYS_RESET_COLD
  | SYS_RESET_KEY
  | SYS_RESET_CAUSE_CAUSE
  | SYS_PACE_GUARD_BELOW_COUNT
  | SYS_PACE_GUARD_ESCALATE
  | TMB_MOMENT_MOMENT
  | TMB_CFG_REF_SRC
  | TMB_STATUS_REF_LOCK
  | TMB_STATUS_DISCIPLINED
  | TMB_STATUS_STEPPED
  | TMB_RATE_RATE_PPB
  | TMB_SYNC_OFFSET_OFFSET
  | CHN_CFG_ENABLE
  | CHN_CFG_LOC
  | CHN_CFG_HOST_CTRL
  | CHN_CFG_FAULT_LIMIT
  | CHN_AREA_BASE_BASE
  | CHN_HOST_BASE_BASE
  | CHN_GEN_ACTIVE_GEN
  | CHN_GEN_ACTIVE_NEXT
  | CHN_GEN_STAMP_MOMENT
  | CHN_STAGE_COUNT_COUNT
  | CHN_STAGE_FAULT_INDEX
  | CHN_STAGE_FAULT_CHECK
  | CHN_STAGE_FAULT_VALID
  | CHN_DRAIN_OLDEST_GEN
  | CHN_DRAIN_GENS_ALIVE
  | CHN_DRAIN_SHADOWS_IN_USE
  | CHN_DRAIN_UNITS_UNITS
  | CHN_CMD_CHANNEL
  | CHN_CMD_OP
  | CHN_CMD_STATUS_RESULT
  | CHN_CMD_STATUS_STATE
  | CHN_CMD_STATUS_CHANNEL
  | CHN_CACHE_HITS_HITS
  | CHN_CACHE_MISSES_MISSES
  | CHN_CACHE_PINNED_PINNED
  | CHN_FAULT_WINDOW_MS
  | CHN_CACHE_CFG_PIN_HOLD
  | GRN_CFG_DEFAULT_BUDGET
  | GRN_CFG_REQUIRE_SIG
  | GRN_WAIT_LIMIT_US
  | GRN_STATUS_ENGINES_ON
  | GRN_STATUS_THREADS_BUSY
  | GRN_DESC_DRAIN_UNITS
  | GRN_IMG_CMD_OP
  | GRN_IMG_CMD_SLOT
  | GRN_IMG_BASE_WORD
  | GRN_IMG_STATUS_RESULT
  | GRN_IMG_STATUS_SLOT
  | GRN_FAULT_COUNT_FAULTS
  | GRN_ECC_COUNT_CORRECTED
  | GRN_ECC_COUNT_UNCORRECTED
  | GRN_IMG_DIR_BASE
  | GRN_IMG_DIR_VALID
  | GRN_IMG_DIR_PROFILE
  | GRN_IMG_DIR_LENGTH
  | GRN_IMG_DIR_IMAGE_ID
  | GRN_IMG_DIR_REFS
  | GRN_RECIPE_BIND_SLOT
  | GRN_DESC_BASE
  | GRN_DESC_ENTRIES
  | GRN_DESC_KIND
  | GRN_DESC_KEY_WORDS
  | GRN_DESC_RESULT_WORDS
  | GRN_ENG_MASK_ENGINES
  | GRN_HOLD_MASK_ENGINES
  | GRN_DISPATCH_AGE_US
  | GRN_DISPATCH_THREADS
  | GRN_K_CLEAR_MODE
  | HRV_CFG_TIMEOUT_US
  | HRV_CFG_ORDERED_RESERVE
  | HRV_STATUS_SLOTS_USED
  | HRV_STATUS_ORDERED_USED
  | HRV_GAPS_GAPS
  | HRV_LATE_LATE
  | HRV_WAITS_WAITS
  | HRV_INST_MAX_MAX
  | LNK_CFG_ENABLE
  | LNK_CFG_RATES
  | LNK_CFG_PAIRMAP
  | LNK_CFG_PRECODE
  | LNK_CFG_REVERSIBLE
  | LNK_STATUS_UP
  | LNK_STATUS_RATE
  | LNK_STATUS_PAIRMAP_ACTIVE
  | LNK_STATUS_LANE_TX
  | LNK_STATUS_LANE_OK
  | LNK_STATUS_PRECODE_TX
  | LNK_STATUS_PRECODE_RX
  | LNK_STATUS_DEGRADED
  | LNK_STATUS_REV_READY
  | LNK_STATUS_LANE_CHANGE
  | LNK_LANE_STATE_STATE
  | LNK_LANE_STATE_POWER
  | LNK_CWC_TX_CWC
  | LNK_CWC_RX_CWC
  | LNK_FEC_CORR_SYMBOLS
  | LNK_FEC_UNCORR_CODEWORDS
  | LNK_REPLAY_REPLAYS
  | LNK_REPLAY_TIMEOUTS
  | LNK_REPLAY_FILL_BYTES
  | LNK_REPLAY_LOST_PARCELS
  | LNK_TRAINS_FULL
  | LNK_TRAINS_PARTIAL
  | LNK_PWR_HALF_US
  | LNK_PWR_DEEP_MS
  | LNK_PWR_ALLOW
  | LNK_GATED_WINDOWS
  | LNK_EYE_CTRL_LANE
  | LNK_EYE_CTRL_EYE
  | LNK_EYE_CTRL_DWELL
  | LNK_EYE_CTRL_START
  | LNK_EYE_CTRL_BUSY
  | LNK_EYE_RESULT_HEIGHT_MV
  | LNK_EYE_RESULT_WIDTH
  | LNK_EYE_RESULT_VALID
  | LNK_EYE_MON_HEIGHT
  | LNK_ADAPT_GATE_LO
  | LNK_ADAPT_GATE_HI
  | LNK_THRESH_EYE_MIN_MV
  | LNK_THRESH_TRAIN_MS
  | LNK_THRESH_ACK_TIMEOUT_US
  | LNK_THRESH_REPLAY_LIMIT
  | LNK_RAW_MODE
  | LNK_SLIP_LANE
  | LNK_RAW_LANE_TX_PAT
  | LNK_RAW_LANE_RX_PAT
  | LNK_RAW_LANE_DIR
  | LNK_RAW_LANE_NRZ
  | LNK_PRBS_ERR_ERRORS
  | LNK_PRBS_ERR_LOCKED
  | LNK_TXEQ_CM2
  | LNK_TXEQ_CM1
  | LNK_TXEQ_C0
  | LNK_TXEQ_CP1
  | TUN_CFG_LEAD
  | TUN_CFG_AUTO_RESUME
  | TUN_CFG_CHAIN_ROOT
  | TUN_CFG_EST_RETRY_MS
  | TUN_STATUS_PEER_OK
  | TUN_STATUS_HOLD_WAIT
  | TUN_EPOCH_EPOCH
  | TUN_REPORT_BASE_BASE
  | TUN_REPORT_CFG_LOG2_RECORDS
  | TUN_REPORT_HEAD_HEAD
  | TUN_REPORT_TAIL_TAIL
  | TUN_CMD_PORT
  | TUN_CMD_OP
  | TUN_CMD_END
  | TUN_CMD_ALL
  | TUN_CMD_GEN_SEEN
  | TUN_CONFIRM_BASE_BASE
  | TUN_CONFIRM_COUNT_COUNT
  | TUN_CMD_STATUS_RESULT
  | TUN_PORT_STATUS_PEER_POS
  | TUN_PORT_STATUS_PEER_VALID
  | TUN_PORT_STATUS_PEER_HOLD
  | TUN_PORT_STATUS_OVER
  | TUN_PORT_STATUS_ALLOT_VER
  | TUN_PORT_STATUS_ALLOT_PENDING
  | TUN_SHARE_SHARE
  | TUN_RESV_TX_TOTAL
  | TUN_RESV_TX_LIMIT
  | TUN_RESV_RX_TOTAL
  | TUN_RESV_RX_NEXT
  | TUN_SWITCH_EPOCH_EPOCH
  | TUN_RSV_EXCESS_PARCELS
  | TUN_TAG_FAIL_UNITS
  | TUN_EST_NAKS
  | TUN_PEER_BOOT_BOOT_ID
  | TUN_TIMERS_ALLOT_TIMEOUT_US
  | TUN_TIMERS_HELLO_MS
  | TUN_RSV_SLACK_BYTES
  | TUN_RSV_SLACK_FLAKES
  | TUN_SEAL_CFG_IVC_CHECK
  | TMB_SERVO_KP_SHIFT
  | TMB_SERVO_KI_SHIFT
  | TMB_SERVO_LOCK_TICKS
  | TMB_SYNC_CFG_LOG_SYNC
  | TMB_SYNC_CFG_LOG_PDELAY
  | TMB_SYNC_CFG_PRIORITY1
  | TMB_SYNC_CFG_PRIORITY2
  | TMB_ASYM_ASYM_PS
  | TMB_ASYM_FIX_FIX_PS
  | TMB_SYNC_ERR_ERR_TICKS
  | TMB_SYNC_ERR_SLAVE
  | TMB_GM_ID_ID
  | TMB_OFFSET_LAST_OFFSET
  | SAL_CFG_LAGOON_EN
  | SAL_CFG_CT_ENABLE
  | SAL_LAGOON_BASE_BASE
  | SAL_LAGOON_SIZE_MIB
  | SAL_STATUS_PAN_FREE
  | SAL_STATUS_PANS_ONLINE
  | SAL_STATUS_LAGOON_BUSY
  | SAL_LAGOON_USE_FLAKES
  | SAL_BERTH_STATE_STATE
  | SAL_BERTH_CMD_BERTH
  | SAL_BERTH_CMD_OP
  | SAL_BERTH_CMD_STATUS_RESULT
  | SAL_LATE_MARK_MARKS
  | SAL_UNDERRUN_UNITS
  | SAL_LOST_UNITS
  | SAL_QPTR_MISMATCHES
  | SAL_ECC_CORRECTED
  | SAL_ECC_UNCORRECTED
  | SAL_PARITY_ERRORS
  | SAL_BERTH_DROP_UNITS
  | SAL_MCT_BERTH
  | SAL_MCT_QSLOT
  | SAL_MCT_VALID
  | SAL_MCT_DROPS_REFUSED
  | SAL_QCFG_BERTH
  | SAL_QCFG_PORT
  | SAL_QCFG_TC
  | SAL_QCFG_ENABLE
  | SAL_QCFG_SAF
  | SAL_QCFG_LIMIT
  | SAL_QCFG_PAN_LIMIT
  | SAL_QCFG_FLUSH
  | SAL_QSTAT_PAN_FLAKES
  | SAL_QSTAT_LAGOON_FLAKES
  | SAL_QSTAT_UNITS_OUT
  | SAL_QSTAT_DROPS
  | SAL_PAN_CFG_RESERVED_FLAKES
  | SAL_LAGOON_CFG_RATE_GBPS
  | SAL_LAGOON_CFG_REFILL
  | SAL_CT_START_FLAKES
  | SAL_CT_LOST_US
  | SAL_SPREAD_MODE
  | ETH_CFG_ENABLE
  | ETH_CFG_MODE
  | ETH_CFG_FEC
  | ETH_CFG_AN
  | ETH_CFG_MAX_FRAME
  | ETH_STATUS_LINK
  | ETH_STATUS_SPEED
  | ETH_STATUS_FEC_LOCK
  | ETH_STATUS_AN_DONE
  | ETH_STATUS_LOCAL_FAULT
  | ETH_STATUS_REMOTE_FAULT
  | ETH_STATUS_LINK_DOWNS
  | ETH_RX_CLASS_DESC
  | ETH_RX_CLASS_DEFAULT
  | ETH_PTP_ENABLE
  | ETH_PTP_TC
  | ETH_PTP_ASYM_ASYM_PS
  | ETH_SLU_CFG_GATE_EN
  | ETH_SLU_CFG_LIST_LEN
  | ETH_SLU_CYCLE_CYCLE_NS
  | ETH_SLU_EXT_EXT_NS
  | ETH_SLU_BASE_BASE
  | ETH_SLU_STATUS_GATES
  | ETH_SLU_STATUS_OPER_EN
  | ETH_SLU_STATUS_CHANGE_PENDING
  | ETH_SLU_STATUS_ENTRY
  | ETH_SLU_CHANGE_TIME
  | ETH_SLU_OPER_BASE_BASE
  | ETH_SLU_OPER_CYCLE_CYCLE_NS
  | ETH_RX_FRAMES_FRAMES
  | ETH_TX_FRAMES_FRAMES
  | ETH_RX_FCS_FRAMES
  | ETH_RX_RUNT_FRAMES
  | ETH_RX_LONG_FRAMES
  | ETH_RX_MACCTL_FRAMES
  | ETH_TX_BAD_FRAMES
  | ETH_TX_OVERSIZE_UNITS
  | ETH_TC_IDLE_SLOPE_KBPS
  | ETH_TC_BURST
  | ETH_TC_CBS_EN
  | ETH_TC_RESET_TO
  | ETH_TC_MAX_SDU
  | ETH_TC_CREDIT
  | ETH_SLU_LIST_GATES
  | ETH_SLU_LIST_INTERVAL_NS
  | ETH_SLU_OPER_ENTRY
  | ETH_SERDES_TX_PRE
  | ETH_SERDES_TX_POST
  | ETH_SERDES_TX_INVERT
  | ETH_SERDES_RX_INVERT
  | ETH_GUARD_MARGIN_NS
  | ETH_PTP_LAT_TX_LAT
  | ETH_PTP_LAT_RX_LAT
  | RAK_METER_TYPE
  | RAK_METER_ALG
  | RAK_METER_RESET_TO
  | RAK_METER_SLOT
  | RAK_METER_CIR_KBPS
  | RAK_METER_PIR_KBPS
  | RAK_METER_CBS
  | RAK_METER_PBS
  | RAK_METER_OLD_REFS
  | RAK_METER_TOKENS_C
  | RAK_METER_TOKENS_P
  | RAK_METER_STAT_GREEN
  | RAK_METER_STAT_YELLOW
  | RAK_METER_STAT_RED
  | RAK_STREAM_BLOCK_EN
  | RAK_STREAM_BLOCKED
  | RAK_STREAM_MATCHED
  | RAK_STREAM_OVERSIZE
  | RAK_STREAM_RED
  | SPI_CFG_ENABLE
  | SPI_CFG_MODE
  | SPI_CFG_LSB_FIRST
  | SPI_CFG_DIV
  | SPI_CFG_CS_POL
  | SPI_CFG_CS_GAP
  | SPI_FILL_BYTE
  | SPI_STATUS_BUSY
  | SPI_STATUS_TRANSFERS
  | I2C_CFG_ENABLE
  | I2C_CFG_SPEED
  | I2C_CFG_REG16
  | I2C_CFG_STRETCH_MS
  | I2C_STATUS_BUSY
  | I2C_STATUS_LAST_ERR
  | I2C_STATUS_ERRORS
  | UART_CFG_ENABLE
  | UART_CFG_PARITY
  | UART_CFG_ODD
  | UART_CFG_STOP2
  | UART_CFG_DATA7
  | UART_CFG_DIV
  | UART_STATUS_RX_LEVEL
  | UART_STATUS_TX_FREE
  | UART_ERRORS_PARITY
  | UART_ERRORS_FRAMING
  | UART_ERRORS_OVERRUN
  | BRG_CFG_BOND
  | BRG_CFG_EMU_WAIT_US
  | BRG_PWERR_STATUS_COUNT
  | BRG_PWERR_STATUS_OVERFLOW
  | BRG_PWERR_ENTRY_ADDRESS
  | BRG_PWERR_ENTRY_SOURCE
  | BRG_PWERR_ENTRY_CAUSE
  | BRG_PWERR_ENTRY_CHANNEL
  | BRG_PWERR_ENTRY_MOMENT_LO
  | BRG_PWERR_VEC_VECTOR
  | BRG_PWERR_VEC_CTRL
  | BRG_PWERR_VEC_EN
  | BRG_DISCARD_STATUS_NEXT
  | BRG_DISCARD_STATUS_COUNT
  | BRG_MSG_REFUSED_MESSAGES
  | BRG_VEC_MAP_VECTOR
  | BRG_VEC_MAP_CTRL
  | BRG_VEC_MAP_EN
  | BRG_REGION_BASE
  | BRG_REGION_SIZE
  | BRG_REGION_KIND
  | BRG_REGION_CTRL
  | BRG_REGION_TARGET
  | BRG_REGION_READ
  | BRG_REGION_WRITE
  | BRG_REGION_PREFETCH
  | BRG_REGION_ATOMIC
  | BRG_REGION_SEM
  | BRG_REGION_PF_LOG2
  | BRG_REGION_OLD_REFS
  | BRG_DISCARD_ADDRESS
  | BRG_DISCARD_REGION
  | BRG_DISCARD_MOMENT_LO
  | BRG_DISCARD_LENGTH
  | BRG_SEM_BASE
  | BRG_SEM_SIZE
  | BRG_SEM_LEASE_US
  | BRG_SEM_HELD
  | BRG_SEM_TAINTED
  | BRG_SEM_OWNER
  | MOV_RING_BASE_BASE
  | MOV_RING_CFG_LOG2
  | MOV_HEAD_HEAD
  | MOV_TAIL_TAIL
  | MOV_STATE_STATE
  | MOV_CMD_RESTART
  | MOV_BYTES_BYTES
  | PCI_CFG_ENABLE
  | PCI_CFG_ROLE
  | PCI_CFG_MAX_RATE
  | PCI_STATUS_LINK_UP
  | PCI_STATUS_RATE
  | PCI_STATUS_WIDTH
  | PCI_STATUS_TAG10
  | PCI_STATUS_LINK_DOWNS
  | PCI_BAR4_LOG2_SIZE
  | PCI_BAR4_OFFSET
  | PCI_RX_CLASS_DESC
  | PCI_RX_CLASS_DEFAULT
  | PCI_TAGS_IN_USE
  | PCI_TAGS_WAITS
  | PCI_CPL_TIMEOUTS_COUNT
  | PCI_LATE_CPL_COUNT
  | PCI_UR_SENT_COUNT
  | PCI_CREDITS_PH
  | PCI_CREDITS_NPH
  | PCI_CREDITS_PD
  | PCI_NPD_NPD
  | PCI_MPS_MPS
  | PCI_MPS_MRRS
  | SIG_CFG_ENABLE
  | SIG_MAP_BASE_BASE
  | SIG_MAP_CFG_COUNT
  | SIG_STORE_BASE_BASE
  | SIG_STORE_CFG_SLOTS
  | SIG_STATUS_CYCLIC
  | SIG_UPDATES_WRITES
  | SIG_SENDS_UNITS
  | SIG_REFUSED_UNITS
  | SIG_SHORT_FIELDS
  | SIG_NAN_FIELDS
  | SIG_GPIO_BOUNCE_EDGES
  | SIG_GPIO_LOST_EDGES
  | SIG_GPIO_LINE_CHANNEL
  | SIG_GPIO_LINE_RISE
  | SIG_GPIO_LINE_FALL
  | SIG_GPIO_LINE_DEBOUNCE_US
  | SIG_POLICY_CHANGE_ON_QUAL
  | SIG_POLICY_NAN_SKIP
  | CAN_CFG_ENABLE
  | CAN_CFG_FD
  | CAN_CFG_LISTEN
  | CAN_CFG_AUTO_RECOVER
  | CAN_CFG_TX_TIMEOUT_MS
  | CAN_NBT_BRP
  | CAN_NBT_TSEG1
  | CAN_NBT_TSEG2
  | CAN_NBT_SJW
  | CAN_DBT_DBRP
  | CAN_DBT_DTSEG1
  | CAN_DBT_DTSEG2
  | CAN_DBT_DSJW
  | CAN_STATUS_STATE
  | CAN_STATUS_TEC
  | CAN_STATUS_REC
  | CAN_STATUS_LEC
  | CAN_CMD_RESTART
  | CAN_RX_FRAMES_FRAMES
  | CAN_TX_FRAMES_FRAMES
  | CAN_RX_UNMATCHED_FRAMES
  | CAN_RX_REMOTE_FRAMES
  | CAN_TX_DROP_UNITS
  | CAN_ERRORS_COUNT
  | CAN_FILTER_ID
  | CAN_FILTER_IDE
  | CAN_FILTER_MATCH_IDE
  | CAN_FILTER_VALID
  | CAN_FILTER_MASK
  | CAN_FILTER_CHANNEL
  | CAN_FILTER_HITS
  | CAN_TDC_TDCO
  | CAN_TDC_TDC_EN
  | CAN_TXBUF_BUFFERS
  | DSP_CFG_LEASE_MODE
  | DSP_CFG_LOCK01
  | DSP_CFG_LOCK23
  | DSP_FS_BASE_BASE
  | DSP_FS_SIZE_MIB
  | DSP_FETCH_USE_FETCH
  | DSP_LEASE_VIOL_WRITES
  | DSP_LEASE_WAITS_WRITES
  | DSP_TILE_BAD_TILES
  | DSP_TILE_CLIP_TILES
  | DSP_MSG_REFUSED_MESSAGES
  | DSP_HCTRL_ENABLE
  | DSP_HCTRL_MUTE
  | DSP_HCTRL_COMMIT
  | DSP_HCTRL_ABANDON
  | DSP_HSTATUS_RESULT
  | DSP_HSTATUS_CAUSE
  | DSP_HSTATUS_PENDING
  | DSP_HSTATUS_PSR_ACTIVE
  | DSP_HSTATUS_LOCKED
  | DSP_HSTATUS_SEQ
  | DSP_PCLK_KHZ
  | DSP_ACTIVE_HACTIVE
  | DSP_ACTIVE_VACTIVE
  | DSP_HBLANK_HFP
  | DSP_HBLANK_HSYNC
  | DSP_HBLANK_HBP
  | DSP_VBLANK_VFP
  | DSP_VBLANK_VSYNC
  | DSP_VBLANK_VBP
  | DSP_VBLANK_HPOL
  | DSP_VBLANK_VPOL
  | DSP_OUT_MODE
  | DSP_OUT_BPC10
  | DSP_OUT_ROUTE
  | DSP_OUT_PSR_EN
  | DSP_OUT_PSR_FRAMES
  | DSP_BG_RGB
  | DSP_LINK_STATUS_UP
  | DSP_LINK_STATUS_RATE
  | DSP_LINK_STATUS_LANES
  | DSP_LINK_STATUS_PLL_LOCK
  | DSP_UNDERRUN_COUNT_LINES
  | DSP_FRAME_COUNT_FRAMES
  | DSP_FENCE_SEQ
  | DSP_FENCE_ADDR_ADDR
  | DSP_LAYER_ENABLE
  | DSP_LAYER_FORMAT
  | DSP_LAYER_GALPHA
  | DSP_LAYER_FB
  | DSP_LAYER_STRIDE
  | DSP_LAYER_WIDTH
  | DSP_LAYER_HEIGHT
  | DSP_LAYER_X
  | DSP_LAYER_Y
  | DSP_PAL_ARGB
  | DSP_FETCH_BUDGET_BUDGET
  | DSP_LINK_CFG_RATE
  | DSP_LINK_CFG_LANES
  | DSP_LINK_CFG_TX_SETTING
  | CBL_IMG_STATUS_SLOT
  | CBL_IMG_STATUS_TRIAL
  | CBL_IMG_STATUS_ROM
  | CBL_IMG_STATUS_SVN
  | CBL_IMG_CMD_OP
  | CBL_SRC_POOL_WATTS
  | CBL_SRC_USE_WATTS
  | CBL_PORT_CFG_ROLE
  | CBL_PORT_CFG_TRY
  | CBL_PORT_CFG_RP
  | CBL_PORT_CFG_MUX_POLICY
  | CBL_PORT_CFG_AVRATH_EN
  | CBL_PORT_CFG_DP_EN
  | CBL_PORT_CFG_SPLIT_EN
  | CBL_PORT_CFG_EPR_EN
  | CBL_PORT_CFG_CABLE_CHECK
  | CBL_PORT_CFG_ACCEPT_PR
  | CBL_PORT_CFG_ACCEPT_DR
  | CBL_PORT_CFG_ACCEPT_VCONN
  | CBL_PORT_CFG_VCONN_EN
  | CBL_PORT_CFG_DP_FIRST
  | CBL_PORT_STATUS_ATTACHED
  | CBL_PORT_STATUS_ORIENT
  | CBL_PORT_STATUS_POWER_ROLE
  | CBL_PORT_STATUS_DATA_ROLE
  | CBL_PORT_STATUS_VCONN_ON
  | CBL_PORT_STATUS_CONTRACT
  | CBL_PORT_STATUS_EPR
  | CBL_PORT_STATUS_DEAD_BATTERY
  | CBL_PORT_STATUS_MODE
  | CBL_PORT_STATUS_PIN
  | CBL_PORT_STATUS_CABLE
  | CBL_PORT_STATUS_CABLE_SPEED
  | CBL_PORT_STATUS_CABLE_5A
  | CBL_PORT_STATUS_CABLE_EPR
  | CBL_CONTRACT_MV
  | CBL_CONTRACT_MA
  | CBL_VBUS_MV
  | CBL_VBUS_MA
  | CBL_CEILING_SRC_MV
  | CBL_CEILING_SRC_MA
  | CBL_CEILING_SNK_MV
  | CBL_CEILING_SNK_MA
  | CBL_CMD_OP
  | CBL_CMD_PIN
  | CBL_CMD_DP_SRC
  | CBL_CMD_SPLIT
  | CBL_CMD_STATUS_RESULT
  | CBL_CMD_STATUS_OP
  | CBL_MUX_STATE
  | CBL_COUNTS_HARD_RESETS
  | CBL_COUNTS_SWAPS
  | CBL_COUNTS_TRIPS
  | CBL_SRC_PDO_PDO
  | CBL_SNK_PDO_PDO
  | CBL_SWAP_CFG_RETRY_MIN_MS
  | CBL_SWAP_CFG_RETRY_MAX_MS
  | CBL_SWAP_CFG_RETRIES
  | KEY_STATUS_LIFECYCLE
  | KEY_STATUS_APPROVED
  | KEY_STATUS_ERROR
  | KEY_STATUS_ENTROPY_OK
  | KEY_STATUS_OWNER_SET
  | KEY_STATUS_ZEROISED
  | KEY_STATUS_CEILINGS_LOCKED
  | KEY_STATUS_LEDGER_LEFT
  | KEY_CALL_ADDRESS
  | KEY_CALL_STATUS_PENDING
  | KEY_CALL_STATUS_FULL
  | KEY_CALL_STATUS_DONE_COUNT
  | KEY_NONCE_NONCE
  | KEY_ANCHOR_VERSION
  | KEY_VAULT_USE_SLOTS
  | KEY_ORPHANS_SLOTS
  | KEY_DEVICE_ID_ID
  | KEY_SVN_FLOOR_SVN
  | KEY_SLOT_INFO_NODE
  | KEY_SLOT_INFO_DEPTH
  | KEY_SLOT_INFO_FULL
  | KEY_SLOT_INFO_POOL
  | KEY_SLOT_INFO_DOOMED
  | KEY_SLOT_INFO_EPOCH
  | KEY_SLOT_INFO_KCV
  | GAU_CMD_GAUGE
  | GAU_CMD_OP
  | GAU_CMD_ALL
  | GAU_CFG_SOURCE
  | GAU_CFG_LOG2
  | GAU_CFG_ALL_CH
  | GAU_CFG_HIGH_EN
  | GAU_CFG_PERIOD_US
  | GAU_CFG_CHANNEL
  | GAU_SEL_LOW
  | GAU_SEL_POINT_B
  | GAU_SEL_B_ANY
  | GAU_BASE_BASE
  | GAU_WIDTH_WIDTH
  | GAU_HIGH_HIGH
  | GAU_MIN_VALUE
  | GAU_MAX_VALUE
  | GAU_COUNT_COUNT
  | GAU_SUM_SUM
  | GAU_SNAP_MOMENT_MOMENT
  | GAU_BIN_COUNT
  | BTN_RING_BASE_BASE
  | BTN_RING_CFG_ENABLE
  | BTN_RING_CFG_MODE
  | BTN_RING_CFG_LOG2_SIZE
  | BTN_RING_CFG_IRQ_SEV
  | BTN_HEAD_HEAD
  | BTN_TAIL_TAIL
  | BTN_STATUS_STAGED
  | BTN_STATUS_OVERFLOW
  | BTN_STATUS_WRAPPED
  | BTN_LOST_RECORDS
  | BTN_SUPPRESSED_RECORDS
  | BTN_WATERMARK_RECORDS
  | BTN_MSG_REFUSED_MESSAGES
  | TRC_RING_BASE_BASE
  | TRC_CFG_ENABLE
  | TRC_CFG_MODE
  | TRC_CFG_LOG2_SIZE
  | TRC_CFG_MARKED
  | TRC_CFG_RANGE
  | TRC_POINTS_CLASSES
  | TRC_CH_LO_CHANNEL
  | TRC_CH_HI_CHANNEL
  | TRC_HEAD_HEAD
  | TRC_TAIL_TAIL
  | TRC_LOST_RECORDS
  | BTN_POP_WORD
  | SLT_SCHED_INTERVAL_S
  | SLT_SCHED_RETRY_MS
  | SLT_KINDS_ENABLE
  | SLT_STATUS_RUNNING
  | SLT_STATUS_KIND
  | SLT_STATUS_TARGET
  | SLT_STATUS_SLICES
  | SLT_ABORTS_COUNT
  | SLT_FORCED_COUNT
  | SLT_FAILS_COUNT
  | SLT_KIND_STATUS_DONE
  | SLT_KIND_STATUS_FAILED
  | SLT_KIND_CYCLE_MOMENT
  | SYS_BOOT_INFO_EPMAS_SLOT
  | SYS_BOOT_INFO_FW_SLOT
  | SYS_BOOT_INFO_FALLBACK
  | SYS_BOOT_INFO_REF_FAULT
  | SYS_BOOT_INFO_DDR_FAULT
  | SYS_BOOT_INFO_RAIL_FAULT
  | SYS_BOOT_INFO_BOARD_OK
  | SYS_BOOT_INFO_FLASH_8D
  | SYS_BOOT_INFO_BOOT_MS
  | SYS_BLK_RESET_BLOCK
  | SYS_BLK_RESET_KEY
  | SYS_STANDBY_ENTER
  | SYS_STANDBY_KEY
  | GPIO_DIR_OUT
  | GPIO_OUT_LEVEL
  | GPIO_IN_LEVEL
  | GPIO_SAFE_EN_EN
  | GPIO_SAFE_LEVEL_LEVEL
  | XSPI_ADDR_ADDR
  | XSPI_BUF_ADDR
  | XSPI_CMD_OP
  | XSPI_CMD_LENGTH
  | XSPI_STATUS_RESULT
  | XSPI_STATUS_BUSY
  | DDR_CFG_RATE
  | DDR_STATUS_TRAINED
  | DDR_STATUS_GIB
  | DDR_STATUS_RATE_ACTIVE
  | DDR_ECC_CORRECTED
  | DDR_ECC_UNCORRECTED
  | DDR_BW_GBPS
  | DDR_CAL_DRIFT_PCT
  | DDR_CAL_PERIOD_MS
  deriving DecidableEq, Repr

/-- Where a field stands and what its register table says of it. -/
def RegId.info : RegId → FieldInfo
  -- R53
  | .BLK_ID_BLOCK => ⟨.hdr, 0x0, 1, 0x0, 1, 0x0, 1, 0, 0, 8, 32, .ro, 0, true, []⟩
  | .BLK_CTRL_LEVEL => ⟨.hdr, 0x4, 1, 0x0, 1, 0x0, 1, 0, 0, 1, 32, .rws, 0, true, []⟩
  | .BLK_CTRL_QUIESCE => ⟨.hdr, 0x4, 1, 0x0, 1, 0x0, 1, 0, 1, 1, 32, .rw, 0, true, []⟩
  | .BLK_STATUS_QUIESCED => ⟨.hdr, 0x8, 1, 0x0, 1, 0x0, 1, 0, 0, 1, 32, .ro, 0, true, []⟩
  | .BLK_STATUS_COMMIT_PENDING => ⟨.hdr, 0x8, 1, 0x0, 1, 0x0, 1, 0, 1, 1, 32, .ro, 0, true, []⟩
  | .BLK_STATUS_LEVEL_ACTIVE => ⟨.hdr, 0x8, 1, 0x0, 1, 0x0, 1, 0, 2, 1, 32, .ro, 0, true, []⟩
  | .BLK_STATUS_RESULT => ⟨.hdr, 0x8, 1, 0x0, 1, 0x0, 1, 0, 4, 4, 32, .ro, 0, true, [(4, 15)]⟩
  | .BLK_STATUS_BUSY_REFUSED => ⟨.hdr, 0x8, 1, 0x0, 1, 0x0, 1, 0, 8, 1, 32, .w1c, 0, true, []⟩
  | .BLK_COMMIT_COMMIT => ⟨.hdr, 0xC, 1, 0x0, 1, 0x0, 1, 0, 0, 1, 32, .wo, 0, true, []⟩
  | .BLK_COMMIT_ABANDON => ⟨.hdr, 0xC, 1, 0x0, 1, 0x0, 1, 0, 1, 1, 32, .wo, 0, true, []⟩
  | .BLK_COMMIT_COUNT_DONE_COUNT => ⟨.hdr, 0x10, 1, 0x0, 1, 0x0, 1, 0, 0, 16, 32, .ro, 0, true, []⟩
  | .BLK_COMMIT_COUNT_REJECT_COUNT => ⟨.hdr, 0x10, 1, 0x0, 1, 0x0, 1, 0, 16, 16, 32, .ro, 0, true, []⟩
  -- R60
  | .SYS_IDENT_PART => ⟨.sys, 0x100, 1, 0x0, 1, 0x0, 1, 0, 0, 16, 32, .ro, 0x7232, false, []⟩
  | .SYS_IDENT_REVISION => ⟨.sys, 0x100, 1, 0x0, 1, 0x0, 1, 0, 16, 8, 32, .ro, 0xB0, false, []⟩
  | .SYS_IDENT_GRADE => ⟨.sys, 0x100, 1, 0x0, 1, 0x0, 1, 0, 24, 2, 32, .ro, 0, false, [(2, 3)]⟩
  | .SYS_STATE_STATE => ⟨.sys, 0x108, 1, 0x0, 1, 0x0, 1, 0, 0, 3, 32, .ro, 1, false, [(0, 0), (7, 7)]⟩
  | .SYS_STATE_BOOT_FAIL => ⟨.sys, 0x108, 1, 0x0, 1, 0x0, 1, 0, 4, 1, 32, .ro, 0, false, []⟩
  | .SYS_STATE_SAFE_CAUSE => ⟨.sys, 0x108, 1, 0x0, 1, 0x0, 1, 0, 8, 4, 32, .ro, 0, false, [(4, 15)]⟩
  | .SYS_STATE_LIFECYCLE => ⟨.sys, 0x108, 1, 0x0, 1, 0x0, 1, 0, 16, 3, 32, .ro, 0, false, []⟩
  | .SYS_STATE_CHAIN_POS => ⟨.sys, 0x108, 1, 0x0, 1, 0x0, 1, 0, 24, 3, 32, .ro, 0, false, []⟩
  | .SYS_PACE_PACE => ⟨.sys, 0x110, 1, 0x0, 1, 0x0, 1, 0, 0, 16, 32, .ro, 0, false, []⟩
  | .SYS_PACE_PACE_FLOOR => ⟨.sys, 0x110, 1, 0x0, 1, 0x0, 1, 0, 16, 16, 32, .ro, 0, false, []⟩
  | .SYS_PACE_MIN_PACE_MIN => ⟨.sys, 0x114, 1, 0x0, 1, 0x0, 1, 0, 0, 16, 32, .ro, 0xFFFF, false, []⟩
  | .SYS_PACE_MIN_CLEAR => ⟨.sys, 0x114, 1, 0x0, 1, 0x0, 1, 0, 16, 16, 32, .wo, 0, false, []⟩
  | .SYS_POWER_SETPOINT => ⟨.sys, 0x118, 1, 0x0, 1, 0x0, 1, 0, 0, 2, 32, .rw, 2, false, []⟩
  | .SYS_POWER_ACTIVE => ⟨.sys, 0x118, 1, 0x0, 1, 0x0, 1, 0, 4, 2, 32, .ro, 2, false, []⟩
  | .SYS_POWER_TBAND => ⟨.sys, 0x118, 1, 0x0, 1, 0x0, 1, 0, 8, 3, 32, .ro, 0, false, [(4, 7)]⟩
  | .SYS_POWER_TRANSIT => ⟨.sys, 0x118, 1, 0x0, 1, 0x0, 1, 0, 12, 1, 32, .ro, 0, false, []⟩
  | .SYS_POWER_HOLD_SETPOINT => ⟨.sys, 0x118, 1, 0x0, 1, 0x0, 1, 0, 16, 2, 32, .rw, 3, true, []⟩
  | .SYS_POWER_PACE_RAISE => ⟨.sys, 0x118, 1, 0x0, 1, 0x0, 1, 0, 20, 2, 32, .ro, 0, true, []⟩
  | .SYS_HOLD_CFG_UPSTREAM => ⟨.sys, 0x120, 1, 0x0, 1, 0x0, 1, 0, 0, 6, 32, .rw, 1, true, []⟩
  | .SYS_HOLD_CFG_GRACE => ⟨.sys, 0x120, 1, 0x0, 1, 0x0, 1, 0, 8, 8, 32, .rw, 2, true, []⟩
  | .SYS_HOLD_CFG_ENABLE => ⟨.sys, 0x120, 1, 0x0, 1, 0x0, 1, 0, 16, 1, 32, .rw, 1, true, []⟩
  | .SYS_HOLD_STATUS_LOST => ⟨.sys, 0x124, 1, 0x0, 1, 0x0, 1, 0, 0, 6, 32, .ro, 0, false, []⟩
  | .SYS_HOLD_STATUS_ENTER_COUNT => ⟨.sys, 0x124, 1, 0x0, 1, 0x0, 1, 0, 16, 16, 32, .ro, 0, true, []⟩
  | .SYS_RESET_WARM => ⟨.sys, 0x130, 1, 0x0, 1, 0x0, 1, 0, 0, 1, 32, .wo, 0, false, []⟩
  | .SYS_RESET_COLD => ⟨.sys, 0x130, 1, 0x0, 1, 0x0, 1, 0, 1, 1, 32, .wo, 0, false, []⟩
  | .SYS_RESET_KEY => ⟨.sys, 0x130, 1, 0x0, 1, 0x0, 1, 0, 16, 16, 32, .wo, 0, false, []⟩
  | .SYS_RESET_CAUSE_CAUSE => ⟨.sys, 0x134, 1, 0x0, 1, 0x0, 1, 0, 0, 4, 32, .ro, 1, false, [(0, 0), (6, 15)]⟩
  -- R61
  | .SYS_PACE_GUARD_BELOW_COUNT => ⟨.sys, 0x200, 1, 0x0, 1, 0x0, 1, 0, 0, 8, 32, .rwe, 0x10, false, [(0, 0)]⟩
  | .SYS_PACE_GUARD_ESCALATE => ⟨.sys, 0x200, 1, 0x0, 1, 0x0, 1, 0, 8, 1, 32, .rwe, 1, false, []⟩
  -- R62
  | .TMB_MOMENT_MOMENT => ⟨.tmb, 0x100, 1, 0x0, 1, 0x0, 1, 0, 0, 64, 64, .ro, 0, false, []⟩
  | .TMB_CFG_REF_SRC => ⟨.tmb, 0x108, 1, 0x0, 1, 0x0, 1, 0, 0, 2, 32, .rw, 0, false, [(2, 3)]⟩
  | .TMB_STATUS_REF_LOCK => ⟨.tmb, 0x10C, 1, 0x0, 1, 0x0, 1, 0, 0, 1, 32, .ro, 0, false, []⟩
  | .TMB_STATUS_DISCIPLINED => ⟨.tmb, 0x10C, 1, 0x0, 1, 0x0, 1, 0, 1, 1, 32, .ro, 0, false, []⟩
  | .TMB_STATUS_STEPPED => ⟨.tmb, 0x10C, 1, 0x0, 1, 0x0, 1, 0, 2, 1, 32, .w1c, 0, false, []⟩
  | .TMB_RATE_RATE_PPB => ⟨.tmb, 0x110, 1, 0x0, 1, 0x0, 1, 0, 0, 32, 32, .ro, 0, false, []⟩
  | .TMB_SYNC_OFFSET_OFFSET => ⟨.tmb, 0x118, 1, 0x0, 1, 0x0, 1, 0, 0, 64, 64, .ro, 0, false, []⟩
  -- R91
  | .CHN_CFG_ENABLE => ⟨.chn, 0x100, 1, 0x0, 1, 0x0, 1, 0, 0, 1, 32, .rw, 0, true, []⟩
  | .CHN_CFG_LOC => ⟨.chn, 0x100, 1, 0x0, 1, 0x0, 1, 0, 1, 2, 32, .rw, 0, true, [(2, 3)]⟩
  | .CHN_CFG_HOST_CTRL => ⟨.chn, 0x100, 1, 0x0, 1, 0x0, 1, 0, 4, 2, 32, .rw, 0, true, []⟩
  | .CHN_CFG_FAULT_LIMIT => ⟨.chn, 0x100, 1, 0x0, 1, 0x0, 1, 0, 8, 8, 32, .rws, 0x10, true, [(0, 0)]⟩
  | .CHN_AREA_BASE_BASE => ⟨.chn, 0x108, 1, 0x0, 1, 0x0, 1, 0, 26, 22, 64, .rw, 0, true, []⟩
  | .CHN_HOST_BASE_BASE => ⟨.chn, 0x110, 1, 0x0, 1, 0x0, 1, 0, 23, 41, 64, .rw, 0, true, []⟩
  | .CHN_GEN_ACTIVE_GEN => ⟨.chn, 0x118, 1, 0x0, 1, 0x0, 1, 0, 0, 8, 32, .ro, 0, true, []⟩
  | .CHN_GEN_ACTIVE_NEXT => ⟨.chn, 0x118, 1, 0x0, 1, 0x0, 1, 0, 8, 8, 32, .ro, 1, false, []⟩
  | .CHN_GEN_STAMP_MOMENT => ⟨.chn, 0x120, 1, 0x0, 1, 0x0, 1, 0, 0, 64, 64, .ro, 0, true, []⟩
  | .CHN_STAGE_COUNT_COUNT => ⟨.chn, 0x128, 1, 0x0, 1, 0x0, 1, 0, 0, 13, 32, .rw, 0, false, [(4097, 8191)]⟩
  | .CHN_STAGE_FAULT_INDEX => ⟨.chn, 0x12C, 1, 0x0, 1, 0x0, 1, 0, 0, 13, 32, .ro, 0, false, []⟩
  | .CHN_STAGE_FAULT_CHECK => ⟨.chn, 0x12C, 1, 0x0, 1, 0x0, 1, 0, 16, 4, 32, .ro, 0, false, []⟩
  | .CHN_STAGE_FAULT_VALID => ⟨.chn, 0x12C, 1, 0x0, 1, 0x0, 1, 0, 31, 1, 32, .w1c, 0, false, []⟩
  | .CHN_DRAIN_OLDEST_GEN => ⟨.chn, 0x130, 1, 0x0, 1, 0x0, 1, 0, 0, 8, 32, .ro, 0, false, []⟩
  | .CHN_DRAIN_GENS_ALIVE => ⟨.chn, 0x130, 1, 0x0, 1, 0x0, 1, 0, 8, 8, 32, .ro, 0, false, []⟩
  | .CHN_DRAIN_SHADOWS_IN_USE => ⟨.chn, 0x130, 1, 0x0, 1, 0x0, 1, 0, 16, 14, 32, .ro, 0, false, []⟩
  | .CHN_DRAIN_UNITS_UNITS => ⟨.chn, 0x134, 1, 0x0, 1, 0x0, 1, 0, 0, 32, 32, .ro, 0, false, []⟩
  | .CHN_CMD_CHANNEL => ⟨.chn, 0x138, 1, 0x0, 1, 0x0, 1, 0, 0, 17, 32, .wo, 0, false, []⟩
  | .CHN_CMD_OP => ⟨.chn, 0x138, 1, 0x0, 1, 0x0, 1, 0, 20, 4, 32, .wo, 0, false, [(0, 0), (7, 15)]⟩
  | .CHN_CMD_STATUS_RESULT => ⟨.chn, 0x13C, 1, 0x0, 1, 0x0, 1, 0, 0, 2, 32, .ro, 0, false, [(3, 3)]⟩
  | .CHN_CMD_STATUS_STATE => ⟨.chn, 0x13C, 1, 0x0, 1, 0x0, 1, 0, 4, 4, 32, .ro, 0, false, []⟩
  | .CHN_CMD_STATUS_CHANNEL => ⟨.chn, 0x13C, 1, 0x0, 1, 0x0, 1, 0, 8, 17, 32, .ro, 0, false, []⟩
  | .CHN_CACHE_HITS_HITS => ⟨.chn, 0x140, 1, 0x0, 1, 0x0, 1, 0, 0, 32, 32, .ro, 0, false, []⟩
  | .CHN_CACHE_MISSES_MISSES => ⟨.chn, 0x144, 1, 0x0, 1, 0x0, 1, 0, 0, 32, 32, .ro, 0, false, []⟩
  | .CHN_CACHE_PINNED_PINNED => ⟨.chn, 0x148, 1, 0x0, 1, 0x0, 1, 0, 0, 11, 32, .ro, 0, false, []⟩
  -- R92
  | .CHN_FAULT_WINDOW_MS => ⟨.chn, 0x200, 1, 0x0, 1, 0x0, 1, 0, 0, 16, 32, .rwers, 0x3E8, true, [(0, 0)]⟩
  | .CHN_CACHE_CFG_PIN_HOLD => ⟨.chn, 0x204, 1, 0x0, 1, 0x0, 1, 0, 0, 1, 32, .rwers, 1, true, []⟩
  -- R131
  | .GRN_CFG_DEFAULT_BUDGET => ⟨.grn, 0x100, 1, 0x0, 1, 0x0, 1, 0, 0, 12, 32, .rws, 0x200, true, [(0, 30)]⟩
  | .GRN_CFG_REQUIRE_SIG => ⟨.grn, 0x100, 1, 0x0, 1, 0x0, 1, 0, 12, 1, 32, .rw, 0, true, []⟩
  | .GRN_WAIT_LIMIT_US => ⟨.grn, 0x104, 1, 0x0, 1, 0x0, 1, 0, 0, 16, 32, .rws, 0x64, true, [(0, 0)]⟩
  | .GRN_STATUS_ENGINES_ON => ⟨.grn, 0x108, 1, 0x0, 1, 0x0, 1, 0, 0, 7, 32, .ro, 0, false, []⟩
  | .GRN_STATUS_THREADS_BUSY => ⟨.grn, 0x108, 1, 0x0, 1, 0x0, 1, 0, 16, 11, 32, .ro, 0, false, []⟩
  | .GRN_DESC_DRAIN_UNITS => ⟨.grn, 0x10C, 1, 0x0, 1, 0x0, 1, 0, 0, 32, 32, .ro, 0, false, []⟩
  | .GRN_IMG_CMD_OP => ⟨.grn, 0x110, 1, 0x0, 1, 0x0, 1, 0, 0, 2, 32, .wo, 0, false, [(0, 0), (3, 3)]⟩
  | .GRN_IMG_CMD_SLOT => ⟨.grn, 0x110, 1, 0x0, 1, 0x0, 1, 0, 8, 6, 32, .wo, 0, false, []⟩
  | .GRN_IMG_BASE_WORD => ⟨.grn, 0x114, 1, 0x0, 1, 0x0, 1, 0, 0, 19, 32, .rw, 0, false, []⟩
  | .GRN_IMG_STATUS_RESULT => ⟨.grn, 0x118, 1, 0x0, 1, 0x0, 1, 0, 0, 4, 32, .ro, 0, false, [(8, 15)]⟩
  | .GRN_IMG_STATUS_SLOT => ⟨.grn, 0x118, 1, 0x0, 1, 0x0, 1, 0, 4, 6, 32, .ro, 0, false, []⟩
  | .GRN_FAULT_COUNT_FAULTS => ⟨.grn, 0x120, 1, 0x0, 1, 0x0, 1, 0, 0, 32, 32, .ro, 0, false, []⟩
  | .GRN_ECC_COUNT_CORRECTED => ⟨.grn, 0x124, 1, 0x0, 1, 0x0, 1, 0, 0, 16, 32, .ro, 0, false, []⟩
  | .GRN_ECC_COUNT_UNCORRECTED => ⟨.grn, 0x124, 1, 0x0, 1, 0x0, 1, 0, 16, 16, 32, .ro, 0, false, []⟩
  | .GRN_IMG_DIR_BASE => ⟨.grn, 0x400, 1, 0x0, 64, 0x10, 1, 0, 0, 19, 128, .ro, 0, false, []⟩
  | .GRN_IMG_DIR_VALID => ⟨.grn, 0x400, 1, 0x0, 64, 0x10, 1, 0, 19, 1, 128, .ro, 0, false, []⟩
  | .GRN_IMG_DIR_PROFILE => ⟨.grn, 0x400, 1, 0x0, 64, 0x10, 1, 0, 20, 2, 128, .ro, 0, false, []⟩
  | .GRN_IMG_DIR_LENGTH => ⟨.grn, 0x400, 1, 0x0, 64, 0x10, 1, 0, 32, 20, 128, .ro, 0, false, []⟩
  | .GRN_IMG_DIR_IMAGE_ID => ⟨.grn, 0x400, 1, 0x0, 64, 0x10, 1, 0, 64, 32, 128, .ro, 0, false, []⟩
  | .GRN_IMG_DIR_REFS => ⟨.grn, 0x400, 1, 0x0, 64, 0x10, 1, 0, 96, 18, 128, .ro, 0, false, []⟩
  | .GRN_RECIPE_BIND_SLOT => ⟨.grn, 0x800, 1, 0x0, 24, 0x8, 8, 8, 0, 8, 64, .rws, 0xFF, true, []⟩
  | .GRN_DESC_BASE => ⟨.grn, 0x1000, 1, 0x0, 255, 0x10, 1, 0, 0, 48, 128, .rws, 0, true, []⟩
  | .GRN_DESC_ENTRIES => ⟨.grn, 0x1000, 1, 0x0, 255, 0x10, 1, 0, 64, 24, 128, .rws, 0, true, []⟩
  | .GRN_DESC_KIND => ⟨.grn, 0x1000, 1, 0x0, 255, 0x10, 1, 0, 96, 3, 128, .rws, 0, true, [(5, 7)]⟩
  | .GRN_DESC_KEY_WORDS => ⟨.grn, 0x1000, 1, 0x0, 255, 0x10, 1, 0, 104, 4, 128, .rws, 0, true, []⟩
  | .GRN_DESC_RESULT_WORDS => ⟨.grn, 0x1000, 1, 0x0, 255, 0x10, 1, 0, 112, 4, 128, .rws, 0, true, []⟩
  -- R132
  | .GRN_ENG_MASK_ENGINES => ⟨.grn, 0x200, 1, 0x0, 3, 0x4, 1, 0, 0, 32, 32, .rwers, 0xFFFFFFFF, true, []⟩
  | .GRN_HOLD_MASK_ENGINES => ⟨.grn, 0x20C, 1, 0x0, 3, 0x4, 1, 0, 0, 32, 32, .rwers, 0xFFFFFFFF, true, []⟩
  | .GRN_DISPATCH_AGE_US => ⟨.grn, 0x218, 1, 0x0, 1, 0x0, 1, 0, 0, 8, 32, .rwers, 0x14, false, []⟩
  | .GRN_DISPATCH_THREADS => ⟨.grn, 0x218, 1, 0x0, 1, 0x0, 1, 0, 16, 5, 32, .rwers, 0x10, false, [(0, 0), (17, 31)]⟩
  | .GRN_K_CLEAR_MODE => ⟨.grn, 0x21C, 1, 0x0, 1, 0x0, 1, 0, 0, 1, 32, .rwers, 0, false, []⟩
  -- R133
  | .HRV_CFG_TIMEOUT_US => ⟨.hrv, 0x100, 1, 0x0, 1, 0x0, 1, 0, 0, 16, 32, .rws, 0x7D0, true, [(0, 99)]⟩
  | .HRV_CFG_ORDERED_RESERVE => ⟨.hrv, 0x100, 1, 0x0, 1, 0x0, 1, 0, 16, 13, 32, .rws, 0x200, true, [(4097, 8191)]⟩
  | .HRV_STATUS_SLOTS_USED => ⟨.hrv, 0x104, 1, 0x0, 1, 0x0, 1, 0, 0, 13, 32, .ro, 0, false, []⟩
  | .HRV_STATUS_ORDERED_USED => ⟨.hrv, 0x104, 1, 0x0, 1, 0x0, 1, 0, 16, 13, 32, .ro, 0, false, []⟩
  | .HRV_GAPS_GAPS => ⟨.hrv, 0x108, 1, 0x0, 1, 0x0, 1, 0, 0, 32, 32, .ro, 0, false, []⟩
  | .HRV_LATE_LATE => ⟨.hrv, 0x10C, 1, 0x0, 1, 0x0, 1, 0, 0, 32, 32, .ro, 0, false, []⟩
  | .HRV_WAITS_WAITS => ⟨.hrv, 0x110, 1, 0x0, 1, 0x0, 1, 0, 0, 32, 32, .ro, 0, false, []⟩
  -- R134
  | .HRV_INST_MAX_MAX => ⟨.hrv, 0x200, 1, 0x0, 5, 0x4, 1, 0, 0, 11, 32, .rwers, 0x400, true, [(0, 0), (1025, 2047)]⟩
  -- R211
  | .LNK_CFG_ENABLE => ⟨.lnk, 0x100, 6, 0x10000, 1, 0x0, 1, 0, 0, 1, 32, .rw, 0, true, []⟩
  | .LNK_CFG_RATES => ⟨.lnk, 0x100, 6, 0x10000, 1, 0x0, 1, 0, 4, 3, 32, .rws, 7, true, [(0, 0)]⟩
  | .LNK_CFG_PAIRMAP => ⟨.lnk, 0x100, 6, 0x10000, 1, 0x0, 1, 0, 8, 2, 32, .rws, 0, true, [(3, 3)]⟩
  | .LNK_CFG_PRECODE => ⟨.lnk, 0x100, 6, 0x10000, 1, 0x0, 1, 0, 12, 2, 32, .rws, 0, true, [(3, 3)]⟩
  | .LNK_CFG_REVERSIBLE => ⟨.lnk, 0x100, 6, 0x10000, 1, 0x0, 1, 0, 16, 1, 32, .rws, 1, true, []⟩
  | .LNK_STATUS_UP => ⟨.lnk, 0x104, 6, 0x10000, 1, 0x0, 1, 0, 0, 1, 32, .ro, 0, false, []⟩
  | .LNK_STATUS_RATE => ⟨.lnk, 0x104, 6, 0x10000, 1, 0x0, 1, 0, 1, 2, 32, .ro, 0, false, []⟩
  | .LNK_STATUS_PAIRMAP_ACTIVE => ⟨.lnk, 0x104, 6, 0x10000, 1, 0x0, 1, 0, 4, 2, 32, .ro, 0, false, []⟩
  | .LNK_STATUS_LANE_TX => ⟨.lnk, 0x104, 6, 0x10000, 1, 0x0, 1, 0, 8, 4, 32, .ro, 0, false, []⟩
  | .LNK_STATUS_LANE_OK => ⟨.lnk, 0x104, 6, 0x10000, 1, 0x0, 1, 0, 12, 4, 32, .ro, 0, false, []⟩
  | .LNK_STATUS_PRECODE_TX => ⟨.lnk, 0x104, 6, 0x10000, 1, 0x0, 1, 0, 16, 4, 32, .ro, 0, false, []⟩
  | .LNK_STATUS_PRECODE_RX => ⟨.lnk, 0x104, 6, 0x10000, 1, 0x0, 1, 0, 20, 4, 32, .ro, 0, false, []⟩
  | .LNK_STATUS_DEGRADED => ⟨.lnk, 0x104, 6, 0x10000, 1, 0x0, 1, 0, 24, 1, 32, .ro, 0, false, []⟩
  | .LNK_STATUS_REV_READY => ⟨.lnk, 0x104, 6, 0x10000, 1, 0x0, 1, 0, 25, 1, 32, .ro, 0, false, []⟩
  | .LNK_STATUS_LANE_CHANGE => ⟨.lnk, 0x104, 6, 0x10000, 1, 0x0, 1, 0, 26, 1, 32, .ro, 0, false, []⟩
  | .LNK_LANE_STATE_STATE => ⟨.lnk, 0x108, 6, 0x10000, 1, 0x0, 4, 8, 0, 4, 32, .ro, 0, false, []⟩
  | .LNK_LANE_STATE_POWER => ⟨.lnk, 0x108, 6, 0x10000, 1, 0x0, 4, 8, 4, 2, 32, .ro, 0, false, []⟩
  | .LNK_CWC_TX_CWC => ⟨.lnk, 0x110, 6, 0x10000, 1, 0x0, 1, 0, 0, 32, 32, .ro, 0, false, []⟩
  | .LNK_CWC_RX_CWC => ⟨.lnk, 0x114, 6, 0x10000, 1, 0x0, 1, 0, 0, 32, 32, .ro, 0, false, []⟩
  | .LNK_FEC_CORR_SYMBOLS => ⟨.lnk, 0x118, 6, 0x10000, 1, 0x0, 1, 0, 0, 64, 64, .ro, 0, false, []⟩
  | .LNK_FEC_UNCORR_CODEWORDS => ⟨.lnk, 0x120, 6, 0x10000, 1, 0x0, 1, 0, 0, 32, 32, .ro, 0, false, []⟩
  | .LNK_REPLAY_REPLAYS => ⟨.lnk, 0x124, 6, 0x10000, 1, 0x0, 1, 0, 0, 16, 32, .ro, 0, false, []⟩
  | .LNK_REPLAY_TIMEOUTS => ⟨.lnk, 0x124, 6, 0x10000, 1, 0x0, 1, 0, 16, 16, 32, .ro, 0, false, []⟩
  | .LNK_REPLAY_FILL_BYTES => ⟨.lnk, 0x128, 6, 0x10000, 1, 0x0, 1, 0, 0, 19, 32, .ro, 0, false, []⟩
  | .LNK_REPLAY_LOST_PARCELS => ⟨.lnk, 0x12C, 6, 0x10000, 1, 0x0, 1, 0, 0, 32, 32, .ro, 0, false, []⟩
  | .LNK_TRAINS_FULL => ⟨.lnk, 0x130, 6, 0x10000, 1, 0x0, 1, 0, 0, 16, 32, .ro, 0, false, []⟩
  | .LNK_TRAINS_PARTIAL => ⟨.lnk, 0x130, 6, 0x10000, 1, 0x0, 1, 0, 16, 16, 32, .ro, 0, false, []⟩
  | .LNK_PWR_HALF_US => ⟨.lnk, 0x134, 6, 0x10000, 1, 0x0, 1, 0, 0, 8, 32, .rws, 4, true, []⟩
  | .LNK_PWR_DEEP_MS => ⟨.lnk, 0x134, 6, 0x10000, 1, 0x0, 1, 0, 8, 8, 32, .rws, 0xA, true, []⟩
  | .LNK_PWR_ALLOW => ⟨.lnk, 0x134, 6, 0x10000, 1, 0x0, 1, 0, 16, 2, 32, .rws, 2, true, [(3, 3)]⟩
  | .LNK_GATED_WINDOWS => ⟨.lnk, 0x138, 6, 0x10000, 1, 0x0, 1, 0, 0, 32, 32, .ro, 0, false, []⟩
  | .LNK_EYE_CTRL_LANE => ⟨.lnk, 0x140, 6, 0x10000, 1, 0x0, 1, 0, 0, 2, 32, .rw, 0, false, []⟩
  | .LNK_EYE_CTRL_EYE => ⟨.lnk, 0x140, 6, 0x10000, 1, 0x0, 1, 0, 4, 2, 32, .rw, 3, false, []⟩
  | .LNK_EYE_CTRL_DWELL => ⟨.lnk, 0x140, 6, 0x10000, 1, 0x0, 1, 0, 8, 4, 32, .rw, 4, false, [(9, 15)]⟩
  | .LNK_EYE_CTRL_START => ⟨.lnk, 0x140, 6, 0x10000, 1, 0x0, 1, 0, 16, 1, 32, .wo, 0, false, []⟩
  | .LNK_EYE_CTRL_BUSY => ⟨.lnk, 0x140, 6, 0x10000, 1, 0x0, 1, 0, 17, 1, 32, .ro, 0, false, []⟩
  | .LNK_EYE_RESULT_HEIGHT_MV => ⟨.lnk, 0x144, 6, 0x10000, 3, 0x4, 1, 0, 0, 12, 32, .ro, 0, false, []⟩
  | .LNK_EYE_RESULT_WIDTH => ⟨.lnk, 0x144, 6, 0x10000, 3, 0x4, 1, 0, 16, 8, 32, .ro, 0, false, []⟩
  | .LNK_EYE_RESULT_VALID => ⟨.lnk, 0x144, 6, 0x10000, 3, 0x4, 1, 0, 31, 1, 32, .ro, 0, false, []⟩
  | .LNK_EYE_MON_HEIGHT => ⟨.lnk, 0x150, 6, 0x10000, 1, 0x0, 4, 8, 0, 8, 32, .ro, 0, false, []⟩
  -- R212
  | .LNK_ADAPT_GATE_LO => ⟨.lnk, 0x200, 6, 0x10000, 1, 0x0, 1, 0, 0, 13, 32, .rwers, 0x300, true, [(4097, 8191)]⟩
  | .LNK_ADAPT_GATE_HI => ⟨.lnk, 0x200, 6, 0x10000, 1, 0x0, 1, 0, 16, 13, 32, .rwers, 0x500, true, [(4097, 8191)]⟩
  | .LNK_THRESH_EYE_MIN_MV => ⟨.lnk, 0x204, 6, 0x10000, 1, 0x0, 1, 0, 0, 8, 32, .rwers, 0xF, false, []⟩
  | .LNK_THRESH_TRAIN_MS => ⟨.lnk, 0x204, 6, 0x10000, 1, 0x0, 1, 0, 8, 8, 32, .rwers, 0x28, false, [(0, 0)]⟩
  | .LNK_THRESH_ACK_TIMEOUT_US => ⟨.lnk, 0x204, 6, 0x10000, 1, 0x0, 1, 0, 16, 8, 32, .rwers, 8, false, [(0, 1)]⟩
  | .LNK_THRESH_REPLAY_LIMIT => ⟨.lnk, 0x204, 6, 0x10000, 1, 0x0, 1, 0, 24, 4, 32, .rwers, 4, false, [(0, 0)]⟩
  | .LNK_RAW_MODE => ⟨.lnk, 0x208, 6, 0x10000, 1, 0x0, 1, 0, 0, 1, 32, .rwe, 0, false, []⟩
  | .LNK_SLIP_LANE => ⟨.lnk, 0x20C, 6, 0x10000, 1, 0x0, 1, 0, 0, 2, 32, .wo, 0, false, []⟩
  | .LNK_RAW_LANE_TX_PAT => ⟨.lnk, 0x210, 6, 0x10000, 4, 0x4, 1, 0, 0, 3, 32, .rwe, 0, false, [(6, 7)]⟩
  | .LNK_RAW_LANE_RX_PAT => ⟨.lnk, 0x210, 6, 0x10000, 4, 0x4, 1, 0, 4, 3, 32, .rwe, 0, false, [(4, 7)]⟩
  | .LNK_RAW_LANE_DIR => ⟨.lnk, 0x210, 6, 0x10000, 4, 0x4, 1, 0, 8, 1, 32, .rwe, 0, false, []⟩
  | .LNK_RAW_LANE_NRZ => ⟨.lnk, 0x210, 6, 0x10000, 4, 0x4, 1, 0, 12, 1, 32, .rwe, 0, false, []⟩
  | .LNK_PRBS_ERR_ERRORS => ⟨.lnk, 0x220, 6, 0x10000, 4, 0x4, 1, 0, 0, 31, 32, .ro, 0, false, []⟩
  | .LNK_PRBS_ERR_LOCKED => ⟨.lnk, 0x220, 6, 0x10000, 4, 0x4, 1, 0, 31, 1, 32, .ro, 0, false, []⟩
  | .LNK_TXEQ_CM2 => ⟨.lnk, 0x230, 6, 0x10000, 4, 0x4, 1, 0, 0, 6, 32, .rwe, 0, false, []⟩
  | .LNK_TXEQ_CM1 => ⟨.lnk, 0x230, 6, 0x10000, 4, 0x4, 1, 0, 8, 6, 32, .rwe, 0, false, []⟩
  | .LNK_TXEQ_C0 => ⟨.lnk, 0x230, 6, 0x10000, 4, 0x4, 1, 0, 16, 7, 32, .ro, 0, false, []⟩
  | .LNK_TXEQ_CP1 => ⟨.lnk, 0x230, 6, 0x10000, 4, 0x4, 1, 0, 24, 6, 32, .rwe, 0, false, []⟩
  -- R252
  | .TUN_CFG_LEAD => ⟨.tun, 0x100, 1, 0x0, 1, 0x0, 1, 0, 0, 4, 32, .rws, 4, true, [(0, 1)]⟩
  | .TUN_CFG_AUTO_RESUME => ⟨.tun, 0x100, 1, 0x0, 1, 0x0, 1, 0, 8, 1, 32, .rw, 0, true, []⟩
  | .TUN_CFG_CHAIN_ROOT => ⟨.tun, 0x100, 1, 0x0, 1, 0x0, 1, 0, 9, 1, 32, .rw, 0, true, []⟩
  | .TUN_CFG_EST_RETRY_MS => ⟨.tun, 0x100, 1, 0x0, 1, 0x0, 1, 0, 16, 8, 32, .rws, 0xA, true, [(0, 0)]⟩
  | .TUN_STATUS_PEER_OK => ⟨.tun, 0x104, 1, 0x0, 1, 0x0, 1, 0, 0, 6, 32, .ro, 0, false, []⟩
  | .TUN_STATUS_HOLD_WAIT => ⟨.tun, 0x104, 1, 0x0, 1, 0x0, 1, 0, 8, 6, 32, .ro, 0, false, []⟩
  | .TUN_EPOCH_EPOCH => ⟨.tun, 0x108, 1, 0x0, 1, 0x0, 1, 0, 0, 48, 64, .ro, 0, false, []⟩
  | .TUN_REPORT_BASE_BASE => ⟨.tun, 0x110, 1, 0x0, 1, 0x0, 1, 0, 4, 44, 64, .rw, 0, true, []⟩
  | .TUN_REPORT_CFG_LOG2_RECORDS => ⟨.tun, 0x118, 1, 0x0, 1, 0x0, 1, 0, 0, 5, 32, .rw, 0xC, true, [(0, 3), (18, 31)]⟩
  | .TUN_REPORT_HEAD_HEAD => ⟨.tun, 0x11C, 1, 0x0, 1, 0x0, 1, 0, 0, 17, 32, .ro, 0, false, []⟩
  | .TUN_REPORT_TAIL_TAIL => ⟨.tun, 0x120, 1, 0x0, 1, 0x0, 1, 0, 0, 17, 32, .rw, 0, false, []⟩
  | .TUN_CMD_PORT => ⟨.tun, 0x124, 1, 0x0, 1, 0x0, 1, 0, 0, 3, 32, .wo, 0, false, []⟩
  | .TUN_CMD_OP => ⟨.tun, 0x124, 1, 0x0, 1, 0x0, 1, 0, 4, 4, 32, .wo, 0, false, [(0, 0), (3, 15)]⟩
  | .TUN_CMD_END => ⟨.tun, 0x124, 1, 0x0, 1, 0x0, 1, 0, 8, 1, 32, .wo, 0, false, []⟩
  | .TUN_CMD_ALL => ⟨.tun, 0x124, 1, 0x0, 1, 0x0, 1, 0, 9, 1, 32, .wo, 0, false, []⟩
  | .TUN_CMD_GEN_SEEN => ⟨.tun, 0x124, 1, 0x0, 1, 0x0, 1, 0, 16, 8, 32, .wo, 0, false, []⟩
  | .TUN_CONFIRM_BASE_BASE => ⟨.tun, 0x128, 1, 0x0, 1, 0x0, 1, 0, 3, 45, 64, .rw, 0, false, []⟩
  | .TUN_CONFIRM_COUNT_COUNT => ⟨.tun, 0x130, 1, 0x0, 1, 0x0, 1, 0, 0, 17, 32, .rw, 0, false, []⟩
  | .TUN_CMD_STATUS_RESULT => ⟨.tun, 0x134, 1, 0x0, 1, 0x0, 1, 0, 0, 2, 32, .ro, 0, false, [(3, 3)]⟩
  | .TUN_PORT_STATUS_PEER_POS => ⟨.tun, 0x400, 1, 0x0, 6, 0x40, 1, 0, 0, 3, 32, .ro, 0, false, []⟩
  | .TUN_PORT_STATUS_PEER_VALID => ⟨.tun, 0x400, 1, 0x0, 6, 0x40, 1, 0, 3, 1, 32, .ro, 0, false, []⟩
  | .TUN_PORT_STATUS_PEER_HOLD => ⟨.tun, 0x400, 1, 0x0, 6, 0x40, 1, 0, 4, 1, 32, .ro, 0, false, []⟩
  | .TUN_PORT_STATUS_OVER => ⟨.tun, 0x400, 1, 0x0, 6, 0x40, 1, 0, 5, 1, 32, .ro, 0, false, []⟩
  | .TUN_PORT_STATUS_ALLOT_VER => ⟨.tun, 0x400, 1, 0x0, 6, 0x40, 1, 0, 8, 8, 32, .ro, 0, false, []⟩
  | .TUN_PORT_STATUS_ALLOT_PENDING => ⟨.tun, 0x400, 1, 0x0, 6, 0x40, 1, 0, 16, 1, 32, .ro, 0, false, []⟩
  | .TUN_SHARE_SHARE => ⟨.tun, 0x404, 1, 0x0, 6, 0x40, 1, 0, 0, 16, 32, .ro, 0, false, []⟩
  | .TUN_RESV_TX_TOTAL => ⟨.tun, 0x408, 1, 0x0, 6, 0x40, 1, 0, 0, 13, 32, .ro, 0, false, []⟩
  | .TUN_RESV_TX_LIMIT => ⟨.tun, 0x408, 1, 0x0, 6, 0x40, 1, 0, 16, 13, 32, .ro, 0, false, []⟩
  | .TUN_RESV_RX_TOTAL => ⟨.tun, 0x40C, 1, 0x0, 6, 0x40, 1, 0, 0, 13, 32, .ro, 0, false, []⟩
  | .TUN_RESV_RX_NEXT => ⟨.tun, 0x40C, 1, 0x0, 6, 0x40, 1, 0, 16, 13, 32, .ro, 0, false, []⟩
  | .TUN_SWITCH_EPOCH_EPOCH => ⟨.tun, 0x410, 1, 0x0, 6, 0x40, 1, 0, 0, 32, 32, .ro, 0, false, []⟩
  | .TUN_RSV_EXCESS_PARCELS => ⟨.tun, 0x414, 1, 0x0, 6, 0x40, 1, 0, 0, 32, 32, .ro, 0, false, []⟩
  | .TUN_TAG_FAIL_UNITS => ⟨.tun, 0x418, 1, 0x0, 6, 0x40, 1, 0, 0, 32, 32, .ro, 0, false, []⟩
  | .TUN_EST_NAKS => ⟨.tun, 0x41C, 1, 0x0, 6, 0x40, 1, 0, 0, 16, 32, .ro, 0, false, []⟩
  | .TUN_PEER_BOOT_BOOT_ID => ⟨.tun, 0x420, 1, 0x0, 6, 0x40, 1, 0, 0, 32, 32, .ro, 0, false, []⟩
  -- R253
  | .TUN_TIMERS_ALLOT_TIMEOUT_US => ⟨.tun, 0x200, 1, 0x0, 1, 0x0, 1, 0, 0, 16, 32, .rwers, 0x18, true, [(0, 0)]⟩
  | .TUN_TIMERS_HELLO_MS => ⟨.tun, 0x200, 1, 0x0, 1, 0x0, 1, 0, 16, 8, 32, .rwers, 1, false, [(0, 0)]⟩
  | .TUN_RSV_SLACK_BYTES => ⟨.tun, 0x204, 1, 0x0, 1, 0x0, 1, 0, 0, 16, 32, .rwers, 0x840, false, []⟩
  | .TUN_RSV_SLACK_FLAKES => ⟨.tun, 0x204, 1, 0x0, 1, 0x0, 1, 0, 16, 16, 32, .rwers, 0x11, false, []⟩
  | .TUN_SEAL_CFG_IVC_CHECK => ⟨.tun, 0x208, 1, 0x0, 1, 0x0, 1, 0, 0, 1, 32, .rwers, 1, false, []⟩
  -- R254
  | .TMB_SERVO_KP_SHIFT => ⟨.tmb, 0x200, 1, 0x0, 1, 0x0, 1, 0, 0, 5, 32, .rwers, 2, false, []⟩
  | .TMB_SERVO_KI_SHIFT => ⟨.tmb, 0x200, 1, 0x0, 1, 0x0, 1, 0, 8, 5, 32, .rwers, 6, false, []⟩
  | .TMB_SERVO_LOCK_TICKS => ⟨.tmb, 0x200, 1, 0x0, 1, 0x0, 1, 0, 16, 8, 32, .rwers, 8, false, [(0, 0)]⟩
  | .TMB_SYNC_CFG_LOG_SYNC => ⟨.tmb, 0x204, 1, 0x0, 1, 0x0, 1, 0, 0, 8, 32, .rwers, 0xF9, false, [(1, 245)]⟩
  | .TMB_SYNC_CFG_LOG_PDELAY => ⟨.tmb, 0x204, 1, 0x0, 1, 0x0, 1, 0, 8, 8, 32, .rwers, 0, false, [(4, 251)]⟩
  | .TMB_SYNC_CFG_PRIORITY1 => ⟨.tmb, 0x204, 1, 0x0, 1, 0x0, 1, 0, 16, 8, 32, .rwers, 0xF8, false, []⟩
  | .TMB_SYNC_CFG_PRIORITY2 => ⟨.tmb, 0x204, 1, 0x0, 1, 0x0, 1, 0, 24, 8, 32, .rwers, 0xF8, false, []⟩
  | .TMB_ASYM_ASYM_PS => ⟨.tmb, 0x208, 1, 0x0, 6, 0x8, 1, 0, 0, 32, 32, .ro, 0, false, []⟩
  | .TMB_ASYM_FIX_FIX_PS => ⟨.tmb, 0x238, 1, 0x0, 6, 0x4, 1, 0, 0, 32, 32, .rwers, 0, true, []⟩
  | .TMB_SYNC_ERR_ERR_TICKS => ⟨.tmb, 0x250, 1, 0x0, 1, 0x0, 1, 0, 0, 16, 32, .ro, 0xFFFF, false, []⟩
  | .TMB_SYNC_ERR_SLAVE => ⟨.tmb, 0x250, 1, 0x0, 1, 0x0, 1, 0, 16, 8, 32, .ro, 0xFF, false, []⟩
  | .TMB_GM_ID_ID => ⟨.tmb, 0x258, 1, 0x0, 1, 0x0, 1, 0, 0, 64, 64, .ro, 0, false, []⟩
  | .TMB_OFFSET_LAST_OFFSET => ⟨.tmb, 0x260, 1, 0x0, 1, 0x0, 1, 0, 0, 64, 64, .ro, 0, false, []⟩
  -- R289
  | .SAL_CFG_LAGOON_EN => ⟨.sal, 0x100, 1, 0x0, 1, 0x0, 1, 0, 0, 1, 32, .rw, 0, true, []⟩
  | .SAL_CFG_CT_ENABLE => ⟨.sal, 0x100, 1, 0x0, 1, 0x0, 1, 0, 1, 1, 32, .rws, 1, true, []⟩
  | .SAL_LAGOON_BASE_BASE => ⟨.sal, 0x108, 1, 0x0, 1, 0x0, 1, 0, 20, 28, 64, .rw, 0, true, []⟩
  | .SAL_LAGOON_SIZE_MIB => ⟨.sal, 0x110, 1, 0x0, 1, 0x0, 1, 0, 0, 13, 32, .rw, 0, true, [(4097, 8191)]⟩
  | .SAL_STATUS_PAN_FREE => ⟨.sal, 0x114, 1, 0x0, 1, 0x0, 1, 0, 0, 18, 32, .ro, 0, false, []⟩
  | .SAL_STATUS_PANS_ONLINE => ⟨.sal, 0x114, 1, 0x0, 1, 0x0, 1, 0, 20, 5, 32, .ro, 0x10, false, []⟩
  | .SAL_STATUS_LAGOON_BUSY => ⟨.sal, 0x114, 1, 0x0, 1, 0x0, 1, 0, 28, 1, 32, .ro, 0, false, []⟩
  | .SAL_LAGOON_USE_FLAKES => ⟨.sal, 0x118, 1, 0x0, 1, 0x0, 1, 0, 0, 25, 32, .ro, 0, false, []⟩
  | .SAL_BERTH_STATE_STATE => ⟨.sal, 0x120, 1, 0x0, 1, 0x0, 32, 2, 0, 2, 64, .ro, 0, false, []⟩
  | .SAL_BERTH_CMD_BERTH => ⟨.sal, 0x128, 1, 0x0, 1, 0x0, 1, 0, 0, 5, 32, .wo, 0, false, []⟩
  | .SAL_BERTH_CMD_OP => ⟨.sal, 0x128, 1, 0x0, 1, 0x0, 1, 0, 8, 2, 32, .wo, 0, false, [(0, 0), (3, 3)]⟩
  | .SAL_BERTH_CMD_STATUS_RESULT => ⟨.sal, 0x12C, 1, 0x0, 1, 0x0, 1, 0, 0, 2, 32, .ro, 0, false, [(3, 3)]⟩
  | .SAL_LATE_MARK_MARKS => ⟨.sal, 0x130, 1, 0x0, 1, 0x0, 1, 0, 0, 32, 32, .ro, 0, false, []⟩
  | .SAL_UNDERRUN_UNITS => ⟨.sal, 0x134, 1, 0x0, 1, 0x0, 1, 0, 0, 32, 32, .ro, 0, false, []⟩
  | .SAL_LOST_UNITS => ⟨.sal, 0x138, 1, 0x0, 1, 0x0, 1, 0, 0, 32, 32, .ro, 0, false, []⟩
  | .SAL_QPTR_MISMATCHES => ⟨.sal, 0x13C, 1, 0x0, 1, 0x0, 1, 0, 0, 16, 32, .ro, 0, false, []⟩
  | .SAL_ECC_CORRECTED => ⟨.sal, 0x140, 1, 0x0, 1, 0x0, 1, 0, 0, 16, 32, .ro, 0, false, []⟩
  | .SAL_ECC_UNCORRECTED => ⟨.sal, 0x140, 1, 0x0, 1, 0x0, 1, 0, 16, 16, 32, .ro, 0, false, []⟩
  | .SAL_PARITY_ERRORS => ⟨.sal, 0x144, 1, 0x0, 1, 0x0, 1, 0, 0, 32, 32, .ro, 0, false, []⟩
  | .SAL_BERTH_DROP_UNITS => ⟨.sal, 0x180, 1, 0x0, 32, 0x4, 1, 0, 0, 32, 32, .ro, 0, false, []⟩
  | .SAL_MCT_BERTH => ⟨.sal, 0x1000, 1, 0x0, 256, 0x8, 1, 0, 0, 5, 64, .rws, 0, true, []⟩
  | .SAL_MCT_QSLOT => ⟨.sal, 0x1000, 1, 0x0, 256, 0x8, 1, 0, 8, 14, 64, .rws, 0, true, []⟩
  | .SAL_MCT_VALID => ⟨.sal, 0x1000, 1, 0x0, 256, 0x8, 1, 0, 31, 1, 64, .rws, 0, true, []⟩
  | .SAL_MCT_DROPS_REFUSED => ⟨.sal, 0x1800, 1, 0x0, 256, 0x4, 1, 0, 0, 32, 32, .ro, 0, false, []⟩
  | .SAL_QCFG_BERTH => ⟨.sal, 0x40000, 1, 0x0, 16384, 0x10, 1, 0, 0, 5, 128, .rws, 0, true, []⟩
  | .SAL_QCFG_PORT => ⟨.sal, 0x40000, 1, 0x0, 16384, 0x10, 1, 0, 8, 5, 128, .rws, 0, true, []⟩
  | .SAL_QCFG_TC => ⟨.sal, 0x40000, 1, 0x0, 16384, 0x10, 1, 0, 13, 3, 128, .rws, 0, true, []⟩
  | .SAL_QCFG_ENABLE => ⟨.sal, 0x40000, 1, 0x0, 16384, 0x10, 1, 0, 16, 1, 128, .rws, 0, true, []⟩
  | .SAL_QCFG_SAF => ⟨.sal, 0x40000, 1, 0x0, 16384, 0x10, 1, 0, 17, 1, 128, .rws, 0, true, []⟩
  | .SAL_QCFG_LIMIT => ⟨.sal, 0x40000, 1, 0x0, 16384, 0x10, 1, 0, 24, 25, 128, .rws, 0x4000, true, [(0, 0)]⟩
  | .SAL_QCFG_PAN_LIMIT => ⟨.sal, 0x40000, 1, 0x0, 16384, 0x10, 1, 0, 64, 18, 128, .rwers, 0x3000, true, [(0, 255), (196609, 262143)]⟩
  | .SAL_QCFG_FLUSH => ⟨.sal, 0x40000, 1, 0x0, 16384, 0x10, 1, 0, 96, 1, 128, .w1s, 0, false, []⟩
  | .SAL_QSTAT_PAN_FLAKES => ⟨.sal, 0x80000, 1, 0x0, 16384, 0x10, 1, 0, 0, 18, 128, .ro, 0, false, []⟩
  | .SAL_QSTAT_LAGOON_FLAKES => ⟨.sal, 0x80000, 1, 0x0, 16384, 0x10, 1, 0, 32, 25, 128, .ro, 0, false, []⟩
  | .SAL_QSTAT_UNITS_OUT => ⟨.sal, 0x80000, 1, 0x0, 16384, 0x10, 1, 0, 64, 32, 128, .ro, 0, false, []⟩
  | .SAL_QSTAT_DROPS => ⟨.sal, 0x80000, 1, 0x0, 16384, 0x10, 1, 0, 96, 32, 128, .ro, 0, false, []⟩
  -- R290
  | .SAL_PAN_CFG_RESERVED_FLAKES => ⟨.sal, 0x200, 1, 0x0, 1, 0x0, 1, 0, 0, 18, 32, .rwers, 0x4000, true, [(196609, 262143)]⟩
  | .SAL_LAGOON_CFG_RATE_GBPS => ⟨.sal, 0x204, 1, 0x0, 1, 0x0, 1, 0, 0, 9, 32, .rwers, 0x140, true, [(0, 0), (321, 511)]⟩
  | .SAL_LAGOON_CFG_REFILL => ⟨.sal, 0x204, 1, 0x0, 1, 0x0, 1, 0, 16, 16, 32, .rwers, 0x400, true, []⟩
  | .SAL_CT_START_FLAKES => ⟨.sal, 0x208, 1, 0x0, 1, 0x0, 1, 0, 0, 4, 32, .rwers, 2, false, [(0, 0)]⟩
  | .SAL_CT_LOST_US => ⟨.sal, 0x208, 1, 0x0, 1, 0x0, 1, 0, 8, 8, 32, .rwers, 4, false, [(0, 0)]⟩
  | .SAL_SPREAD_MODE => ⟨.sal, 0x20C, 1, 0x0, 1, 0x0, 1, 0, 0, 1, 32, .rwers, 0, false, []⟩
  -- R315
  | .ETH_CFG_ENABLE => ⟨.eth, 0x100, 10, 0x10000, 1, 0x0, 1, 0, 0, 1, 32, .rw, 0, true, []⟩
  | .ETH_CFG_MODE => ⟨.eth, 0x100, 10, 0x10000, 1, 0x0, 1, 0, 1, 3, 32, .rw, 0, true, [(4, 7)]⟩
  | .ETH_CFG_FEC => ⟨.eth, 0x100, 10, 0x10000, 1, 0x0, 1, 0, 4, 1, 32, .rw, 0, true, []⟩
  | .ETH_CFG_AN => ⟨.eth, 0x100, 10, 0x10000, 1, 0x0, 1, 0, 5, 1, 32, .rw, 1, true, []⟩
  | .ETH_CFG_MAX_FRAME => ⟨.eth, 0x100, 10, 0x10000, 1, 0x0, 1, 0, 16, 14, 32, .rws, 0x5F2, true, [(0, 63), (9601, 16383)]⟩
  | .ETH_STATUS_LINK => ⟨.eth, 0x104, 10, 0x10000, 1, 0x0, 1, 0, 0, 1, 32, .ro, 0, false, []⟩
  | .ETH_STATUS_SPEED => ⟨.eth, 0x104, 10, 0x10000, 1, 0x0, 1, 0, 1, 3, 32, .ro, 0, false, [(5, 7)]⟩
  | .ETH_STATUS_FEC_LOCK => ⟨.eth, 0x104, 10, 0x10000, 1, 0x0, 1, 0, 4, 1, 32, .ro, 0, false, []⟩
  | .ETH_STATUS_AN_DONE => ⟨.eth, 0x104, 10, 0x10000, 1, 0x0, 1, 0, 5, 1, 32, .ro, 0, false, []⟩
  | .ETH_STATUS_LOCAL_FAULT => ⟨.eth, 0x104, 10, 0x10000, 1, 0x0, 1, 0, 6, 1, 32, .ro, 0, false, []⟩
  | .ETH_STATUS_REMOTE_FAULT => ⟨.eth, 0x104, 10, 0x10000, 1, 0x0, 1, 0, 7, 1, 32, .ro, 0, false, []⟩
  | .ETH_STATUS_LINK_DOWNS => ⟨.eth, 0x104, 10, 0x10000, 1, 0x0, 1, 0, 16, 16, 32, .ro, 0, false, []⟩
  | .ETH_RX_CLASS_DESC => ⟨.eth, 0x108, 10, 0x10000, 1, 0x0, 1, 0, 0, 8, 32, .rws, 0xFF, true, []⟩
  | .ETH_RX_CLASS_DEFAULT => ⟨.eth, 0x108, 10, 0x10000, 1, 0x0, 1, 0, 8, 17, 32, .rws, 0, true, []⟩
  | .ETH_PTP_ENABLE => ⟨.eth, 0x10C, 10, 0x10000, 1, 0x0, 1, 0, 0, 1, 32, .rw, 1, true, []⟩
  | .ETH_PTP_TC => ⟨.eth, 0x10C, 10, 0x10000, 1, 0x0, 1, 0, 1, 3, 32, .rws, 7, true, []⟩
  | .ETH_PTP_ASYM_ASYM_PS => ⟨.eth, 0x110, 10, 0x10000, 1, 0x0, 1, 0, 0, 32, 32, .rws, 0, true, []⟩
  | .ETH_SLU_CFG_GATE_EN => ⟨.eth, 0x120, 10, 0x10000, 1, 0x0, 1, 0, 0, 1, 32, .rws, 0, true, []⟩
  | .ETH_SLU_CFG_LIST_LEN => ⟨.eth, 0x120, 10, 0x10000, 1, 0x0, 1, 0, 16, 11, 32, .rws, 0, true, [(1025, 2047)]⟩
  | .ETH_SLU_CYCLE_CYCLE_NS => ⟨.eth, 0x124, 10, 0x10000, 1, 0x0, 1, 0, 0, 32, 32, .rws, 0, true, []⟩
  | .ETH_SLU_EXT_EXT_NS => ⟨.eth, 0x128, 10, 0x10000, 1, 0x0, 1, 0, 0, 32, 32, .rws, 0, true, []⟩
  | .ETH_SLU_BASE_BASE => ⟨.eth, 0x130, 10, 0x10000, 1, 0x0, 1, 0, 0, 64, 64, .rws, 0, true, []⟩
  | .ETH_SLU_STATUS_GATES => ⟨.eth, 0x138, 10, 0x10000, 1, 0x0, 1, 0, 0, 8, 32, .ro, 0xFF, false, []⟩
  | .ETH_SLU_STATUS_OPER_EN => ⟨.eth, 0x138, 10, 0x10000, 1, 0x0, 1, 0, 8, 1, 32, .ro, 0, false, []⟩
  | .ETH_SLU_STATUS_CHANGE_PENDING => ⟨.eth, 0x138, 10, 0x10000, 1, 0x0, 1, 0, 9, 1, 32, .ro, 0, false, []⟩
  | .ETH_SLU_STATUS_ENTRY => ⟨.eth, 0x138, 10, 0x10000, 1, 0x0, 1, 0, 16, 10, 32, .ro, 0, false, []⟩
  | .ETH_SLU_CHANGE_TIME => ⟨.eth, 0x140, 10, 0x10000, 1, 0x0, 1, 0, 0, 64, 64, .ro, 0, false, []⟩
  | .ETH_SLU_OPER_BASE_BASE => ⟨.eth, 0x148, 10, 0x10000, 1, 0x0, 1, 0, 0, 64, 64, .ro, 0, false, []⟩
  | .ETH_SLU_OPER_CYCLE_CYCLE_NS => ⟨.eth, 0x150, 10, 0x10000, 1, 0x0, 1, 0, 0, 32, 32, .ro, 0, false, []⟩
  | .ETH_RX_FRAMES_FRAMES => ⟨.eth, 0x160, 10, 0x10000, 1, 0x0, 1, 0, 0, 64, 64, .ro, 0, false, []⟩
  | .ETH_TX_FRAMES_FRAMES => ⟨.eth, 0x168, 10, 0x10000, 1, 0x0, 1, 0, 0, 64, 64, .ro, 0, false, []⟩
  | .ETH_RX_FCS_FRAMES => ⟨.eth, 0x170, 10, 0x10000, 1, 0x0, 1, 0, 0, 32, 32, .ro, 0, false, []⟩
  | .ETH_RX_RUNT_FRAMES => ⟨.eth, 0x174, 10, 0x10000, 1, 0x0, 1, 0, 0, 32, 32, .ro, 0, false, []⟩
  | .ETH_RX_LONG_FRAMES => ⟨.eth, 0x178, 10, 0x10000, 1, 0x0, 1, 0, 0, 32, 32, .ro, 0, false, []⟩
  | .ETH_RX_MACCTL_FRAMES => ⟨.eth, 0x17C, 10, 0x10000, 1, 0x0, 1, 0, 0, 32, 32, .ro, 0, false, []⟩
  | .ETH_TX_BAD_FRAMES => ⟨.eth, 0x180, 10, 0x10000, 1, 0x0, 1, 0, 0, 32, 32, .ro, 0, false, []⟩
  | .ETH_TX_OVERSIZE_UNITS => ⟨.eth, 0x184, 10, 0x10000, 1, 0x0, 1, 0, 0, 32, 32, .ro, 0, false, []⟩
  | .ETH_TC_IDLE_SLOPE_KBPS => ⟨.eth, 0x400, 10, 0x10000, 8, 0x10, 1, 0, 0, 32, 128, .rws, 0, true, []⟩
  | .ETH_TC_BURST => ⟨.eth, 0x400, 10, 0x10000, 8, 0x10, 1, 0, 32, 24, 128, .rws, 0, true, []⟩
  | .ETH_TC_CBS_EN => ⟨.eth, 0x400, 10, 0x10000, 8, 0x10, 1, 0, 56, 1, 128, .rws, 0, true, []⟩
  | .ETH_TC_RESET_TO => ⟨.eth, 0x400, 10, 0x10000, 8, 0x10, 1, 0, 57, 1, 128, .rws, 0, true, []⟩
  | .ETH_TC_MAX_SDU => ⟨.eth, 0x400, 10, 0x10000, 8, 0x10, 1, 0, 64, 14, 128, .rws, 0x2580, true, [(0, 63), (9601, 16383)]⟩
  | .ETH_TC_CREDIT => ⟨.eth, 0x400, 10, 0x10000, 8, 0x10, 1, 0, 96, 32, 128, .ro, 0, false, []⟩
  | .ETH_SLU_LIST_GATES => ⟨.eth, 0x2000, 10, 0x10000, 1024, 0x8, 1, 0, 0, 8, 64, .rws, 0, true, []⟩
  | .ETH_SLU_LIST_INTERVAL_NS => ⟨.eth, 0x2000, 10, 0x10000, 1024, 0x8, 1, 0, 8, 32, 64, .rws, 0, true, []⟩
  | .ETH_SLU_OPER_ENTRY => ⟨.eth, 0x4000, 10, 0x10000, 1024, 0x8, 1, 0, 0, 40, 64, .ro, 0, false, []⟩
  -- R316
  | .ETH_SERDES_TX_PRE => ⟨.eth, 0x200, 10, 0x10000, 1, 0x0, 1, 0, 0, 6, 32, .rwe, 0, false, []⟩
  | .ETH_SERDES_TX_POST => ⟨.eth, 0x200, 10, 0x10000, 1, 0x0, 1, 0, 8, 6, 32, .rwe, 4, false, []⟩
  | .ETH_SERDES_TX_INVERT => ⟨.eth, 0x200, 10, 0x10000, 1, 0x0, 1, 0, 16, 1, 32, .rwe, 0, true, []⟩
  | .ETH_SERDES_RX_INVERT => ⟨.eth, 0x200, 10, 0x10000, 1, 0x0, 1, 0, 17, 1, 32, .rwe, 0, true, []⟩
  | .ETH_GUARD_MARGIN_NS => ⟨.eth, 0x204, 10, 0x10000, 1, 0x0, 1, 0, 0, 16, 32, .rwers, 0, true, []⟩
  | .ETH_PTP_LAT_TX_LAT => ⟨.eth, 0x208, 10, 0x10000, 1, 0x0, 1, 0, 0, 16, 32, .rwers, 0, true, []⟩
  | .ETH_PTP_LAT_RX_LAT => ⟨.eth, 0x208, 10, 0x10000, 1, 0x0, 1, 0, 16, 16, 32, .rwers, 0, true, []⟩
  -- R317
  | .RAK_METER_TYPE => ⟨.rak, 0x10000, 1, 0x0, 16384, 0x20, 1, 0, 0, 2, 256, .rws, 0, true, [(3, 3)]⟩
  | .RAK_METER_ALG => ⟨.rak, 0x10000, 1, 0x0, 16384, 0x20, 1, 0, 2, 1, 256, .rws, 0, true, []⟩
  | .RAK_METER_RESET_TO => ⟨.rak, 0x10000, 1, 0x0, 16384, 0x20, 1, 0, 3, 1, 256, .rws, 0, true, []⟩
  | .RAK_METER_SLOT => ⟨.rak, 0x10000, 1, 0x0, 16384, 0x20, 1, 0, 16, 14, 256, .rws, 0, true, []⟩
  | .RAK_METER_CIR_KBPS => ⟨.rak, 0x10000, 1, 0x0, 16384, 0x20, 1, 0, 32, 32, 256, .rws, 0, true, []⟩
  | .RAK_METER_PIR_KBPS => ⟨.rak, 0x10000, 1, 0x0, 16384, 0x20, 1, 0, 64, 32, 256, .rws, 0, true, []⟩
  | .RAK_METER_CBS => ⟨.rak, 0x10000, 1, 0x0, 16384, 0x20, 1, 0, 96, 24, 256, .rws, 0, true, []⟩
  | .RAK_METER_PBS => ⟨.rak, 0x10000, 1, 0x0, 16384, 0x20, 1, 0, 128, 24, 256, .rws, 0, true, []⟩
  | .RAK_METER_OLD_REFS => ⟨.rak, 0x10000, 1, 0x0, 16384, 0x20, 1, 0, 160, 14, 256, .ro, 0, false, []⟩
  | .RAK_METER_TOKENS_C => ⟨.rak, 0x10000, 1, 0x0, 16384, 0x20, 1, 0, 192, 32, 256, .ro, 0, false, []⟩
  | .RAK_METER_TOKENS_P => ⟨.rak, 0x10000, 1, 0x0, 16384, 0x20, 1, 0, 224, 32, 256, .ro, 0, false, []⟩
  | .RAK_METER_STAT_GREEN => ⟨.rak, 0x90000, 1, 0x0, 16384, 0x10, 1, 0, 0, 32, 96, .ro, 0, false, []⟩
  | .RAK_METER_STAT_YELLOW => ⟨.rak, 0x90000, 1, 0x0, 16384, 0x10, 1, 0, 32, 32, 96, .ro, 0, false, []⟩
  | .RAK_METER_STAT_RED => ⟨.rak, 0x90000, 1, 0x0, 16384, 0x10, 1, 0, 64, 32, 96, .ro, 0, false, []⟩
  | .RAK_STREAM_BLOCK_EN => ⟨.rak, 0xD0000, 1, 0x0, 4096, 0x10, 1, 0, 0, 1, 128, .rws, 0, true, []⟩
  | .RAK_STREAM_BLOCKED => ⟨.rak, 0xD0000, 1, 0x0, 4096, 0x10, 1, 0, 1, 1, 128, .w1c, 0, true, []⟩
  | .RAK_STREAM_MATCHED => ⟨.rak, 0xD0000, 1, 0x0, 4096, 0x10, 1, 0, 32, 32, 128, .ro, 0, false, []⟩
  | .RAK_STREAM_OVERSIZE => ⟨.rak, 0xD0000, 1, 0x0, 4096, 0x10, 1, 0, 64, 32, 128, .ro, 0, false, []⟩
  | .RAK_STREAM_RED => ⟨.rak, 0xD0000, 1, 0x0, 4096, 0x10, 1, 0, 96, 32, 128, .ro, 0, false, []⟩
  -- R346
  | .SPI_CFG_ENABLE => ⟨.loc, 0x100000, 2, 0x10000, 1, 0x0, 1, 0, 0, 1, 32, .rw, 0, true, []⟩
  | .SPI_CFG_MODE => ⟨.loc, 0x100000, 2, 0x10000, 1, 0x0, 1, 0, 1, 2, 32, .rw, 0, true, []⟩
  | .SPI_CFG_LSB_FIRST => ⟨.loc, 0x100000, 2, 0x10000, 1, 0x0, 1, 0, 3, 1, 32, .rw, 0, true, []⟩
  | .SPI_CFG_DIV => ⟨.loc, 0x100000, 2, 0x10000, 1, 0x0, 1, 0, 8, 8, 32, .rw, 3, true, [(0, 0)]⟩
  | .SPI_CFG_CS_POL => ⟨.loc, 0x100000, 2, 0x10000, 1, 0x0, 1, 0, 16, 4, 32, .rw, 0, true, []⟩
  | .SPI_CFG_CS_GAP => ⟨.loc, 0x100000, 2, 0x10000, 1, 0x0, 1, 0, 20, 8, 32, .rw, 2, true, []⟩
  | .SPI_FILL_BYTE => ⟨.loc, 0x100004, 2, 0x10000, 1, 0x0, 1, 0, 0, 8, 32, .rw, 0xFF, true, []⟩
  | .SPI_STATUS_BUSY => ⟨.loc, 0x100008, 2, 0x10000, 1, 0x0, 1, 0, 0, 1, 32, .ro, 0, true, []⟩
  | .SPI_STATUS_TRANSFERS => ⟨.loc, 0x100008, 2, 0x10000, 1, 0x0, 1, 0, 16, 16, 32, .ro, 0, true, []⟩
  | .I2C_CFG_ENABLE => ⟨.loc, 0x120000, 4, 0x10000, 1, 0x0, 1, 0, 0, 1, 32, .rw, 0, true, []⟩
  | .I2C_CFG_SPEED => ⟨.loc, 0x120000, 4, 0x10000, 1, 0x0, 1, 0, 1, 2, 32, .rw, 1, true, [(3, 3)]⟩
  | .I2C_CFG_REG16 => ⟨.loc, 0x120000, 4, 0x10000, 1, 0x0, 1, 0, 3, 1, 32, .rw, 0, true, []⟩
  | .I2C_CFG_STRETCH_MS => ⟨.loc, 0x120000, 4, 0x10000, 1, 0x0, 1, 0, 8, 8, 32, .rw, 0xA, true, [(0, 0)]⟩
  | .I2C_STATUS_BUSY => ⟨.loc, 0x120004, 4, 0x10000, 1, 0x0, 1, 0, 0, 1, 32, .ro, 0, true, []⟩
  | .I2C_STATUS_LAST_ERR => ⟨.loc, 0x120004, 4, 0x10000, 1, 0x0, 1, 0, 1, 3, 32, .ro, 0, true, [(5, 7)]⟩
  | .I2C_STATUS_ERRORS => ⟨.loc, 0x120004, 4, 0x10000, 1, 0x0, 1, 0, 16, 16, 32, .ro, 0, true, []⟩
  | .UART_CFG_ENABLE => ⟨.loc, 0x160000, 2, 0x10000, 1, 0x0, 1, 0, 0, 1, 32, .rw, 0, true, []⟩
  | .UART_CFG_PARITY => ⟨.loc, 0x160000, 2, 0x10000, 1, 0x0, 1, 0, 1, 1, 32, .rw, 0, true, []⟩
  | .UART_CFG_ODD => ⟨.loc, 0x160000, 2, 0x10000, 1, 0x0, 1, 0, 2, 1, 32, .rw, 0, true, []⟩
  | .UART_CFG_STOP2 => ⟨.loc, 0x160000, 2, 0x10000, 1, 0x0, 1, 0, 3, 1, 32, .rw, 0, true, []⟩
  | .UART_CFG_DATA7 => ⟨.loc, 0x160000, 2, 0x10000, 1, 0x0, 1, 0, 4, 1, 32, .rw, 0, true, []⟩
  | .UART_CFG_DIV => ⟨.loc, 0x160000, 2, 0x10000, 1, 0x0, 1, 0, 11, 21, 32, .rw, 0x6C8, true, [(0, 33), (666667, 2097151)]⟩
  | .UART_STATUS_RX_LEVEL => ⟨.loc, 0x160004, 2, 0x10000, 1, 0x0, 1, 0, 0, 9, 32, .ro, 0, true, []⟩
  | .UART_STATUS_TX_FREE => ⟨.loc, 0x160004, 2, 0x10000, 1, 0x0, 1, 0, 16, 9, 32, .ro, 0x100, true, []⟩
  | .UART_ERRORS_PARITY => ⟨.loc, 0x160008, 2, 0x10000, 1, 0x0, 1, 0, 0, 8, 32, .ro, 0, true, []⟩
  | .UART_ERRORS_FRAMING => ⟨.loc, 0x160008, 2, 0x10000, 1, 0x0, 1, 0, 8, 8, 32, .ro, 0, true, []⟩
  | .UART_ERRORS_OVERRUN => ⟨.loc, 0x160008, 2, 0x10000, 1, 0x0, 1, 0, 16, 8, 32, .ro, 0, true, []⟩
  -- R348
  | .BRG_CFG_BOND => ⟨.brg, 0x100, 1, 0x0, 1, 0x0, 1, 0, 0, 3, 32, .rw, 0, true, [(5, 7)]⟩
  | .BRG_CFG_EMU_WAIT_US => ⟨.brg, 0x100, 1, 0x0, 1, 0x0, 1, 0, 8, 8, 32, .rws, 0x64, true, [(0, 0)]⟩
  | .BRG_PWERR_STATUS_COUNT => ⟨.brg, 0x104, 1, 0x0, 1, 0x0, 1, 0, 0, 5, 32, .ro, 0, true, []⟩
  | .BRG_PWERR_STATUS_OVERFLOW => ⟨.brg, 0x104, 1, 0x0, 1, 0x0, 1, 0, 8, 1, 32, .w1c, 0, true, []⟩
  | .BRG_PWERR_ENTRY_ADDRESS => ⟨.brg, 0x110, 1, 0x0, 1, 0x0, 1, 0, 0, 48, 128, .ro, 0, true, []⟩
  | .BRG_PWERR_ENTRY_SOURCE => ⟨.brg, 0x110, 1, 0x0, 1, 0x0, 1, 0, 48, 4, 128, .ro, 0, true, []⟩
  | .BRG_PWERR_ENTRY_CAUSE => ⟨.brg, 0x110, 1, 0x0, 1, 0x0, 1, 0, 52, 4, 128, .ro, 0, true, []⟩
  | .BRG_PWERR_ENTRY_CHANNEL => ⟨.brg, 0x110, 1, 0x0, 1, 0x0, 1, 0, 64, 17, 128, .ro, 0, true, []⟩
  | .BRG_PWERR_ENTRY_MOMENT_LO => ⟨.brg, 0x110, 1, 0x0, 1, 0x0, 1, 0, 96, 32, 128, .ro, 0, true, []⟩
  | .BRG_PWERR_VEC_VECTOR => ⟨.brg, 0x120, 1, 0x0, 1, 0x0, 1, 0, 0, 11, 32, .rw, 0, true, []⟩
  | .BRG_PWERR_VEC_CTRL => ⟨.brg, 0x120, 1, 0x0, 1, 0x0, 1, 0, 12, 2, 32, .rw, 0, true, []⟩
  | .BRG_PWERR_VEC_EN => ⟨.brg, 0x120, 1, 0x0, 1, 0x0, 1, 0, 15, 1, 32, .rw, 0, true, []⟩
  | .BRG_DISCARD_STATUS_NEXT => ⟨.brg, 0x130, 1, 0x0, 1, 0x0, 1, 0, 0, 5, 32, .ro, 0, true, []⟩
  | .BRG_DISCARD_STATUS_COUNT => ⟨.brg, 0x130, 1, 0x0, 1, 0x0, 1, 0, 16, 16, 32, .ro, 0, true, []⟩
  | .BRG_MSG_REFUSED_MESSAGES => ⟨.brg, 0x134, 1, 0x0, 1, 0x0, 1, 0, 0, 32, 32, .ro, 0, true, []⟩
  | .BRG_VEC_MAP_VECTOR => ⟨.brg, 0x400, 1, 0x0, 128, 0x4, 1, 0, 0, 11, 32, .rw, 0, true, []⟩
  | .BRG_VEC_MAP_CTRL => ⟨.brg, 0x400, 1, 0x0, 128, 0x4, 1, 0, 12, 2, 32, .rw, 0, true, []⟩
  | .BRG_VEC_MAP_EN => ⟨.brg, 0x400, 1, 0x0, 128, 0x4, 1, 0, 15, 1, 32, .rw, 0, true, []⟩
  | .BRG_REGION_BASE => ⟨.brg, 0x1000, 1, 0x0, 64, 0x20, 1, 0, 12, 36, 256, .rws, 0, true, []⟩
  | .BRG_REGION_SIZE => ⟨.brg, 0x1000, 1, 0x0, 64, 0x20, 1, 0, 48, 6, 256, .rws, 0xC, true, [(0, 11), (48, 63)]⟩
  | .BRG_REGION_KIND => ⟨.brg, 0x1000, 1, 0x0, 64, 0x20, 1, 0, 56, 3, 256, .rws, 0, true, []⟩
  | .BRG_REGION_CTRL => ⟨.brg, 0x1000, 1, 0x0, 64, 0x20, 1, 0, 60, 2, 256, .rws, 0, true, []⟩
  | .BRG_REGION_TARGET => ⟨.brg, 0x1000, 1, 0x0, 64, 0x20, 1, 0, 64, 64, 256, .rws, 0, true, []⟩
  | .BRG_REGION_READ => ⟨.brg, 0x1000, 1, 0x0, 64, 0x20, 1, 0, 128, 1, 256, .rws, 0, true, []⟩
  | .BRG_REGION_WRITE => ⟨.brg, 0x1000, 1, 0x0, 64, 0x20, 1, 0, 129, 1, 256, .rws, 0, true, []⟩
  | .BRG_REGION_PREFETCH => ⟨.brg, 0x1000, 1, 0x0, 64, 0x20, 1, 0, 130, 1, 256, .rws, 0, true, []⟩
  | .BRG_REGION_ATOMIC => ⟨.brg, 0x1000, 1, 0x0, 64, 0x20, 1, 0, 131, 1, 256, .rws, 0, true, []⟩
  | .BRG_REGION_SEM => ⟨.brg, 0x1000, 1, 0x0, 64, 0x20, 1, 0, 132, 7, 256, .rws, 0x7F, true, [(64, 126)]⟩
  | .BRG_REGION_PF_LOG2 => ⟨.brg, 0x1000, 1, 0x0, 64, 0x20, 1, 0, 144, 4, 256, .rws, 6, true, [(0, 5), (13, 15)]⟩
  | .BRG_REGION_OLD_REFS => ⟨.brg, 0x1000, 1, 0x0, 64, 0x20, 1, 0, 160, 16, 256, .ro, 0, true, []⟩
  | .BRG_DISCARD_ADDRESS => ⟨.brg, 0x2000, 1, 0x0, 32, 0x10, 1, 0, 0, 48, 128, .ro, 0, true, []⟩
  | .BRG_DISCARD_REGION => ⟨.brg, 0x2000, 1, 0x0, 32, 0x10, 1, 0, 48, 6, 128, .ro, 0, true, []⟩
  | .BRG_DISCARD_MOMENT_LO => ⟨.brg, 0x2000, 1, 0x0, 32, 0x10, 1, 0, 64, 32, 128, .ro, 0, true, []⟩
  | .BRG_DISCARD_LENGTH => ⟨.brg, 0x2000, 1, 0x0, 32, 0x10, 1, 0, 96, 13, 128, .ro, 0, true, []⟩
  | .BRG_SEM_BASE => ⟨.brg, 0x3000, 1, 0x0, 64, 0x10, 1, 0, 0, 48, 128, .rws, 0, true, []⟩
  | .BRG_SEM_SIZE => ⟨.brg, 0x3000, 1, 0x0, 64, 0x10, 1, 0, 64, 32, 128, .rws, 0, true, []⟩
  | .BRG_SEM_LEASE_US => ⟨.brg, 0x3000, 1, 0x0, 64, 0x10, 1, 0, 96, 16, 128, .rws, 0x64, true, [(0, 0)]⟩
  | .BRG_SEM_HELD => ⟨.brg, 0x3000, 1, 0x0, 64, 0x10, 1, 0, 112, 1, 128, .ro, 0, true, []⟩
  | .BRG_SEM_TAINTED => ⟨.brg, 0x3000, 1, 0x0, 64, 0x10, 1, 0, 113, 1, 128, .w1c, 0, true, []⟩
  | .BRG_SEM_OWNER => ⟨.brg, 0x3000, 1, 0x0, 64, 0x10, 1, 0, 116, 12, 128, .ro, 0xFFF, true, []⟩
  | .MOV_RING_BASE_BASE => ⟨.brg, 0x4000, 1, 0x0, 16, 0x40, 1, 0, 5, 43, 64, .rw, 0, true, []⟩
  | .MOV_RING_CFG_LOG2 => ⟨.brg, 0x4008, 1, 0x0, 16, 0x40, 1, 0, 0, 4, 32, .rw, 4, true, [(0, 3)]⟩
  | .MOV_HEAD_HEAD => ⟨.brg, 0x400C, 1, 0x0, 16, 0x40, 1, 0, 0, 15, 32, .ro, 0, true, []⟩
  | .MOV_TAIL_TAIL => ⟨.brg, 0x4010, 1, 0x0, 16, 0x40, 1, 0, 0, 15, 32, .rw, 0, true, []⟩
  | .MOV_STATE_STATE => ⟨.brg, 0x4014, 1, 0x0, 16, 0x40, 1, 0, 0, 2, 32, .ro, 0, true, [(3, 3)]⟩
  | .MOV_CMD_RESTART => ⟨.brg, 0x4018, 1, 0x0, 16, 0x40, 1, 0, 0, 1, 32, .wo, 0, true, []⟩
  | .MOV_BYTES_BYTES => ⟨.brg, 0x4020, 1, 0x0, 16, 0x40, 1, 0, 0, 64, 64, .ro, 0, true, []⟩
  -- R349
  | .PCI_CFG_ENABLE => ⟨.pci, 0x100, 4, 0x40000, 1, 0x0, 1, 0, 0, 1, 32, .rw, 0, true, []⟩
  | .PCI_CFG_ROLE => ⟨.pci, 0x100, 4, 0x40000, 1, 0x0, 1, 0, 1, 1, 32, .rw, 0, true, []⟩
  | .PCI_CFG_MAX_RATE => ⟨.pci, 0x100, 4, 0x40000, 1, 0x0, 1, 0, 2, 3, 32, .rws, 5, true, [(0, 0), (6, 7)]⟩
  | .PCI_STATUS_LINK_UP => ⟨.pci, 0x104, 4, 0x40000, 1, 0x0, 1, 0, 0, 1, 32, .ro, 0, true, []⟩
  | .PCI_STATUS_RATE => ⟨.pci, 0x104, 4, 0x40000, 1, 0x0, 1, 0, 1, 3, 32, .ro, 0, true, []⟩
  | .PCI_STATUS_WIDTH => ⟨.pci, 0x104, 4, 0x40000, 1, 0x0, 1, 0, 4, 5, 32, .ro, 0, true, []⟩
  | .PCI_STATUS_TAG10 => ⟨.pci, 0x104, 4, 0x40000, 1, 0x0, 1, 0, 9, 1, 32, .ro, 0, true, []⟩
  | .PCI_STATUS_LINK_DOWNS => ⟨.pci, 0x104, 4, 0x40000, 1, 0x0, 1, 0, 16, 16, 32, .ro, 0, true, []⟩
  | .PCI_BAR4_LOG2_SIZE => ⟨.pci, 0x108, 4, 0x40000, 1, 0x0, 1, 0, 0, 6, 64, .rw, 0x1E, true, [(0, 29), (37, 63)]⟩
  | .PCI_BAR4_OFFSET => ⟨.pci, 0x108, 4, 0x40000, 1, 0x0, 1, 0, 30, 34, 64, .rw, 0, true, []⟩
  | .PCI_RX_CLASS_DESC => ⟨.pci, 0x110, 4, 0x40000, 1, 0x0, 1, 0, 0, 8, 32, .rws, 0xFF, true, []⟩
  | .PCI_RX_CLASS_DEFAULT => ⟨.pci, 0x110, 4, 0x40000, 1, 0x0, 1, 0, 8, 17, 32, .rws, 0, true, []⟩
  | .PCI_TAGS_IN_USE => ⟨.pci, 0x114, 4, 0x40000, 1, 0x0, 1, 0, 0, 11, 32, .ro, 0, true, []⟩
  | .PCI_TAGS_WAITS => ⟨.pci, 0x114, 4, 0x40000, 1, 0x0, 1, 0, 16, 16, 32, .ro, 0, true, []⟩
  | .PCI_CPL_TIMEOUTS_COUNT => ⟨.pci, 0x118, 4, 0x40000, 1, 0x0, 1, 0, 0, 32, 32, .ro, 0, true, []⟩
  | .PCI_LATE_CPL_COUNT => ⟨.pci, 0x11C, 4, 0x40000, 1, 0x0, 1, 0, 0, 32, 32, .ro, 0, true, []⟩
  | .PCI_UR_SENT_COUNT => ⟨.pci, 0x120, 4, 0x40000, 1, 0x0, 1, 0, 0, 32, 32, .ro, 0, true, []⟩
  -- R350
  | .PCI_CREDITS_PH => ⟨.pci, 0x200, 4, 0x40000, 1, 0x0, 1, 0, 0, 8, 32, .rwers, 0x80, true, []⟩
  | .PCI_CREDITS_NPH => ⟨.pci, 0x200, 4, 0x40000, 1, 0x0, 1, 0, 8, 8, 32, .rwers, 0x40, true, []⟩
  | .PCI_CREDITS_PD => ⟨.pci, 0x200, 4, 0x40000, 1, 0x0, 1, 0, 16, 12, 32, .rwers, 0x400, true, []⟩
  | .PCI_NPD_NPD => ⟨.pci, 0x204, 4, 0x40000, 1, 0x0, 1, 0, 0, 12, 32, .rwers, 0x40, true, []⟩
  | .PCI_MPS_MPS => ⟨.pci, 0x208, 4, 0x40000, 1, 0x0, 1, 0, 0, 3, 32, .rwers, 0, true, []⟩
  | .PCI_MPS_MRRS => ⟨.pci, 0x208, 4, 0x40000, 1, 0x0, 1, 0, 4, 3, 32, .rwers, 0, true, [(6, 7)]⟩
  -- R371
  | .SIG_CFG_ENABLE => ⟨.sig, 0x100, 1, 0x0, 1, 0x0, 1, 0, 0, 1, 32, .rw, 0, true, []⟩
  | .SIG_MAP_BASE_BASE => ⟨.sig, 0x108, 1, 0x0, 1, 0x0, 1, 0, 5, 43, 64, .rw, 0, true, []⟩
  | .SIG_MAP_CFG_COUNT => ⟨.sig, 0x110, 1, 0x0, 1, 0x0, 1, 0, 0, 15, 32, .rw, 0, true, [(16385, 32767)]⟩
  | .SIG_STORE_BASE_BASE => ⟨.sig, 0x118, 1, 0x0, 1, 0x0, 1, 0, 5, 43, 64, .rw, 0, true, []⟩
  | .SIG_STORE_CFG_SLOTS => ⟨.sig, 0x120, 1, 0x0, 1, 0x0, 1, 0, 0, 17, 32, .rw, 0, true, [(65537, 131071)]⟩
  | .SIG_STATUS_CYCLIC => ⟨.sig, 0x124, 1, 0x0, 1, 0x0, 1, 0, 0, 13, 32, .ro, 0, false, []⟩
  | .SIG_UPDATES_WRITES => ⟨.sig, 0x128, 1, 0x0, 1, 0x0, 1, 0, 0, 32, 32, .ro, 0, false, []⟩
  | .SIG_SENDS_UNITS => ⟨.sig, 0x12C, 1, 0x0, 1, 0x0, 1, 0, 0, 32, 32, .ro, 0, false, []⟩
  | .SIG_REFUSED_UNITS => ⟨.sig, 0x130, 1, 0x0, 1, 0x0, 1, 0, 0, 32, 32, .ro, 0, false, []⟩
  | .SIG_SHORT_FIELDS => ⟨.sig, 0x134, 1, 0x0, 1, 0x0, 1, 0, 0, 32, 32, .ro, 0, false, []⟩
  | .SIG_NAN_FIELDS => ⟨.sig, 0x138, 1, 0x0, 1, 0x0, 1, 0, 0, 32, 32, .ro, 0, false, []⟩
  | .SIG_GPIO_BOUNCE_EDGES => ⟨.sig, 0x13C, 1, 0x0, 1, 0x0, 1, 0, 0, 32, 32, .ro, 0, false, []⟩
  | .SIG_GPIO_LOST_EDGES => ⟨.sig, 0x140, 1, 0x0, 1, 0x0, 1, 0, 0, 32, 32, .ro, 0, false, []⟩
  | .SIG_GPIO_LINE_CHANNEL => ⟨.sig, 0x400, 1, 0x0, 48, 0x8, 1, 0, 0, 17, 64, .rws, 0, true, []⟩
  | .SIG_GPIO_LINE_RISE => ⟨.sig, 0x400, 1, 0x0, 48, 0x8, 1, 0, 17, 1, 64, .rws, 0, true, []⟩
  | .SIG_GPIO_LINE_FALL => ⟨.sig, 0x400, 1, 0x0, 48, 0x8, 1, 0, 18, 1, 64, .rws, 0, true, []⟩
  | .SIG_GPIO_LINE_DEBOUNCE_US => ⟨.sig, 0x400, 1, 0x0, 48, 0x8, 1, 0, 24, 8, 64, .rws, 0xA, true, []⟩
  -- R372
  | .SIG_POLICY_CHANGE_ON_QUAL => ⟨.sig, 0x200, 1, 0x0, 1, 0x0, 1, 0, 0, 1, 32, .rwers, 1, true, []⟩
  | .SIG_POLICY_NAN_SKIP => ⟨.sig, 0x200, 1, 0x0, 1, 0x0, 1, 0, 1, 1, 32, .rwers, 1, true, []⟩
  -- R373
  | .CAN_CFG_ENABLE => ⟨.can, 0x100, 8, 0x10000, 1, 0x0, 1, 0, 0, 1, 32, .rw, 0, true, []⟩
  | .CAN_CFG_FD => ⟨.can, 0x100, 8, 0x10000, 1, 0x0, 1, 0, 1, 1, 32, .rws, 1, true, []⟩
  | .CAN_CFG_LISTEN => ⟨.can, 0x100, 8, 0x10000, 1, 0x0, 1, 0, 2, 1, 32, .rws, 0, true, []⟩
  | .CAN_CFG_AUTO_RECOVER => ⟨.can, 0x100, 8, 0x10000, 1, 0x0, 1, 0, 3, 1, 32, .rws, 1, true, []⟩
  | .CAN_CFG_TX_TIMEOUT_MS => ⟨.can, 0x100, 8, 0x10000, 1, 0x0, 1, 0, 8, 8, 32, .rws, 0x64, true, []⟩
  | .CAN_NBT_BRP => ⟨.can, 0x104, 8, 0x10000, 1, 0x0, 1, 0, 0, 9, 32, .rws, 2, true, [(0, 0)]⟩
  | .CAN_NBT_TSEG1 => ⟨.can, 0x104, 8, 0x10000, 1, 0x0, 1, 0, 9, 8, 32, .rws, 0x3F, true, [(0, 0)]⟩
  | .CAN_NBT_TSEG2 => ⟨.can, 0x104, 8, 0x10000, 1, 0x0, 1, 0, 17, 7, 32, .rws, 0x10, true, [(0, 0)]⟩
  | .CAN_NBT_SJW => ⟨.can, 0x104, 8, 0x10000, 1, 0x0, 1, 0, 24, 7, 32, .rws, 0x10, true, [(0, 0)]⟩
  | .CAN_DBT_DBRP => ⟨.can, 0x108, 8, 0x10000, 1, 0x0, 1, 0, 0, 5, 32, .rws, 1, true, [(0, 0)]⟩
  | .CAN_DBT_DTSEG1 => ⟨.can, 0x108, 8, 0x10000, 1, 0x0, 1, 0, 8, 5, 32, .rws, 0xB, true, [(0, 0)]⟩
  | .CAN_DBT_DTSEG2 => ⟨.can, 0x108, 8, 0x10000, 1, 0x0, 1, 0, 16, 4, 32, .rws, 4, true, [(0, 0)]⟩
  | .CAN_DBT_DSJW => ⟨.can, 0x108, 8, 0x10000, 1, 0x0, 1, 0, 24, 4, 32, .rws, 4, true, [(0, 0)]⟩
  | .CAN_STATUS_STATE => ⟨.can, 0x110, 8, 0x10000, 1, 0x0, 1, 0, 0, 2, 32, .ro, 3, true, []⟩
  | .CAN_STATUS_TEC => ⟨.can, 0x110, 8, 0x10000, 1, 0x0, 1, 0, 8, 8, 32, .ro, 0, true, []⟩
  | .CAN_STATUS_REC => ⟨.can, 0x110, 8, 0x10000, 1, 0x0, 1, 0, 16, 8, 32, .ro, 0, true, []⟩
  | .CAN_STATUS_LEC => ⟨.can, 0x110, 8, 0x10000, 1, 0x0, 1, 0, 24, 3, 32, .ro, 0, true, [(7, 7)]⟩
  | .CAN_CMD_RESTART => ⟨.can, 0x114, 8, 0x10000, 1, 0x0, 1, 0, 0, 1, 32, .wo, 0, true, []⟩
  | .CAN_RX_FRAMES_FRAMES => ⟨.can, 0x118, 8, 0x10000, 1, 0x0, 1, 0, 0, 32, 32, .ro, 0, true, []⟩
  | .CAN_TX_FRAMES_FRAMES => ⟨.can, 0x11C, 8, 0x10000, 1, 0x0, 1, 0, 0, 32, 32, .ro, 0, true, []⟩
  | .CAN_RX_UNMATCHED_FRAMES => ⟨.can, 0x120, 8, 0x10000, 1, 0x0, 1, 0, 0, 32, 32, .ro, 0, true, []⟩
  | .CAN_RX_REMOTE_FRAMES => ⟨.can, 0x124, 8, 0x10000, 1, 0x0, 1, 0, 0, 32, 32, .ro, 0, true, []⟩
  | .CAN_TX_DROP_UNITS => ⟨.can, 0x128, 8, 0x10000, 1, 0x0, 1, 0, 0, 32, 32, .ro, 0, true, []⟩
  | .CAN_ERRORS_COUNT => ⟨.can, 0x12C, 8, 0x10000, 1, 0x0, 1, 0, 0, 32, 32, .ro, 0, true, []⟩
  | .CAN_FILTER_ID => ⟨.can, 0x1000, 8, 0x10000, 128, 0x10, 1, 0, 0, 29, 128, .rws, 0, true, []⟩
  | .CAN_FILTER_IDE => ⟨.can, 0x1000, 8, 0x10000, 128, 0x10, 1, 0, 29, 1, 128, .rws, 0, true, []⟩
  | .CAN_FILTER_MATCH_IDE => ⟨.can, 0x1000, 8, 0x10000, 128, 0x10, 1, 0, 30, 1, 128, .rws, 1, true, []⟩
  | .CAN_FILTER_VALID => ⟨.can, 0x1000, 8, 0x10000, 128, 0x10, 1, 0, 31, 1, 128, .rws, 0, true, []⟩
  | .CAN_FILTER_MASK => ⟨.can, 0x1000, 8, 0x10000, 128, 0x10, 1, 0, 32, 29, 128, .rws, 0, true, []⟩
  | .CAN_FILTER_CHANNEL => ⟨.can, 0x1000, 8, 0x10000, 128, 0x10, 1, 0, 64, 17, 128, .rws, 0, true, []⟩
  | .CAN_FILTER_HITS => ⟨.can, 0x1000, 8, 0x10000, 128, 0x10, 1, 0, 96, 32, 128, .ro, 0, true, []⟩
  -- R374
  | .CAN_TDC_TDCO => ⟨.can, 0x200, 8, 0x10000, 1, 0x0, 1, 0, 0, 7, 32, .rwers, 0xC, true, []⟩
  | .CAN_TDC_TDC_EN => ⟨.can, 0x200, 8, 0x10000, 1, 0x0, 1, 0, 8, 1, 32, .rwers, 1, true, []⟩
  | .CAN_TXBUF_BUFFERS => ⟨.can, 0x204, 8, 0x10000, 1, 0x0, 1, 0, 0, 4, 32, .rwers, 8, true, [(0, 0), (9, 15)]⟩
  -- R402
  | .DSP_CFG_LEASE_MODE => ⟨.dsp, 0x100, 1, 0x0, 1, 0x0, 1, 0, 0, 1, 32, .rws, 0, true, []⟩
  | .DSP_CFG_LOCK01 => ⟨.dsp, 0x100, 1, 0x0, 1, 0x0, 1, 0, 8, 1, 32, .rw, 0, true, []⟩
  | .DSP_CFG_LOCK23 => ⟨.dsp, 0x100, 1, 0x0, 1, 0x0, 1, 0, 9, 1, 32, .rw, 0, true, []⟩
  | .DSP_FS_BASE_BASE => ⟨.dsp, 0x108, 1, 0x0, 1, 0x0, 1, 0, 20, 28, 64, .rw, 0, true, []⟩
  | .DSP_FS_SIZE_MIB => ⟨.dsp, 0x110, 1, 0x0, 1, 0x0, 1, 0, 0, 13, 32, .rw, 0, true, [(4097, 8191)]⟩
  | .DSP_FETCH_USE_FETCH => ⟨.dsp, 0x114, 1, 0x0, 1, 0x0, 1, 0, 0, 16, 32, .ro, 0, false, []⟩
  | .DSP_LEASE_VIOL_WRITES => ⟨.dsp, 0x118, 1, 0x0, 1, 0x0, 1, 0, 0, 32, 32, .ro, 0, false, []⟩
  | .DSP_LEASE_WAITS_WRITES => ⟨.dsp, 0x11C, 1, 0x0, 1, 0x0, 1, 0, 0, 32, 32, .ro, 0, false, []⟩
  | .DSP_TILE_BAD_TILES => ⟨.dsp, 0x120, 1, 0x0, 1, 0x0, 1, 0, 0, 32, 32, .ro, 0, false, []⟩
  | .DSP_TILE_CLIP_TILES => ⟨.dsp, 0x124, 1, 0x0, 1, 0x0, 1, 0, 0, 32, 32, .ro, 0, false, []⟩
  | .DSP_MSG_REFUSED_MESSAGES => ⟨.dsp, 0x128, 1, 0x0, 1, 0x0, 1, 0, 0, 32, 32, .ro, 0, false, []⟩
  -- R403
  | .DSP_HCTRL_ENABLE => ⟨.dsp, 0x40000, 4, 0x10000, 1, 0x0, 1, 0, 0, 1, 32, .rws, 0, true, []⟩
  | .DSP_HCTRL_MUTE => ⟨.dsp, 0x40000, 4, 0x10000, 1, 0x0, 1, 0, 1, 1, 32, .rws, 0, true, []⟩
  | .DSP_HCTRL_COMMIT => ⟨.dsp, 0x40000, 4, 0x10000, 1, 0x0, 1, 0, 2, 1, 32, .wo, 0, false, []⟩
  | .DSP_HCTRL_ABANDON => ⟨.dsp, 0x40000, 4, 0x10000, 1, 0x0, 1, 0, 3, 1, 32, .wo, 0, false, []⟩
  | .DSP_HSTATUS_RESULT => ⟨.dsp, 0x40004, 4, 0x10000, 1, 0x0, 1, 0, 0, 4, 32, .ro, 0, false, []⟩
  | .DSP_HSTATUS_CAUSE => ⟨.dsp, 0x40004, 4, 0x10000, 1, 0x0, 1, 0, 4, 4, 32, .ro, 0, false, [(7, 15)]⟩
  | .DSP_HSTATUS_PENDING => ⟨.dsp, 0x40004, 4, 0x10000, 1, 0x0, 1, 0, 8, 1, 32, .ro, 0, false, []⟩
  | .DSP_HSTATUS_PSR_ACTIVE => ⟨.dsp, 0x40004, 4, 0x10000, 1, 0x0, 1, 0, 9, 1, 32, .ro, 0, false, []⟩
  | .DSP_HSTATUS_LOCKED => ⟨.dsp, 0x40004, 4, 0x10000, 1, 0x0, 1, 0, 10, 1, 32, .ro, 0, false, []⟩
  | .DSP_HSTATUS_SEQ => ⟨.dsp, 0x40004, 4, 0x10000, 1, 0x0, 1, 0, 16, 16, 32, .ro, 0, true, []⟩
  | .DSP_PCLK_KHZ => ⟨.dsp, 0x40008, 4, 0x10000, 1, 0x0, 1, 0, 0, 22, 32, .rws, 0x24414, true, []⟩
  | .DSP_ACTIVE_HACTIVE => ⟨.dsp, 0x4000C, 4, 0x10000, 1, 0x0, 1, 0, 0, 13, 32, .rws, 0x780, true, []⟩
  | .DSP_ACTIVE_VACTIVE => ⟨.dsp, 0x4000C, 4, 0x10000, 1, 0x0, 1, 0, 16, 13, 32, .rws, 0x438, true, []⟩
  | .DSP_HBLANK_HFP => ⟨.dsp, 0x40010, 4, 0x10000, 1, 0x0, 1, 0, 0, 10, 32, .rws, 0x58, true, []⟩
  | .DSP_HBLANK_HSYNC => ⟨.dsp, 0x40010, 4, 0x10000, 1, 0x0, 1, 0, 10, 10, 32, .rws, 0x2C, true, []⟩
  | .DSP_HBLANK_HBP => ⟨.dsp, 0x40010, 4, 0x10000, 1, 0x0, 1, 0, 20, 10, 32, .rws, 0x94, true, []⟩
  | .DSP_VBLANK_VFP => ⟨.dsp, 0x40014, 4, 0x10000, 1, 0x0, 1, 0, 0, 8, 32, .rws, 4, true, []⟩
  | .DSP_VBLANK_VSYNC => ⟨.dsp, 0x40014, 4, 0x10000, 1, 0x0, 1, 0, 8, 8, 32, .rws, 5, true, []⟩
  | .DSP_VBLANK_VBP => ⟨.dsp, 0x40014, 4, 0x10000, 1, 0x0, 1, 0, 16, 10, 32, .rws, 0x24, true, []⟩
  | .DSP_VBLANK_HPOL => ⟨.dsp, 0x40014, 4, 0x10000, 1, 0x0, 1, 0, 30, 1, 32, .rws, 1, true, []⟩
  | .DSP_VBLANK_VPOL => ⟨.dsp, 0x40014, 4, 0x10000, 1, 0x0, 1, 0, 31, 1, 32, .rws, 1, true, []⟩
  | .DSP_OUT_MODE => ⟨.dsp, 0x40018, 4, 0x10000, 1, 0x0, 1, 0, 0, 2, 32, .rws, 0, true, [(3, 3)]⟩
  | .DSP_OUT_BPC10 => ⟨.dsp, 0x40018, 4, 0x10000, 1, 0x0, 1, 0, 2, 1, 32, .rws, 0, true, []⟩
  | .DSP_OUT_ROUTE => ⟨.dsp, 0x40018, 4, 0x10000, 1, 0x0, 1, 0, 4, 3, 32, .rws, 0, true, [(7, 7)]⟩
  | .DSP_OUT_PSR_EN => ⟨.dsp, 0x40018, 4, 0x10000, 1, 0x0, 1, 0, 8, 1, 32, .rws, 0, true, []⟩
  | .DSP_OUT_PSR_FRAMES => ⟨.dsp, 0x40018, 4, 0x10000, 1, 0x0, 1, 0, 12, 4, 32, .rws, 2, true, [(0, 0)]⟩
  | .DSP_BG_RGB => ⟨.dsp, 0x4001C, 4, 0x10000, 1, 0x0, 1, 0, 0, 30, 32, .rws, 0, true, []⟩
  | .DSP_LINK_STATUS_UP => ⟨.dsp, 0x40020, 4, 0x10000, 1, 0x0, 1, 0, 0, 1, 32, .ro, 0, false, []⟩
  | .DSP_LINK_STATUS_RATE => ⟨.dsp, 0x40020, 4, 0x10000, 1, 0x0, 1, 0, 1, 3, 32, .ro, 0, false, []⟩
  | .DSP_LINK_STATUS_LANES => ⟨.dsp, 0x40020, 4, 0x10000, 1, 0x0, 1, 0, 4, 2, 32, .ro, 0, false, []⟩
  | .DSP_LINK_STATUS_PLL_LOCK => ⟨.dsp, 0x40020, 4, 0x10000, 1, 0x0, 1, 0, 6, 1, 32, .ro, 0, false, []⟩
  | .DSP_UNDERRUN_COUNT_LINES => ⟨.dsp, 0x40024, 4, 0x10000, 1, 0x0, 1, 0, 0, 32, 32, .ro, 0, false, []⟩
  | .DSP_FRAME_COUNT_FRAMES => ⟨.dsp, 0x40028, 4, 0x10000, 1, 0x0, 1, 0, 0, 32, 32, .ro, 0, false, []⟩
  | .DSP_FENCE_SEQ => ⟨.dsp, 0x4002C, 4, 0x10000, 1, 0x0, 1, 0, 0, 16, 32, .ro, 0, false, []⟩
  | .DSP_FENCE_ADDR_ADDR => ⟨.dsp, 0x40030, 4, 0x10000, 1, 0x0, 1, 0, 4, 44, 64, .rw, 0, true, []⟩
  | .DSP_LAYER_ENABLE => ⟨.dsp, 0x40100, 4, 0x10000, 13, 0x40, 1, 0, 0, 1, 256, .rws, 0, true, []⟩
  | .DSP_LAYER_FORMAT => ⟨.dsp, 0x40100, 4, 0x10000, 13, 0x40, 1, 0, 8, 8, 256, .rws, 5, true, [(8, 255)]⟩
  | .DSP_LAYER_GALPHA => ⟨.dsp, 0x40100, 4, 0x10000, 13, 0x40, 1, 0, 16, 8, 256, .rws, 0xFF, true, []⟩
  | .DSP_LAYER_FB => ⟨.dsp, 0x40100, 4, 0x10000, 13, 0x40, 1, 0, 64, 48, 256, .rws, 0, true, []⟩
  | .DSP_LAYER_STRIDE => ⟨.dsp, 0x40100, 4, 0x10000, 13, 0x40, 1, 0, 128, 16, 256, .rws, 0, true, []⟩
  | .DSP_LAYER_WIDTH => ⟨.dsp, 0x40100, 4, 0x10000, 13, 0x40, 1, 0, 160, 13, 256, .rws, 0, true, []⟩
  | .DSP_LAYER_HEIGHT => ⟨.dsp, 0x40100, 4, 0x10000, 13, 0x40, 1, 0, 176, 13, 256, .rws, 0, true, []⟩
  | .DSP_LAYER_X => ⟨.dsp, 0x40100, 4, 0x10000, 13, 0x40, 1, 0, 192, 13, 256, .rws, 0, true, []⟩
  | .DSP_LAYER_Y => ⟨.dsp, 0x40100, 4, 0x10000, 13, 0x40, 1, 0, 208, 13, 256, .rws, 0, true, []⟩
  | .DSP_PAL_ARGB => ⟨.dsp, 0x41000, 4, 0x10000, 9, 0x400, 256, 32, 0, 32, 32, .rws, 0, true, []⟩
  -- R404
  | .DSP_FETCH_BUDGET_BUDGET => ⟨.dsp, 0x200, 1, 0x0, 1, 0x0, 1, 0, 0, 16, 32, .rwers, 0x168, true, [(0, 0), (361, 65535)]⟩
  | .DSP_LINK_CFG_RATE => ⟨.dsp, 0x40040, 4, 0x10000, 1, 0x0, 1, 0, 0, 3, 32, .rwers, 0, true, [(7, 7)]⟩
  | .DSP_LINK_CFG_LANES => ⟨.dsp, 0x40040, 4, 0x10000, 1, 0x0, 1, 0, 4, 2, 32, .rwers, 0, true, [(3, 3)]⟩
  | .DSP_LINK_CFG_TX_SETTING => ⟨.dsp, 0x40040, 4, 0x10000, 1, 0x0, 1, 0, 8, 4, 32, .rwers, 0, false, []⟩
  -- R428
  | .CBL_IMG_STATUS_SLOT => ⟨.cbl, 0x100, 1, 0x0, 1, 0x0, 1, 0, 0, 1, 32, .ro, 0, true, []⟩
  | .CBL_IMG_STATUS_TRIAL => ⟨.cbl, 0x100, 1, 0x0, 1, 0x0, 1, 0, 1, 1, 32, .ro, 0, false, []⟩
  | .CBL_IMG_STATUS_ROM => ⟨.cbl, 0x100, 1, 0x0, 1, 0x0, 1, 0, 2, 1, 32, .ro, 1, false, []⟩
  | .CBL_IMG_STATUS_SVN => ⟨.cbl, 0x100, 1, 0x0, 1, 0x0, 1, 0, 16, 16, 32, .ro, 0, false, []⟩
  | .CBL_IMG_CMD_OP => ⟨.cbl, 0x104, 1, 0x0, 1, 0x0, 1, 0, 0, 2, 32, .wo, 0, false, [(0, 0), (2, 3)]⟩
  | .CBL_SRC_POOL_WATTS => ⟨.cbl, 0x108, 1, 0x0, 1, 0x0, 1, 0, 0, 16, 32, .rws, 0, true, []⟩
  | .CBL_SRC_USE_WATTS => ⟨.cbl, 0x10C, 1, 0x0, 1, 0x0, 1, 0, 0, 16, 32, .ro, 0, false, []⟩
  -- R429
  | .CBL_PORT_CFG_ROLE => ⟨.cbl, 0x1000, 6, 0x100, 1, 0x0, 1, 0, 0, 2, 32, .rws, 0, true, [(3, 3)]⟩
  | .CBL_PORT_CFG_TRY => ⟨.cbl, 0x1000, 6, 0x100, 1, 0x0, 1, 0, 2, 2, 32, .rws, 0, true, [(3, 3)]⟩
  | .CBL_PORT_CFG_RP => ⟨.cbl, 0x1000, 6, 0x100, 1, 0x0, 1, 0, 4, 2, 32, .rws, 2, true, [(3, 3)]⟩
  | .CBL_PORT_CFG_MUX_POLICY => ⟨.cbl, 0x1000, 6, 0x100, 1, 0x0, 1, 0, 6, 1, 32, .rws, 0, true, []⟩
  | .CBL_PORT_CFG_AVRATH_EN => ⟨.cbl, 0x1000, 6, 0x100, 1, 0x0, 1, 0, 7, 1, 32, .rws, 1, true, []⟩
  | .CBL_PORT_CFG_DP_EN => ⟨.cbl, 0x1000, 6, 0x100, 1, 0x0, 1, 0, 8, 1, 32, .rws, 0, true, []⟩
  | .CBL_PORT_CFG_SPLIT_EN => ⟨.cbl, 0x1000, 6, 0x100, 1, 0x0, 1, 0, 9, 1, 32, .rws, 0, true, []⟩
  | .CBL_PORT_CFG_EPR_EN => ⟨.cbl, 0x1000, 6, 0x100, 1, 0x0, 1, 0, 10, 1, 32, .rws, 0, true, []⟩
  | .CBL_PORT_CFG_CABLE_CHECK => ⟨.cbl, 0x1000, 6, 0x100, 1, 0x0, 1, 0, 11, 1, 32, .rws, 1, true, []⟩
  | .CBL_PORT_CFG_ACCEPT_PR => ⟨.cbl, 0x1000, 6, 0x100, 1, 0x0, 1, 0, 12, 1, 32, .rws, 1, true, []⟩
  | .CBL_PORT_CFG_ACCEPT_DR => ⟨.cbl, 0x1000, 6, 0x100, 1, 0x0, 1, 0, 13, 1, 32, .rws, 1, true, []⟩
  | .CBL_PORT_CFG_ACCEPT_VCONN => ⟨.cbl, 0x1000, 6, 0x100, 1, 0x0, 1, 0, 14, 1, 32, .rws, 1, true, []⟩
  | .CBL_PORT_CFG_VCONN_EN => ⟨.cbl, 0x1000, 6, 0x100, 1, 0x0, 1, 0, 15, 1, 32, .rws, 1, true, []⟩
  | .CBL_PORT_CFG_DP_FIRST => ⟨.cbl, 0x1000, 6, 0x100, 1, 0x0, 1, 0, 16, 1, 32, .rws, 0, true, []⟩
  | .CBL_PORT_STATUS_ATTACHED => ⟨.cbl, 0x1004, 6, 0x100, 1, 0x0, 1, 0, 0, 1, 32, .ro, 0, true, []⟩
  | .CBL_PORT_STATUS_ORIENT => ⟨.cbl, 0x1004, 6, 0x100, 1, 0x0, 1, 0, 1, 1, 32, .ro, 0, true, []⟩
  | .CBL_PORT_STATUS_POWER_ROLE => ⟨.cbl, 0x1004, 6, 0x100, 1, 0x0, 1, 0, 2, 1, 32, .ro, 0, true, []⟩
  | .CBL_PORT_STATUS_DATA_ROLE => ⟨.cbl, 0x1004, 6, 0x100, 1, 0x0, 1, 0, 3, 1, 32, .ro, 0, true, []⟩
  | .CBL_PORT_STATUS_VCONN_ON => ⟨.cbl, 0x1004, 6, 0x100, 1, 0x0, 1, 0, 4, 1, 32, .ro, 0, true, []⟩
  | .CBL_PORT_STATUS_CONTRACT => ⟨.cbl, 0x1004, 6, 0x100, 1, 0x0, 1, 0, 5, 1, 32, .ro, 0, true, []⟩
  | .CBL_PORT_STATUS_EPR => ⟨.cbl, 0x1004, 6, 0x100, 1, 0x0, 1, 0, 6, 1, 32, .ro, 0, true, []⟩
  | .CBL_PORT_STATUS_DEAD_BATTERY => ⟨.cbl, 0x1004, 6, 0x100, 1, 0x0, 1, 0, 7, 1, 32, .ro, 0, true, []⟩
  | .CBL_PORT_STATUS_MODE => ⟨.cbl, 0x1004, 6, 0x100, 1, 0x0, 1, 0, 8, 3, 32, .ro, 0, true, [(6, 7)]⟩
  | .CBL_PORT_STATUS_PIN => ⟨.cbl, 0x1004, 6, 0x100, 1, 0x0, 1, 0, 12, 2, 32, .ro, 0, true, [(3, 3)]⟩
  | .CBL_PORT_STATUS_CABLE => ⟨.cbl, 0x1004, 6, 0x100, 1, 0x0, 1, 0, 14, 2, 32, .ro, 0, true, [(3, 3)]⟩
  | .CBL_PORT_STATUS_CABLE_SPEED => ⟨.cbl, 0x1004, 6, 0x100, 1, 0x0, 1, 0, 16, 3, 32, .ro, 0, true, []⟩
  | .CBL_PORT_STATUS_CABLE_5A => ⟨.cbl, 0x1004, 6, 0x100, 1, 0x0, 1, 0, 19, 1, 32, .ro, 0, true, []⟩
  | .CBL_PORT_STATUS_CABLE_EPR => ⟨.cbl, 0x1004, 6, 0x100, 1, 0x0, 1, 0, 20, 1, 32, .ro, 0, true, []⟩
  | .CBL_CONTRACT_MV => ⟨.cbl, 0x1008, 6, 0x100, 1, 0x0, 1, 0, 0, 16, 32, .ro, 0, true, []⟩
  | .CBL_CONTRACT_MA => ⟨.cbl, 0x1008, 6, 0x100, 1, 0x0, 1, 0, 16, 16, 32, .ro, 0, true, []⟩
  | .CBL_VBUS_MV => ⟨.cbl, 0x100C, 6, 0x100, 1, 0x0, 1, 0, 0, 16, 32, .ro, 0, true, []⟩
  | .CBL_VBUS_MA => ⟨.cbl, 0x100C, 6, 0x100, 1, 0x0, 1, 0, 16, 16, 32, .ro, 0, true, []⟩
  | .CBL_CEILING_SRC_MV => ⟨.cbl, 0x1010, 6, 0x100, 1, 0x0, 1, 0, 0, 16, 64, .rl, 0x1388, true, []⟩
  | .CBL_CEILING_SRC_MA => ⟨.cbl, 0x1010, 6, 0x100, 1, 0x0, 1, 0, 16, 16, 64, .rl, 0xBB8, true, []⟩
  | .CBL_CEILING_SNK_MV => ⟨.cbl, 0x1010, 6, 0x100, 1, 0x0, 1, 0, 32, 16, 64, .rl, 0x4E20, true, []⟩
  | .CBL_CEILING_SNK_MA => ⟨.cbl, 0x1010, 6, 0x100, 1, 0x0, 1, 0, 48, 16, 64, .rl, 0x1388, true, []⟩
  | .CBL_CMD_OP => ⟨.cbl, 0x1018, 6, 0x100, 1, 0x0, 1, 0, 0, 4, 32, .wo, 0, true, [(0, 0), (9, 15)]⟩
  | .CBL_CMD_PIN => ⟨.cbl, 0x1018, 6, 0x100, 1, 0x0, 1, 0, 4, 2, 32, .wo, 0, true, []⟩
  | .CBL_CMD_DP_SRC => ⟨.cbl, 0x1018, 6, 0x100, 1, 0x0, 1, 0, 6, 1, 32, .wo, 0, true, []⟩
  | .CBL_CMD_SPLIT => ⟨.cbl, 0x1018, 6, 0x100, 1, 0x0, 1, 0, 7, 1, 32, .wo, 0, true, []⟩
  | .CBL_CMD_STATUS_RESULT => ⟨.cbl, 0x101C, 6, 0x100, 1, 0x0, 1, 0, 0, 3, 32, .ro, 0, true, [(7, 7)]⟩
  | .CBL_CMD_STATUS_OP => ⟨.cbl, 0x101C, 6, 0x100, 1, 0x0, 1, 0, 8, 4, 32, .ro, 0, true, []⟩
  | .CBL_MUX_STATE => ⟨.cbl, 0x1020, 6, 0x100, 1, 0x0, 1, 0, 0, 3, 32, .rw, 0, true, []⟩
  | .CBL_COUNTS_HARD_RESETS => ⟨.cbl, 0x1024, 6, 0x100, 1, 0x0, 1, 0, 0, 8, 32, .ro, 0, true, []⟩
  | .CBL_COUNTS_SWAPS => ⟨.cbl, 0x1024, 6, 0x100, 1, 0x0, 1, 0, 8, 8, 32, .ro, 0, true, []⟩
  | .CBL_COUNTS_TRIPS => ⟨.cbl, 0x1024, 6, 0x100, 1, 0x0, 1, 0, 16, 8, 32, .ro, 0, true, []⟩
  -- R430
  | .CBL_SRC_PDO_PDO => ⟨.cbl, 0x1080, 6, 0x100, 7, 0x4, 1, 0, 0, 32, 32, .rwers, 0, true, []⟩
  | .CBL_SNK_PDO_PDO => ⟨.cbl, 0x10A0, 6, 0x100, 4, 0x4, 1, 0, 0, 32, 32, .rwers, 0, true, []⟩
  | .CBL_SWAP_CFG_RETRY_MIN_MS => ⟨.cbl, 0x10B0, 6, 0x100, 1, 0x0, 1, 0, 0, 8, 32, .rwers, 0x32, true, []⟩
  | .CBL_SWAP_CFG_RETRY_MAX_MS => ⟨.cbl, 0x10B0, 6, 0x100, 1, 0x0, 1, 0, 8, 8, 32, .rwers, 0x64, true, []⟩
  | .CBL_SWAP_CFG_RETRIES => ⟨.cbl, 0x10B0, 6, 0x100, 1, 0x0, 1, 0, 16, 2, 32, .rwers, 3, true, []⟩
  -- R469
  | .KEY_STATUS_LIFECYCLE => ⟨.key, 0x100, 1, 0x0, 1, 0x0, 1, 0, 0, 3, 32, .ro, 0, false, []⟩
  | .KEY_STATUS_APPROVED => ⟨.key, 0x100, 1, 0x0, 1, 0x0, 1, 0, 4, 1, 32, .ro, 0, false, []⟩
  | .KEY_STATUS_ERROR => ⟨.key, 0x100, 1, 0x0, 1, 0x0, 1, 0, 5, 1, 32, .ro, 0, false, []⟩
  | .KEY_STATUS_ENTROPY_OK => ⟨.key, 0x100, 1, 0x0, 1, 0x0, 1, 0, 6, 1, 32, .ro, 0, false, []⟩
  | .KEY_STATUS_OWNER_SET => ⟨.key, 0x100, 1, 0x0, 1, 0x0, 1, 0, 7, 1, 32, .ro, 0, false, []⟩
  | .KEY_STATUS_ZEROISED => ⟨.key, 0x100, 1, 0x0, 1, 0x0, 1, 0, 8, 1, 32, .ro, 0, false, []⟩
  | .KEY_STATUS_CEILINGS_LOCKED => ⟨.key, 0x100, 1, 0x0, 1, 0x0, 1, 0, 9, 1, 32, .ro, 0, true, []⟩
  | .KEY_STATUS_LEDGER_LEFT => ⟨.key, 0x100, 1, 0x0, 1, 0x0, 1, 0, 16, 14, 32, .ro, 0, false, []⟩
  | .KEY_CALL_ADDRESS => ⟨.key, 0x108, 1, 0x0, 1, 0x0, 1, 0, 6, 42, 64, .wo, 0, false, []⟩
  | .KEY_CALL_STATUS_PENDING => ⟨.key, 0x110, 1, 0x0, 1, 0x0, 1, 0, 0, 4, 32, .ro, 0, false, []⟩
  | .KEY_CALL_STATUS_FULL => ⟨.key, 0x110, 1, 0x0, 1, 0x0, 1, 0, 4, 1, 32, .w1c, 0, false, []⟩
  | .KEY_CALL_STATUS_DONE_COUNT => ⟨.key, 0x110, 1, 0x0, 1, 0x0, 1, 0, 16, 16, 32, .ro, 0, false, []⟩
  | .KEY_NONCE_NONCE => ⟨.key, 0x118, 1, 0x0, 1, 0x0, 1, 0, 0, 64, 64, .ro, 0, false, []⟩
  | .KEY_ANCHOR_VERSION => ⟨.key, 0x120, 1, 0x0, 1, 0x0, 1, 0, 0, 14, 32, .ro, 0, false, []⟩
  | .KEY_VAULT_USE_SLOTS => ⟨.key, 0x124, 1, 0x0, 1, 0x0, 1, 0, 0, 9, 32, .ro, 0, false, []⟩
  | .KEY_ORPHANS_SLOTS => ⟨.key, 0x128, 1, 0x0, 1, 0x0, 1, 0, 0, 32, 32, .ro, 0, true, []⟩
  | .KEY_DEVICE_ID_ID => ⟨.key, 0x130, 1, 0x0, 1, 0x0, 1, 0, 0, 64, 64, .ro, 0, false, []⟩
  | .KEY_SVN_FLOOR_SVN => ⟨.key, 0x140, 1, 0x0, 3, 0x4, 1, 0, 0, 32, 32, .ro, 0, false, []⟩
  | .KEY_SLOT_INFO_NODE => ⟨.key, 0x800, 1, 0x0, 256, 0x8, 1, 0, 0, 10, 64, .ro, 0, false, []⟩
  | .KEY_SLOT_INFO_DEPTH => ⟨.key, 0x800, 1, 0x0, 256, 0x8, 1, 0, 10, 2, 64, .ro, 0, false, []⟩
  | .KEY_SLOT_INFO_FULL => ⟨.key, 0x800, 1, 0x0, 256, 0x8, 1, 0, 12, 1, 64, .ro, 0, false, []⟩
  | .KEY_SLOT_INFO_POOL => ⟨.key, 0x800, 1, 0x0, 256, 0x8, 1, 0, 13, 1, 64, .ro, 0, false, []⟩
  | .KEY_SLOT_INFO_DOOMED => ⟨.key, 0x800, 1, 0x0, 256, 0x8, 1, 0, 14, 1, 64, .ro, 0, false, []⟩
  | .KEY_SLOT_INFO_EPOCH => ⟨.key, 0x800, 1, 0x0, 256, 0x8, 1, 0, 16, 16, 64, .ro, 0, false, []⟩
  | .KEY_SLOT_INFO_KCV => ⟨.key, 0x800, 1, 0x0, 256, 0x8, 1, 0, 32, 32, 64, .ro, 0, false, []⟩
  -- R499
  | .GAU_CMD_GAUGE => ⟨.gau, 0x100, 1, 0x0, 1, 0x0, 1, 0, 0, 8, 32, .wo, 0, true, []⟩
  | .GAU_CMD_OP => ⟨.gau, 0x100, 1, 0x0, 1, 0x0, 1, 0, 8, 2, 32, .wo, 0, true, []⟩
  | .GAU_CMD_ALL => ⟨.gau, 0x100, 1, 0x0, 1, 0x0, 1, 0, 16, 1, 32, .wo, 0, true, []⟩
  | .GAU_CFG_SOURCE => ⟨.gau, 0x1000, 1, 0x0, 256, 0x100, 1, 0, 0, 4, 64, .rws, 0, true, []⟩
  | .GAU_CFG_LOG2 => ⟨.gau, 0x1000, 1, 0x0, 256, 0x100, 1, 0, 4, 1, 64, .rws, 0, true, []⟩
  | .GAU_CFG_ALL_CH => ⟨.gau, 0x1000, 1, 0x0, 256, 0x100, 1, 0, 5, 1, 64, .rws, 1, true, []⟩
  | .GAU_CFG_HIGH_EN => ⟨.gau, 0x1000, 1, 0x0, 256, 0x100, 1, 0, 6, 1, 64, .rws, 0, true, []⟩
  | .GAU_CFG_PERIOD_US => ⟨.gau, 0x1000, 1, 0x0, 256, 0x100, 1, 0, 16, 16, 64, .rws, 0x3E8, true, []⟩
  | .GAU_CFG_CHANNEL => ⟨.gau, 0x1000, 1, 0x0, 256, 0x100, 1, 0, 32, 17, 64, .rws, 0, true, []⟩
  | .GAU_SEL_LOW => ⟨.gau, 0x1008, 1, 0x0, 256, 0x100, 1, 0, 0, 14, 32, .rws, 0, true, []⟩
  | .GAU_SEL_POINT_B => ⟨.gau, 0x1008, 1, 0x0, 256, 0x100, 1, 0, 16, 9, 32, .rws, 0, true, []⟩
  | .GAU_SEL_B_ANY => ⟨.gau, 0x1008, 1, 0x0, 256, 0x100, 1, 0, 28, 1, 32, .rws, 0, true, []⟩
  | .GAU_BASE_BASE => ⟨.gau, 0x1010, 1, 0x0, 256, 0x100, 1, 0, 0, 64, 64, .rws, 0, true, []⟩
  | .GAU_WIDTH_WIDTH => ⟨.gau, 0x1018, 1, 0x0, 256, 0x100, 1, 0, 0, 32, 32, .rws, 1, true, []⟩
  | .GAU_HIGH_HIGH => ⟨.gau, 0x1020, 1, 0x0, 256, 0x100, 1, 0, 0, 64, 64, .rws, 0, true, []⟩
  | .GAU_MIN_VALUE => ⟨.gau, 0x1030, 1, 0x0, 256, 0x100, 1, 0, 0, 64, 64, .ro, 0x7FFFFFFFFFFFFFFF, true, []⟩
  | .GAU_MAX_VALUE => ⟨.gau, 0x1038, 1, 0x0, 256, 0x100, 1, 0, 0, 64, 64, .ro, 0x8000000000000000, true, []⟩
  | .GAU_COUNT_COUNT => ⟨.gau, 0x1040, 1, 0x0, 256, 0x100, 1, 0, 0, 64, 64, .ro, 0, true, []⟩
  | .GAU_SUM_SUM => ⟨.gau, 0x1048, 1, 0x0, 256, 0x100, 1, 0, 0, 64, 64, .ro, 0, true, []⟩
  | .GAU_SNAP_MOMENT_MOMENT => ⟨.gau, 0x1050, 1, 0x0, 256, 0x100, 1, 0, 0, 64, 64, .ro, 0, true, []⟩
  | .GAU_BIN_COUNT => ⟨.gau, 0x1080, 1, 0x0, 256, 0x100, 32, 32, 0, 32, 32, .ro, 0, true, []⟩
  -- R500
  | .BTN_RING_BASE_BASE => ⟨.btn, 0x100, 1, 0x0, 1, 0x0, 1, 0, 16, 32, 64, .rw, 0, true, []⟩
  | .BTN_RING_CFG_ENABLE => ⟨.btn, 0x108, 1, 0x0, 1, 0x0, 1, 0, 0, 1, 32, .rw, 0, true, []⟩
  | .BTN_RING_CFG_MODE => ⟨.btn, 0x108, 1, 0x0, 1, 0x0, 1, 0, 1, 1, 32, .rw, 0, true, []⟩
  | .BTN_RING_CFG_LOG2_SIZE => ⟨.btn, 0x108, 1, 0x0, 1, 0x0, 1, 0, 8, 5, 32, .rw, 0x14, true, [(0, 15), (27, 31)]⟩
  | .BTN_RING_CFG_IRQ_SEV => ⟨.btn, 0x108, 1, 0x0, 1, 0x0, 1, 0, 16, 3, 32, .rw, 3, true, []⟩
  | .BTN_HEAD_HEAD => ⟨.btn, 0x110, 1, 0x0, 1, 0x0, 1, 0, 0, 21, 32, .ro, 0, true, []⟩
  | .BTN_TAIL_TAIL => ⟨.btn, 0x114, 1, 0x0, 1, 0x0, 1, 0, 0, 21, 32, .rw, 0, true, []⟩
  | .BTN_STATUS_STAGED => ⟨.btn, 0x118, 1, 0x0, 1, 0x0, 1, 0, 0, 9, 32, .ro, 0, true, []⟩
  | .BTN_STATUS_OVERFLOW => ⟨.btn, 0x118, 1, 0x0, 1, 0x0, 1, 0, 9, 1, 32, .w1c, 0, true, []⟩
  | .BTN_STATUS_WRAPPED => ⟨.btn, 0x118, 1, 0x0, 1, 0x0, 1, 0, 10, 1, 32, .w1c, 0, true, []⟩
  | .BTN_LOST_RECORDS => ⟨.btn, 0x11C, 1, 0x0, 1, 0x0, 1, 0, 0, 32, 32, .ro, 0, true, []⟩
  | .BTN_SUPPRESSED_RECORDS => ⟨.btn, 0x120, 1, 0x0, 1, 0x0, 1, 0, 0, 32, 32, .ro, 0, true, []⟩
  | .BTN_WATERMARK_RECORDS => ⟨.btn, 0x124, 1, 0x0, 1, 0x0, 1, 0, 0, 21, 32, .rw, 0x6000, true, []⟩
  | .BTN_MSG_REFUSED_MESSAGES => ⟨.btn, 0x128, 1, 0x0, 1, 0x0, 1, 0, 0, 32, 32, .ro, 0, true, []⟩
  | .TRC_RING_BASE_BASE => ⟨.btn, 0x140, 1, 0x0, 1, 0x0, 1, 0, 20, 28, 64, .rw, 0, true, []⟩
  | .TRC_CFG_ENABLE => ⟨.btn, 0x148, 1, 0x0, 1, 0x0, 1, 0, 0, 1, 32, .rw, 0, true, []⟩
  | .TRC_CFG_MODE => ⟨.btn, 0x148, 1, 0x0, 1, 0x0, 1, 0, 1, 1, 32, .rw, 0, true, []⟩
  | .TRC_CFG_LOG2_SIZE => ⟨.btn, 0x148, 1, 0x0, 1, 0x0, 1, 0, 8, 5, 32, .rw, 0x1A, true, [(0, 19)]⟩
  | .TRC_CFG_MARKED => ⟨.btn, 0x148, 1, 0x0, 1, 0x0, 1, 0, 16, 1, 32, .rw, 1, true, []⟩
  | .TRC_CFG_RANGE => ⟨.btn, 0x148, 1, 0x0, 1, 0x0, 1, 0, 17, 1, 32, .rw, 0, true, []⟩
  | .TRC_POINTS_CLASSES => ⟨.btn, 0x14C, 1, 0x0, 1, 0x0, 1, 0, 0, 7, 32, .rw, 0x7F, true, []⟩
  | .TRC_CH_LO_CHANNEL => ⟨.btn, 0x150, 1, 0x0, 1, 0x0, 1, 0, 0, 17, 32, .rw, 0, true, []⟩
  | .TRC_CH_HI_CHANNEL => ⟨.btn, 0x154, 1, 0x0, 1, 0x0, 1, 0, 0, 17, 32, .rw, 0, true, []⟩
  | .TRC_HEAD_HEAD => ⟨.btn, 0x158, 1, 0x0, 1, 0x0, 1, 0, 0, 27, 32, .ro, 0, true, []⟩
  | .TRC_TAIL_TAIL => ⟨.btn, 0x15C, 1, 0x0, 1, 0x0, 1, 0, 0, 27, 32, .rw, 0, true, []⟩
  | .TRC_LOST_RECORDS => ⟨.btn, 0x160, 1, 0x0, 1, 0x0, 1, 0, 0, 32, 32, .ro, 0, true, []⟩
  | .BTN_POP_WORD => ⟨.btn, 0x400, 1, 0x0, 8, 0x4, 1, 0, 0, 32, 32, .ro, 0, true, []⟩
  -- R501
  | .SLT_SCHED_INTERVAL_S => ⟨.slt, 0x100, 1, 0x0, 1, 0x0, 1, 0, 0, 16, 32, .rl, 0x258, true, [(0, 59)]⟩
  | .SLT_SCHED_RETRY_MS => ⟨.slt, 0x100, 1, 0x0, 1, 0x0, 1, 0, 16, 16, 32, .rl, 0x64, true, [(0, 0)]⟩
  | .SLT_KINDS_ENABLE => ⟨.slt, 0x104, 1, 0x0, 1, 0x0, 1, 0, 0, 11, 32, .rl, 0x7FF, true, []⟩
  | .SLT_STATUS_RUNNING => ⟨.slt, 0x108, 1, 0x0, 1, 0x0, 1, 0, 0, 1, 32, .ro, 0, true, []⟩
  | .SLT_STATUS_KIND => ⟨.slt, 0x108, 1, 0x0, 1, 0x0, 1, 0, 4, 4, 32, .ro, 0, true, []⟩
  | .SLT_STATUS_TARGET => ⟨.slt, 0x108, 1, 0x0, 1, 0x0, 1, 0, 8, 8, 32, .ro, 0, true, []⟩
  | .SLT_STATUS_SLICES => ⟨.slt, 0x108, 1, 0x0, 1, 0x0, 1, 0, 16, 16, 32, .ro, 0, true, []⟩
  | .SLT_ABORTS_COUNT => ⟨.slt, 0x10C, 1, 0x0, 1, 0x0, 1, 0, 0, 32, 32, .ro, 0, true, []⟩
  | .SLT_FORCED_COUNT => ⟨.slt, 0x110, 1, 0x0, 1, 0x0, 1, 0, 0, 32, 32, .ro, 0, true, []⟩
  | .SLT_FAILS_COUNT => ⟨.slt, 0x114, 1, 0x0, 1, 0x0, 1, 0, 0, 32, 32, .ro, 0, true, []⟩
  | .SLT_KIND_STATUS_DONE => ⟨.slt, 0x400, 1, 0x0, 11, 0x4, 1, 0, 0, 16, 32, .ro, 0, true, []⟩
  | .SLT_KIND_STATUS_FAILED => ⟨.slt, 0x400, 1, 0x0, 11, 0x4, 1, 0, 16, 8, 32, .ro, 0, true, []⟩
  | .SLT_KIND_CYCLE_MOMENT => ⟨.slt, 0x440, 1, 0x0, 11, 0x8, 1, 0, 0, 64, 64, .ro, 0, true, []⟩
  -- R535
  | .SYS_BOOT_INFO_EPMAS_SLOT => ⟨.sys, 0x138, 1, 0x0, 1, 0x0, 1, 0, 0, 1, 32, .ro, 0, false, []⟩
  | .SYS_BOOT_INFO_FW_SLOT => ⟨.sys, 0x138, 1, 0x0, 1, 0x0, 1, 0, 1, 1, 32, .ro, 0, false, []⟩
  | .SYS_BOOT_INFO_FALLBACK => ⟨.sys, 0x138, 1, 0x0, 1, 0x0, 1, 0, 2, 1, 32, .ro, 0, false, []⟩
  | .SYS_BOOT_INFO_REF_FAULT => ⟨.sys, 0x138, 1, 0x0, 1, 0x0, 1, 0, 3, 1, 32, .ro, 0, false, []⟩
  | .SYS_BOOT_INFO_DDR_FAULT => ⟨.sys, 0x138, 1, 0x0, 1, 0x0, 1, 0, 4, 1, 32, .ro, 0, false, []⟩
  | .SYS_BOOT_INFO_RAIL_FAULT => ⟨.sys, 0x138, 1, 0x0, 1, 0x0, 1, 0, 5, 1, 32, .ro, 0, true, []⟩
  | .SYS_BOOT_INFO_BOARD_OK => ⟨.sys, 0x138, 1, 0x0, 1, 0x0, 1, 0, 6, 1, 32, .ro, 0, false, []⟩
  | .SYS_BOOT_INFO_FLASH_8D => ⟨.sys, 0x138, 1, 0x0, 1, 0x0, 1, 0, 7, 1, 32, .ro, 0, false, []⟩
  | .SYS_BOOT_INFO_BOOT_MS => ⟨.sys, 0x138, 1, 0x0, 1, 0x0, 1, 0, 16, 16, 32, .ro, 0, true, []⟩
  | .SYS_BLK_RESET_BLOCK => ⟨.sys, 0x13C, 1, 0x0, 1, 0x0, 1, 0, 0, 8, 32, .wo, 0, false, []⟩
  | .SYS_BLK_RESET_KEY => ⟨.sys, 0x13C, 1, 0x0, 1, 0x0, 1, 0, 16, 16, 32, .wo, 0, false, []⟩
  | .SYS_STANDBY_ENTER => ⟨.sys, 0x140, 1, 0x0, 1, 0x0, 1, 0, 0, 1, 32, .wo, 0, false, []⟩
  | .SYS_STANDBY_KEY => ⟨.sys, 0x140, 1, 0x0, 1, 0x0, 1, 0, 16, 16, 32, .wo, 0, false, []⟩
  -- R536
  | .GPIO_DIR_OUT => ⟨.loc, 0x80100, 1, 0x0, 1, 0x0, 1, 0, 0, 48, 64, .rw, 0, true, []⟩
  | .GPIO_OUT_LEVEL => ⟨.loc, 0x80108, 1, 0x0, 1, 0x0, 1, 0, 0, 48, 64, .rw, 0, true, []⟩
  | .GPIO_IN_LEVEL => ⟨.loc, 0x80110, 1, 0x0, 1, 0x0, 1, 0, 0, 48, 64, .ro, 0, false, []⟩
  | .GPIO_SAFE_EN_EN => ⟨.loc, 0x80118, 1, 0x0, 1, 0x0, 1, 0, 0, 48, 64, .ro, 0, false, []⟩
  | .GPIO_SAFE_LEVEL_LEVEL => ⟨.loc, 0x80120, 1, 0x0, 1, 0x0, 1, 0, 0, 48, 64, .ro, 0, false, []⟩
  | .XSPI_ADDR_ADDR => ⟨.loc, 0x90100, 1, 0x0, 1, 0x0, 1, 0, 0, 32, 32, .rw, 0, false, []⟩
  | .XSPI_BUF_ADDR => ⟨.loc, 0x90108, 1, 0x0, 1, 0x0, 1, 0, 0, 48, 64, .rw, 0, false, []⟩
  | .XSPI_CMD_OP => ⟨.loc, 0x90110, 1, 0x0, 1, 0x0, 1, 0, 0, 2, 32, .wo, 0, false, []⟩
  | .XSPI_CMD_LENGTH => ⟨.loc, 0x90110, 1, 0x0, 1, 0x0, 1, 0, 8, 24, 32, .wo, 0, false, []⟩
  | .XSPI_STATUS_RESULT => ⟨.loc, 0x90114, 1, 0x0, 1, 0x0, 1, 0, 0, 2, 32, .ro, 0, false, []⟩
  | .XSPI_STATUS_BUSY => ⟨.loc, 0x90114, 1, 0x0, 1, 0x0, 1, 0, 2, 1, 32, .ro, 0, false, []⟩
  -- R537
  | .DDR_CFG_RATE => ⟨.ddr, 0x100, 1, 0x0, 1, 0x0, 1, 0, 0, 4, 32, .rw, 0, true, [(4, 15)]⟩
  | .DDR_STATUS_TRAINED => ⟨.ddr, 0x104, 1, 0x0, 1, 0x0, 1, 0, 0, 1, 32, .ro, 0, false, []⟩
  | .DDR_STATUS_GIB => ⟨.ddr, 0x104, 1, 0x0, 1, 0x0, 1, 0, 1, 7, 32, .ro, 0, false, []⟩
  | .DDR_STATUS_RATE_ACTIVE => ⟨.ddr, 0x104, 1, 0x0, 1, 0x0, 1, 0, 8, 4, 32, .ro, 0, false, []⟩
  | .DDR_ECC_CORRECTED => ⟨.ddr, 0x108, 1, 0x0, 1, 0x0, 1, 0, 0, 16, 32, .ro, 0, false, []⟩
  | .DDR_ECC_UNCORRECTED => ⟨.ddr, 0x108, 1, 0x0, 1, 0x0, 1, 0, 16, 16, 32, .ro, 0, false, []⟩
  | .DDR_BW_GBPS => ⟨.ddr, 0x10C, 1, 0x0, 1, 0x0, 1, 0, 0, 16, 32, .ro, 0, false, []⟩
  -- R538
  | .DDR_CAL_DRIFT_PCT => ⟨.ddr, 0x200, 1, 0x0, 1, 0x0, 1, 0, 0, 8, 32, .rwers, 0x32, true, [(0, 9), (91, 255)]⟩
  | .DDR_CAL_PERIOD_MS => ⟨.ddr, 0x200, 1, 0x0, 1, 0x0, 1, 0, 8, 16, 32, .rwers, 0x64, true, [(0, 9)]⟩

def regsR53 : List RegId := [.BLK_ID_BLOCK, .BLK_CTRL_LEVEL, .BLK_CTRL_QUIESCE, .BLK_STATUS_QUIESCED, .BLK_STATUS_COMMIT_PENDING, .BLK_STATUS_LEVEL_ACTIVE, .BLK_STATUS_RESULT, .BLK_STATUS_BUSY_REFUSED, .BLK_COMMIT_COMMIT, .BLK_COMMIT_ABANDON, .BLK_COMMIT_COUNT_DONE_COUNT, .BLK_COMMIT_COUNT_REJECT_COUNT]
def regsR60 : List RegId := [.SYS_IDENT_PART, .SYS_IDENT_REVISION, .SYS_IDENT_GRADE, .SYS_STATE_STATE, .SYS_STATE_BOOT_FAIL, .SYS_STATE_SAFE_CAUSE, .SYS_STATE_LIFECYCLE, .SYS_STATE_CHAIN_POS, .SYS_PACE_PACE, .SYS_PACE_PACE_FLOOR, .SYS_PACE_MIN_PACE_MIN, .SYS_PACE_MIN_CLEAR, .SYS_POWER_SETPOINT, .SYS_POWER_ACTIVE, .SYS_POWER_TBAND, .SYS_POWER_TRANSIT, .SYS_POWER_HOLD_SETPOINT, .SYS_POWER_PACE_RAISE, .SYS_HOLD_CFG_UPSTREAM, .SYS_HOLD_CFG_GRACE, .SYS_HOLD_CFG_ENABLE, .SYS_HOLD_STATUS_LOST, .SYS_HOLD_STATUS_ENTER_COUNT, .SYS_RESET_WARM, .SYS_RESET_COLD, .SYS_RESET_KEY, .SYS_RESET_CAUSE_CAUSE]
def regsR61 : List RegId := [.SYS_PACE_GUARD_BELOW_COUNT, .SYS_PACE_GUARD_ESCALATE]
def regsR62 : List RegId := [.TMB_MOMENT_MOMENT, .TMB_CFG_REF_SRC, .TMB_STATUS_REF_LOCK, .TMB_STATUS_DISCIPLINED, .TMB_STATUS_STEPPED, .TMB_RATE_RATE_PPB, .TMB_SYNC_OFFSET_OFFSET]
def regsR91 : List RegId := [.CHN_CFG_ENABLE, .CHN_CFG_LOC, .CHN_CFG_HOST_CTRL, .CHN_CFG_FAULT_LIMIT, .CHN_AREA_BASE_BASE, .CHN_HOST_BASE_BASE, .CHN_GEN_ACTIVE_GEN, .CHN_GEN_ACTIVE_NEXT, .CHN_GEN_STAMP_MOMENT, .CHN_STAGE_COUNT_COUNT, .CHN_STAGE_FAULT_INDEX, .CHN_STAGE_FAULT_CHECK, .CHN_STAGE_FAULT_VALID, .CHN_DRAIN_OLDEST_GEN, .CHN_DRAIN_GENS_ALIVE, .CHN_DRAIN_SHADOWS_IN_USE, .CHN_DRAIN_UNITS_UNITS, .CHN_CMD_CHANNEL, .CHN_CMD_OP, .CHN_CMD_STATUS_RESULT, .CHN_CMD_STATUS_STATE, .CHN_CMD_STATUS_CHANNEL, .CHN_CACHE_HITS_HITS, .CHN_CACHE_MISSES_MISSES, .CHN_CACHE_PINNED_PINNED]
def regsR92 : List RegId := [.CHN_FAULT_WINDOW_MS, .CHN_CACHE_CFG_PIN_HOLD]
def regsR131 : List RegId := [.GRN_CFG_DEFAULT_BUDGET, .GRN_CFG_REQUIRE_SIG, .GRN_WAIT_LIMIT_US, .GRN_STATUS_ENGINES_ON, .GRN_STATUS_THREADS_BUSY, .GRN_DESC_DRAIN_UNITS, .GRN_IMG_CMD_OP, .GRN_IMG_CMD_SLOT, .GRN_IMG_BASE_WORD, .GRN_IMG_STATUS_RESULT, .GRN_IMG_STATUS_SLOT, .GRN_FAULT_COUNT_FAULTS, .GRN_ECC_COUNT_CORRECTED, .GRN_ECC_COUNT_UNCORRECTED, .GRN_IMG_DIR_BASE, .GRN_IMG_DIR_VALID, .GRN_IMG_DIR_PROFILE, .GRN_IMG_DIR_LENGTH, .GRN_IMG_DIR_IMAGE_ID, .GRN_IMG_DIR_REFS, .GRN_RECIPE_BIND_SLOT, .GRN_DESC_BASE, .GRN_DESC_ENTRIES, .GRN_DESC_KIND, .GRN_DESC_KEY_WORDS, .GRN_DESC_RESULT_WORDS]
def regsR132 : List RegId := [.GRN_ENG_MASK_ENGINES, .GRN_HOLD_MASK_ENGINES, .GRN_DISPATCH_AGE_US, .GRN_DISPATCH_THREADS, .GRN_K_CLEAR_MODE]
def regsR133 : List RegId := [.HRV_CFG_TIMEOUT_US, .HRV_CFG_ORDERED_RESERVE, .HRV_STATUS_SLOTS_USED, .HRV_STATUS_ORDERED_USED, .HRV_GAPS_GAPS, .HRV_LATE_LATE, .HRV_WAITS_WAITS]
def regsR134 : List RegId := [.HRV_INST_MAX_MAX]
def regsR211 : List RegId := [.LNK_CFG_ENABLE, .LNK_CFG_RATES, .LNK_CFG_PAIRMAP, .LNK_CFG_PRECODE, .LNK_CFG_REVERSIBLE, .LNK_STATUS_UP, .LNK_STATUS_RATE, .LNK_STATUS_PAIRMAP_ACTIVE, .LNK_STATUS_LANE_TX, .LNK_STATUS_LANE_OK, .LNK_STATUS_PRECODE_TX, .LNK_STATUS_PRECODE_RX, .LNK_STATUS_DEGRADED, .LNK_STATUS_REV_READY, .LNK_STATUS_LANE_CHANGE, .LNK_LANE_STATE_STATE, .LNK_LANE_STATE_POWER, .LNK_CWC_TX_CWC, .LNK_CWC_RX_CWC, .LNK_FEC_CORR_SYMBOLS, .LNK_FEC_UNCORR_CODEWORDS, .LNK_REPLAY_REPLAYS, .LNK_REPLAY_TIMEOUTS, .LNK_REPLAY_FILL_BYTES, .LNK_REPLAY_LOST_PARCELS, .LNK_TRAINS_FULL, .LNK_TRAINS_PARTIAL, .LNK_PWR_HALF_US, .LNK_PWR_DEEP_MS, .LNK_PWR_ALLOW, .LNK_GATED_WINDOWS, .LNK_EYE_CTRL_LANE, .LNK_EYE_CTRL_EYE, .LNK_EYE_CTRL_DWELL, .LNK_EYE_CTRL_START, .LNK_EYE_CTRL_BUSY, .LNK_EYE_RESULT_HEIGHT_MV, .LNK_EYE_RESULT_WIDTH, .LNK_EYE_RESULT_VALID, .LNK_EYE_MON_HEIGHT]
def regsR212 : List RegId := [.LNK_ADAPT_GATE_LO, .LNK_ADAPT_GATE_HI, .LNK_THRESH_EYE_MIN_MV, .LNK_THRESH_TRAIN_MS, .LNK_THRESH_ACK_TIMEOUT_US, .LNK_THRESH_REPLAY_LIMIT, .LNK_RAW_MODE, .LNK_SLIP_LANE, .LNK_RAW_LANE_TX_PAT, .LNK_RAW_LANE_RX_PAT, .LNK_RAW_LANE_DIR, .LNK_RAW_LANE_NRZ, .LNK_PRBS_ERR_ERRORS, .LNK_PRBS_ERR_LOCKED, .LNK_TXEQ_CM2, .LNK_TXEQ_CM1, .LNK_TXEQ_C0, .LNK_TXEQ_CP1]
def regsR252 : List RegId := [.TUN_CFG_LEAD, .TUN_CFG_AUTO_RESUME, .TUN_CFG_CHAIN_ROOT, .TUN_CFG_EST_RETRY_MS, .TUN_STATUS_PEER_OK, .TUN_STATUS_HOLD_WAIT, .TUN_EPOCH_EPOCH, .TUN_REPORT_BASE_BASE, .TUN_REPORT_CFG_LOG2_RECORDS, .TUN_REPORT_HEAD_HEAD, .TUN_REPORT_TAIL_TAIL, .TUN_CMD_PORT, .TUN_CMD_OP, .TUN_CMD_END, .TUN_CMD_ALL, .TUN_CMD_GEN_SEEN, .TUN_CONFIRM_BASE_BASE, .TUN_CONFIRM_COUNT_COUNT, .TUN_CMD_STATUS_RESULT, .TUN_PORT_STATUS_PEER_POS, .TUN_PORT_STATUS_PEER_VALID, .TUN_PORT_STATUS_PEER_HOLD, .TUN_PORT_STATUS_OVER, .TUN_PORT_STATUS_ALLOT_VER, .TUN_PORT_STATUS_ALLOT_PENDING, .TUN_SHARE_SHARE, .TUN_RESV_TX_TOTAL, .TUN_RESV_TX_LIMIT, .TUN_RESV_RX_TOTAL, .TUN_RESV_RX_NEXT, .TUN_SWITCH_EPOCH_EPOCH, .TUN_RSV_EXCESS_PARCELS, .TUN_TAG_FAIL_UNITS, .TUN_EST_NAKS, .TUN_PEER_BOOT_BOOT_ID]
def regsR253 : List RegId := [.TUN_TIMERS_ALLOT_TIMEOUT_US, .TUN_TIMERS_HELLO_MS, .TUN_RSV_SLACK_BYTES, .TUN_RSV_SLACK_FLAKES, .TUN_SEAL_CFG_IVC_CHECK]
def regsR254 : List RegId := [.TMB_SERVO_KP_SHIFT, .TMB_SERVO_KI_SHIFT, .TMB_SERVO_LOCK_TICKS, .TMB_SYNC_CFG_LOG_SYNC, .TMB_SYNC_CFG_LOG_PDELAY, .TMB_SYNC_CFG_PRIORITY1, .TMB_SYNC_CFG_PRIORITY2, .TMB_ASYM_ASYM_PS, .TMB_ASYM_FIX_FIX_PS, .TMB_SYNC_ERR_ERR_TICKS, .TMB_SYNC_ERR_SLAVE, .TMB_GM_ID_ID, .TMB_OFFSET_LAST_OFFSET]
def regsR289 : List RegId := [.SAL_CFG_LAGOON_EN, .SAL_CFG_CT_ENABLE, .SAL_LAGOON_BASE_BASE, .SAL_LAGOON_SIZE_MIB, .SAL_STATUS_PAN_FREE, .SAL_STATUS_PANS_ONLINE, .SAL_STATUS_LAGOON_BUSY, .SAL_LAGOON_USE_FLAKES, .SAL_BERTH_STATE_STATE, .SAL_BERTH_CMD_BERTH, .SAL_BERTH_CMD_OP, .SAL_BERTH_CMD_STATUS_RESULT, .SAL_LATE_MARK_MARKS, .SAL_UNDERRUN_UNITS, .SAL_LOST_UNITS, .SAL_QPTR_MISMATCHES, .SAL_ECC_CORRECTED, .SAL_ECC_UNCORRECTED, .SAL_PARITY_ERRORS, .SAL_BERTH_DROP_UNITS, .SAL_MCT_BERTH, .SAL_MCT_QSLOT, .SAL_MCT_VALID, .SAL_MCT_DROPS_REFUSED, .SAL_QCFG_BERTH, .SAL_QCFG_PORT, .SAL_QCFG_TC, .SAL_QCFG_ENABLE, .SAL_QCFG_SAF, .SAL_QCFG_LIMIT, .SAL_QCFG_PAN_LIMIT, .SAL_QCFG_FLUSH, .SAL_QSTAT_PAN_FLAKES, .SAL_QSTAT_LAGOON_FLAKES, .SAL_QSTAT_UNITS_OUT, .SAL_QSTAT_DROPS]
def regsR290 : List RegId := [.SAL_PAN_CFG_RESERVED_FLAKES, .SAL_LAGOON_CFG_RATE_GBPS, .SAL_LAGOON_CFG_REFILL, .SAL_CT_START_FLAKES, .SAL_CT_LOST_US, .SAL_SPREAD_MODE]
def regsR315 : List RegId := [.ETH_CFG_ENABLE, .ETH_CFG_MODE, .ETH_CFG_FEC, .ETH_CFG_AN, .ETH_CFG_MAX_FRAME, .ETH_STATUS_LINK, .ETH_STATUS_SPEED, .ETH_STATUS_FEC_LOCK, .ETH_STATUS_AN_DONE, .ETH_STATUS_LOCAL_FAULT, .ETH_STATUS_REMOTE_FAULT, .ETH_STATUS_LINK_DOWNS, .ETH_RX_CLASS_DESC, .ETH_RX_CLASS_DEFAULT, .ETH_PTP_ENABLE, .ETH_PTP_TC, .ETH_PTP_ASYM_ASYM_PS, .ETH_SLU_CFG_GATE_EN, .ETH_SLU_CFG_LIST_LEN, .ETH_SLU_CYCLE_CYCLE_NS, .ETH_SLU_EXT_EXT_NS, .ETH_SLU_BASE_BASE, .ETH_SLU_STATUS_GATES, .ETH_SLU_STATUS_OPER_EN, .ETH_SLU_STATUS_CHANGE_PENDING, .ETH_SLU_STATUS_ENTRY, .ETH_SLU_CHANGE_TIME, .ETH_SLU_OPER_BASE_BASE, .ETH_SLU_OPER_CYCLE_CYCLE_NS, .ETH_RX_FRAMES_FRAMES, .ETH_TX_FRAMES_FRAMES, .ETH_RX_FCS_FRAMES, .ETH_RX_RUNT_FRAMES, .ETH_RX_LONG_FRAMES, .ETH_RX_MACCTL_FRAMES, .ETH_TX_BAD_FRAMES, .ETH_TX_OVERSIZE_UNITS, .ETH_TC_IDLE_SLOPE_KBPS, .ETH_TC_BURST, .ETH_TC_CBS_EN, .ETH_TC_RESET_TO, .ETH_TC_MAX_SDU, .ETH_TC_CREDIT, .ETH_SLU_LIST_GATES, .ETH_SLU_LIST_INTERVAL_NS, .ETH_SLU_OPER_ENTRY]
def regsR316 : List RegId := [.ETH_SERDES_TX_PRE, .ETH_SERDES_TX_POST, .ETH_SERDES_TX_INVERT, .ETH_SERDES_RX_INVERT, .ETH_GUARD_MARGIN_NS, .ETH_PTP_LAT_TX_LAT, .ETH_PTP_LAT_RX_LAT]
def regsR317 : List RegId := [.RAK_METER_TYPE, .RAK_METER_ALG, .RAK_METER_RESET_TO, .RAK_METER_SLOT, .RAK_METER_CIR_KBPS, .RAK_METER_PIR_KBPS, .RAK_METER_CBS, .RAK_METER_PBS, .RAK_METER_OLD_REFS, .RAK_METER_TOKENS_C, .RAK_METER_TOKENS_P, .RAK_METER_STAT_GREEN, .RAK_METER_STAT_YELLOW, .RAK_METER_STAT_RED, .RAK_STREAM_BLOCK_EN, .RAK_STREAM_BLOCKED, .RAK_STREAM_MATCHED, .RAK_STREAM_OVERSIZE, .RAK_STREAM_RED]
def regsR346 : List RegId := [.SPI_CFG_ENABLE, .SPI_CFG_MODE, .SPI_CFG_LSB_FIRST, .SPI_CFG_DIV, .SPI_CFG_CS_POL, .SPI_CFG_CS_GAP, .SPI_FILL_BYTE, .SPI_STATUS_BUSY, .SPI_STATUS_TRANSFERS, .I2C_CFG_ENABLE, .I2C_CFG_SPEED, .I2C_CFG_REG16, .I2C_CFG_STRETCH_MS, .I2C_STATUS_BUSY, .I2C_STATUS_LAST_ERR, .I2C_STATUS_ERRORS, .UART_CFG_ENABLE, .UART_CFG_PARITY, .UART_CFG_ODD, .UART_CFG_STOP2, .UART_CFG_DATA7, .UART_CFG_DIV, .UART_STATUS_RX_LEVEL, .UART_STATUS_TX_FREE, .UART_ERRORS_PARITY, .UART_ERRORS_FRAMING, .UART_ERRORS_OVERRUN]
def regsR348 : List RegId := [.BRG_CFG_BOND, .BRG_CFG_EMU_WAIT_US, .BRG_PWERR_STATUS_COUNT, .BRG_PWERR_STATUS_OVERFLOW, .BRG_PWERR_ENTRY_ADDRESS, .BRG_PWERR_ENTRY_SOURCE, .BRG_PWERR_ENTRY_CAUSE, .BRG_PWERR_ENTRY_CHANNEL, .BRG_PWERR_ENTRY_MOMENT_LO, .BRG_PWERR_VEC_VECTOR, .BRG_PWERR_VEC_CTRL, .BRG_PWERR_VEC_EN, .BRG_DISCARD_STATUS_NEXT, .BRG_DISCARD_STATUS_COUNT, .BRG_MSG_REFUSED_MESSAGES, .BRG_VEC_MAP_VECTOR, .BRG_VEC_MAP_CTRL, .BRG_VEC_MAP_EN, .BRG_REGION_BASE, .BRG_REGION_SIZE, .BRG_REGION_KIND, .BRG_REGION_CTRL, .BRG_REGION_TARGET, .BRG_REGION_READ, .BRG_REGION_WRITE, .BRG_REGION_PREFETCH, .BRG_REGION_ATOMIC, .BRG_REGION_SEM, .BRG_REGION_PF_LOG2, .BRG_REGION_OLD_REFS, .BRG_DISCARD_ADDRESS, .BRG_DISCARD_REGION, .BRG_DISCARD_MOMENT_LO, .BRG_DISCARD_LENGTH, .BRG_SEM_BASE, .BRG_SEM_SIZE, .BRG_SEM_LEASE_US, .BRG_SEM_HELD, .BRG_SEM_TAINTED, .BRG_SEM_OWNER, .MOV_RING_BASE_BASE, .MOV_RING_CFG_LOG2, .MOV_HEAD_HEAD, .MOV_TAIL_TAIL, .MOV_STATE_STATE, .MOV_CMD_RESTART, .MOV_BYTES_BYTES]
def regsR349 : List RegId := [.PCI_CFG_ENABLE, .PCI_CFG_ROLE, .PCI_CFG_MAX_RATE, .PCI_STATUS_LINK_UP, .PCI_STATUS_RATE, .PCI_STATUS_WIDTH, .PCI_STATUS_TAG10, .PCI_STATUS_LINK_DOWNS, .PCI_BAR4_LOG2_SIZE, .PCI_BAR4_OFFSET, .PCI_RX_CLASS_DESC, .PCI_RX_CLASS_DEFAULT, .PCI_TAGS_IN_USE, .PCI_TAGS_WAITS, .PCI_CPL_TIMEOUTS_COUNT, .PCI_LATE_CPL_COUNT, .PCI_UR_SENT_COUNT]
def regsR350 : List RegId := [.PCI_CREDITS_PH, .PCI_CREDITS_NPH, .PCI_CREDITS_PD, .PCI_NPD_NPD, .PCI_MPS_MPS, .PCI_MPS_MRRS]
def regsR371 : List RegId := [.SIG_CFG_ENABLE, .SIG_MAP_BASE_BASE, .SIG_MAP_CFG_COUNT, .SIG_STORE_BASE_BASE, .SIG_STORE_CFG_SLOTS, .SIG_STATUS_CYCLIC, .SIG_UPDATES_WRITES, .SIG_SENDS_UNITS, .SIG_REFUSED_UNITS, .SIG_SHORT_FIELDS, .SIG_NAN_FIELDS, .SIG_GPIO_BOUNCE_EDGES, .SIG_GPIO_LOST_EDGES, .SIG_GPIO_LINE_CHANNEL, .SIG_GPIO_LINE_RISE, .SIG_GPIO_LINE_FALL, .SIG_GPIO_LINE_DEBOUNCE_US]
def regsR372 : List RegId := [.SIG_POLICY_CHANGE_ON_QUAL, .SIG_POLICY_NAN_SKIP]
def regsR373 : List RegId := [.CAN_CFG_ENABLE, .CAN_CFG_FD, .CAN_CFG_LISTEN, .CAN_CFG_AUTO_RECOVER, .CAN_CFG_TX_TIMEOUT_MS, .CAN_NBT_BRP, .CAN_NBT_TSEG1, .CAN_NBT_TSEG2, .CAN_NBT_SJW, .CAN_DBT_DBRP, .CAN_DBT_DTSEG1, .CAN_DBT_DTSEG2, .CAN_DBT_DSJW, .CAN_STATUS_STATE, .CAN_STATUS_TEC, .CAN_STATUS_REC, .CAN_STATUS_LEC, .CAN_CMD_RESTART, .CAN_RX_FRAMES_FRAMES, .CAN_TX_FRAMES_FRAMES, .CAN_RX_UNMATCHED_FRAMES, .CAN_RX_REMOTE_FRAMES, .CAN_TX_DROP_UNITS, .CAN_ERRORS_COUNT, .CAN_FILTER_ID, .CAN_FILTER_IDE, .CAN_FILTER_MATCH_IDE, .CAN_FILTER_VALID, .CAN_FILTER_MASK, .CAN_FILTER_CHANNEL, .CAN_FILTER_HITS]
def regsR374 : List RegId := [.CAN_TDC_TDCO, .CAN_TDC_TDC_EN, .CAN_TXBUF_BUFFERS]
def regsR402 : List RegId := [.DSP_CFG_LEASE_MODE, .DSP_CFG_LOCK01, .DSP_CFG_LOCK23, .DSP_FS_BASE_BASE, .DSP_FS_SIZE_MIB, .DSP_FETCH_USE_FETCH, .DSP_LEASE_VIOL_WRITES, .DSP_LEASE_WAITS_WRITES, .DSP_TILE_BAD_TILES, .DSP_TILE_CLIP_TILES, .DSP_MSG_REFUSED_MESSAGES]
def regsR403 : List RegId := [.DSP_HCTRL_ENABLE, .DSP_HCTRL_MUTE, .DSP_HCTRL_COMMIT, .DSP_HCTRL_ABANDON, .DSP_HSTATUS_RESULT, .DSP_HSTATUS_CAUSE, .DSP_HSTATUS_PENDING, .DSP_HSTATUS_PSR_ACTIVE, .DSP_HSTATUS_LOCKED, .DSP_HSTATUS_SEQ, .DSP_PCLK_KHZ, .DSP_ACTIVE_HACTIVE, .DSP_ACTIVE_VACTIVE, .DSP_HBLANK_HFP, .DSP_HBLANK_HSYNC, .DSP_HBLANK_HBP, .DSP_VBLANK_VFP, .DSP_VBLANK_VSYNC, .DSP_VBLANK_VBP, .DSP_VBLANK_HPOL, .DSP_VBLANK_VPOL, .DSP_OUT_MODE, .DSP_OUT_BPC10, .DSP_OUT_ROUTE, .DSP_OUT_PSR_EN, .DSP_OUT_PSR_FRAMES, .DSP_BG_RGB, .DSP_LINK_STATUS_UP, .DSP_LINK_STATUS_RATE, .DSP_LINK_STATUS_LANES, .DSP_LINK_STATUS_PLL_LOCK, .DSP_UNDERRUN_COUNT_LINES, .DSP_FRAME_COUNT_FRAMES, .DSP_FENCE_SEQ, .DSP_FENCE_ADDR_ADDR, .DSP_LAYER_ENABLE, .DSP_LAYER_FORMAT, .DSP_LAYER_GALPHA, .DSP_LAYER_FB, .DSP_LAYER_STRIDE, .DSP_LAYER_WIDTH, .DSP_LAYER_HEIGHT, .DSP_LAYER_X, .DSP_LAYER_Y, .DSP_PAL_ARGB]
def regsR404 : List RegId := [.DSP_FETCH_BUDGET_BUDGET, .DSP_LINK_CFG_RATE, .DSP_LINK_CFG_LANES, .DSP_LINK_CFG_TX_SETTING]
def regsR428 : List RegId := [.CBL_IMG_STATUS_SLOT, .CBL_IMG_STATUS_TRIAL, .CBL_IMG_STATUS_ROM, .CBL_IMG_STATUS_SVN, .CBL_IMG_CMD_OP, .CBL_SRC_POOL_WATTS, .CBL_SRC_USE_WATTS]
def regsR429 : List RegId := [.CBL_PORT_CFG_ROLE, .CBL_PORT_CFG_TRY, .CBL_PORT_CFG_RP, .CBL_PORT_CFG_MUX_POLICY, .CBL_PORT_CFG_AVRATH_EN, .CBL_PORT_CFG_DP_EN, .CBL_PORT_CFG_SPLIT_EN, .CBL_PORT_CFG_EPR_EN, .CBL_PORT_CFG_CABLE_CHECK, .CBL_PORT_CFG_ACCEPT_PR, .CBL_PORT_CFG_ACCEPT_DR, .CBL_PORT_CFG_ACCEPT_VCONN, .CBL_PORT_CFG_VCONN_EN, .CBL_PORT_CFG_DP_FIRST, .CBL_PORT_STATUS_ATTACHED, .CBL_PORT_STATUS_ORIENT, .CBL_PORT_STATUS_POWER_ROLE, .CBL_PORT_STATUS_DATA_ROLE, .CBL_PORT_STATUS_VCONN_ON, .CBL_PORT_STATUS_CONTRACT, .CBL_PORT_STATUS_EPR, .CBL_PORT_STATUS_DEAD_BATTERY, .CBL_PORT_STATUS_MODE, .CBL_PORT_STATUS_PIN, .CBL_PORT_STATUS_CABLE, .CBL_PORT_STATUS_CABLE_SPEED, .CBL_PORT_STATUS_CABLE_5A, .CBL_PORT_STATUS_CABLE_EPR, .CBL_CONTRACT_MV, .CBL_CONTRACT_MA, .CBL_VBUS_MV, .CBL_VBUS_MA, .CBL_CEILING_SRC_MV, .CBL_CEILING_SRC_MA, .CBL_CEILING_SNK_MV, .CBL_CEILING_SNK_MA, .CBL_CMD_OP, .CBL_CMD_PIN, .CBL_CMD_DP_SRC, .CBL_CMD_SPLIT, .CBL_CMD_STATUS_RESULT, .CBL_CMD_STATUS_OP, .CBL_MUX_STATE, .CBL_COUNTS_HARD_RESETS, .CBL_COUNTS_SWAPS, .CBL_COUNTS_TRIPS]
def regsR430 : List RegId := [.CBL_SRC_PDO_PDO, .CBL_SNK_PDO_PDO, .CBL_SWAP_CFG_RETRY_MIN_MS, .CBL_SWAP_CFG_RETRY_MAX_MS, .CBL_SWAP_CFG_RETRIES]
def regsR469 : List RegId := [.KEY_STATUS_LIFECYCLE, .KEY_STATUS_APPROVED, .KEY_STATUS_ERROR, .KEY_STATUS_ENTROPY_OK, .KEY_STATUS_OWNER_SET, .KEY_STATUS_ZEROISED, .KEY_STATUS_CEILINGS_LOCKED, .KEY_STATUS_LEDGER_LEFT, .KEY_CALL_ADDRESS, .KEY_CALL_STATUS_PENDING, .KEY_CALL_STATUS_FULL, .KEY_CALL_STATUS_DONE_COUNT, .KEY_NONCE_NONCE, .KEY_ANCHOR_VERSION, .KEY_VAULT_USE_SLOTS, .KEY_ORPHANS_SLOTS, .KEY_DEVICE_ID_ID, .KEY_SVN_FLOOR_SVN, .KEY_SLOT_INFO_NODE, .KEY_SLOT_INFO_DEPTH, .KEY_SLOT_INFO_FULL, .KEY_SLOT_INFO_POOL, .KEY_SLOT_INFO_DOOMED, .KEY_SLOT_INFO_EPOCH, .KEY_SLOT_INFO_KCV]
def regsR499 : List RegId := [.GAU_CMD_GAUGE, .GAU_CMD_OP, .GAU_CMD_ALL, .GAU_CFG_SOURCE, .GAU_CFG_LOG2, .GAU_CFG_ALL_CH, .GAU_CFG_HIGH_EN, .GAU_CFG_PERIOD_US, .GAU_CFG_CHANNEL, .GAU_SEL_LOW, .GAU_SEL_POINT_B, .GAU_SEL_B_ANY, .GAU_BASE_BASE, .GAU_WIDTH_WIDTH, .GAU_HIGH_HIGH, .GAU_MIN_VALUE, .GAU_MAX_VALUE, .GAU_COUNT_COUNT, .GAU_SUM_SUM, .GAU_SNAP_MOMENT_MOMENT, .GAU_BIN_COUNT]
def regsR500 : List RegId := [.BTN_RING_BASE_BASE, .BTN_RING_CFG_ENABLE, .BTN_RING_CFG_MODE, .BTN_RING_CFG_LOG2_SIZE, .BTN_RING_CFG_IRQ_SEV, .BTN_HEAD_HEAD, .BTN_TAIL_TAIL, .BTN_STATUS_STAGED, .BTN_STATUS_OVERFLOW, .BTN_STATUS_WRAPPED, .BTN_LOST_RECORDS, .BTN_SUPPRESSED_RECORDS, .BTN_WATERMARK_RECORDS, .BTN_MSG_REFUSED_MESSAGES, .TRC_RING_BASE_BASE, .TRC_CFG_ENABLE, .TRC_CFG_MODE, .TRC_CFG_LOG2_SIZE, .TRC_CFG_MARKED, .TRC_CFG_RANGE, .TRC_POINTS_CLASSES, .TRC_CH_LO_CHANNEL, .TRC_CH_HI_CHANNEL, .TRC_HEAD_HEAD, .TRC_TAIL_TAIL, .TRC_LOST_RECORDS, .BTN_POP_WORD]
def regsR501 : List RegId := [.SLT_SCHED_INTERVAL_S, .SLT_SCHED_RETRY_MS, .SLT_KINDS_ENABLE, .SLT_STATUS_RUNNING, .SLT_STATUS_KIND, .SLT_STATUS_TARGET, .SLT_STATUS_SLICES, .SLT_ABORTS_COUNT, .SLT_FORCED_COUNT, .SLT_FAILS_COUNT, .SLT_KIND_STATUS_DONE, .SLT_KIND_STATUS_FAILED, .SLT_KIND_CYCLE_MOMENT]
def regsR535 : List RegId := [.SYS_BOOT_INFO_EPMAS_SLOT, .SYS_BOOT_INFO_FW_SLOT, .SYS_BOOT_INFO_FALLBACK, .SYS_BOOT_INFO_REF_FAULT, .SYS_BOOT_INFO_DDR_FAULT, .SYS_BOOT_INFO_RAIL_FAULT, .SYS_BOOT_INFO_BOARD_OK, .SYS_BOOT_INFO_FLASH_8D, .SYS_BOOT_INFO_BOOT_MS, .SYS_BLK_RESET_BLOCK, .SYS_BLK_RESET_KEY, .SYS_STANDBY_ENTER, .SYS_STANDBY_KEY]
def regsR536 : List RegId := [.GPIO_DIR_OUT, .GPIO_OUT_LEVEL, .GPIO_IN_LEVEL, .GPIO_SAFE_EN_EN, .GPIO_SAFE_LEVEL_LEVEL, .XSPI_ADDR_ADDR, .XSPI_BUF_ADDR, .XSPI_CMD_OP, .XSPI_CMD_LENGTH, .XSPI_STATUS_RESULT, .XSPI_STATUS_BUSY]
def regsR537 : List RegId := [.DDR_CFG_RATE, .DDR_STATUS_TRAINED, .DDR_STATUS_GIB, .DDR_STATUS_RATE_ACTIVE, .DDR_ECC_CORRECTED, .DDR_ECC_UNCORRECTED, .DDR_BW_GBPS]
def regsR538 : List RegId := [.DDR_CAL_DRIFT_PCT, .DDR_CAL_PERIOD_MS]

/-- Every register field of the spec's tables. -/
def RegId.all : List RegId :=
  regsR53 ++ regsR60 ++ regsR61 ++ regsR62 ++ regsR91 ++ regsR92 ++ regsR131 ++ regsR132 ++ regsR133 ++ regsR134 ++ regsR211 ++ regsR212 ++ regsR252 ++ regsR253 ++ regsR254 ++ regsR289 ++ regsR290 ++ regsR315 ++ regsR316 ++ regsR317 ++ regsR346 ++ regsR348 ++ regsR349 ++ regsR350 ++ regsR371 ++ regsR372 ++ regsR373 ++ regsR374 ++ regsR402 ++ regsR403 ++ regsR404 ++ regsR428 ++ regsR429 ++ regsR430 ++ regsR469 ++ regsR499 ++ regsR500 ++ regsR501 ++ regsR535 ++ regsR536 ++ regsR537 ++ regsR538

/-- The fields of one block. -/
def Blk.regs (b : Blk) : List RegId := RegId.all.filter fun r => r.info.blk == b

end Sys2Proof.Machine
end

