-- ==== Sys2Proof/Machine/Maps.lean ====
section
/-! DEFINITION. Sparse maps in one canonical form: lists of key and value pairs, keys strictly rising. The register
files and the memory are such maps, and list no entry that equals what an unlisted key reads as. -/
namespace Sys2Proof.Machine

/-- A sparse map from numbers; kept with strictly rising keys. -/
abbrev NMap (α : Type) := List (Nat × α)

def NMap.get? {α : Type} : NMap α → Nat → Option α
  | [], _ => none
  | (k, v) :: t, x => if k = x then some v else NMap.get? t x

/-- Insert or replace, keeping the keys rising. -/
def NMap.put {α : Type} : NMap α → Nat → α → NMap α
  | [], x, a => [(x, a)]
  | (k, v) :: t, x, a =>
    if x < k then (x, a) :: (k, v) :: t
    else if x = k then (x, a) :: t
    else (k, v) :: NMap.put t x a

def NMap.del {α : Type} : NMap α → Nat → NMap α
  | [], _ => []
  | (k, v) :: t, x => if k = x then NMap.del t x else (k, v) :: NMap.del t x

/-- Change the value at a key that is listed. -/
def NMap.upd {α : Type} (m : NMap α) (x : Nat) (f : α → α) : NMap α :=
  match m.get? x with
  | none => m
  | some a => m.put x (f a)

/-- The keys rise strictly. -/
def NMap.rising {α : Type} : NMap α → Bool
  | [] => true
  | [_] => true
  | (k, _) :: (k', v') :: t => decide (k < k') && NMap.rising ((k', v') :: t)

/-- Put an element into a list that rises by `key`, after its equals. -/
def insertBy {α : Type} (key : α → Nat) (a : α) : List α → List α
  | [] => [a]
  | b :: t => if key a < key b then a :: b :: t else b :: insertBy key a t

/-- The list in rising order of `key`; equals keep their order. -/
def sortBy {α : Type} (key : α → Nat) (l : List α) : List α := l.foldl (fun r a => insertBy key a r) []

/-! ### Memory -/

/-- Bytes by hub address (R50): DRAM and the program pool. -/
abbrev Memory := NMap Byte

/-- What an unlisted address reads as. DESIGN CHOICE, unsafe (log entry 3): zero. -/
def Memory.blank : Byte := 0

def Memory.read (m : Memory) (a : Nat) : Byte := (m.get? a).getD Memory.blank

def Memory.write (m : Memory) (a : Nat) (b : Byte) : Memory :=
  if b = Memory.blank then m.del a else m.put a b

/-- Rising addresses, and no entry that an unlisted address would read as. -/
def Memory.wf (m : Memory) : Bool := m.rising && m.all fun c => c.2 != Memory.blank

def Memory.writes (m : Memory) (a : Nat) : List Byte → Memory
  | [] => m
  | b :: t => Memory.writes (m.write a b) (a + 1) t

def Memory.reads (m : Memory) (a : Nat) : Nat → List Byte
  | 0 => []
  | n + 1 => m.read a :: m.reads (a + 1) n

/-- Forget every byte in [lo, hi). -/
def Memory.clear (m : Memory) (lo hi : Nat) : Memory := m.filter fun c => c.1 < lo || hi ≤ c.1

/-! ### Register files -/

/-- A field's value together with the field it belongs to. -/
structure RegVal where
  reg : RegId
  val : Nat
  deriving DecidableEq, Repr

abbrev RegFile := NMap RegVal

/-- The position of a field in a register file. -/
def regKey (r : RegId) (inst idx : Nat) : Nat := (r.ctorIdx * 2 ^ 8 + inst) * 2 ^ 24 + idx

/-- The instance and the index that a position stands for. -/
def keyInst (k : Nat) : Nat := (k / 2 ^ 24) % 2 ^ 8
def keyIdx (k : Nat) : Nat := k % 2 ^ 24

/-- The value fits the field and is no reserved encoding (R10). -/
def RegId.legal (r : RegId) (v : Nat) : Bool :=
  decide (v < 2 ^ r.info.width) && r.info.reserved.all fun p => !(decide (p.1 ≤ v) && decide (v ≤ p.2))

/-- Fields that keep their own value in expert level only, and fields with a shadow (R8). -/
def RegId.isExpert (r : RegId) : Bool := r.info.acc == .rwe || r.info.acc == .rwers
def RegId.isShadowed (r : RegId) : Bool := r.info.acc == .rws || r.info.acc == .rwers

def RegFile.look (f : RegFile) (r : RegId) (inst idx : Nat) : Option Nat :=
  match f.get? (regKey r inst idx) with
  | some e => if e.reg = r then some e.val else none
  | none => none

/-- A field that is not listed holds its reset value. -/
def RegFile.read (f : RegFile) (r : RegId) (inst idx : Nat) : Nat := (f.look r inst idx).getD r.info.reset

/-- Instances and indices that have a position of their own; every field of the register tables keeps within them. -/
def spotFits (inst idx : Nat) : Bool := decide (inst < 2 ^ 8) && decide (idx < 2 ^ 24)

/-- Write a field; a value that does not fit or that the field's table reserves changes nothing (R10). -/
def RegFile.write (f : RegFile) (r : RegId) (inst idx v : Nat) : RegFile :=
  if (r.legal v && spotFits inst idx) = true then
    (if v = r.info.reset then f.del (regKey r inst idx) else f.put (regKey r inst idx) ⟨r, v⟩)
  else f

/-- The entries that a test selects. -/
def RegFile.chosen (f : RegFile) (p : RegId → Nat → Nat → Bool) : RegFile :=
  f.filter fun e => p e.2.reg (keyInst e.1) (keyIdx e.1)

/-- Rising positions, every value legal and none equal to its field's reset value. -/
def RegFile.wf (f : RegFile) : Bool :=
  f.rising && f.all fun e => e.2.reg.legal e.2.val && e.2.val != e.2.reg.info.reset

end Sys2Proof.Machine
end

