-- ==== Sys2Proof/Machine/Parts.lean ====
section
/-! DEFINITION. The parts that State is built of, one group per chapter of the spec. Plain data. -/
namespace Sys2Proof.Machine

/-! ### Device, pace and power (R41 to R49) -/

/-- The device states of R41. -/
inductive Dev where
  | off | aon | boot | run | hold | safe | test
  deriving DecidableEq, Repr

/-- A bittern record (R476); `detail` is the number its 12 detail bytes spell. -/
structure Rec where
  moment : Nat
  seq : Nat
  pos : Nat
  blk : Nat
  sev : Nat
  code : Nat
  chan : Option Nat
  detail : Nat
  deriving DecidableEq, Repr

/-- Device state, pace and the setpoint change in progress (R28 to R34), hold-over (R45), the SAFE latch (R43). -/
structure DevPart where
  st : Dev
  safeLatch : Bool
  latchCause : Nat
  thermalHold : Bool
  vin : Bool
  vbus : Nat
  /-- target of the setpoint change in progress -/
  target : Nat
  /-- setpoints that count against PACE_FLOOR while a change is in progress (R33) -/
  counted : List Nat
  /-- when the AVSBus command was last issued; whether AVS_TIMEOUT is written for this change -/
  commandAt : Nat
  timeoutWritten : Bool
  /-- setpoint the test service chose (R34) -/
  testSetpoint : Nat
  /-- consecutive updates below the floor, and when PACE_BELOW_FLOOR was written with no raise to follow (R28) -/
  below : Nat
  belowAt : Option Nat
  /-- hottest core sensor, in °C -/
  temp : Int
  /-- ports that have held link and contract since the last PORn or cold reset, as a bit set (R45) -/
  heldBoth : Nat
  /-- since when the trigger's conditions hold -/
  lossSince : Option Nat
  /-- last warm reset that a double trap caused (R121) -/
  trapResetAt : Option Nat
  deriving DecidableEq, Repr

/-- The boot, rail and board side of ch. 16: rails, straps, one-time-programmable values, fitted memory, flash. -/
structure BootPart where
  /-- rail groups enabled, when the last was, the fault that waits for its record with its group, when it fell, faults in a row (R514) -/
  groups : Nat
  railAt : Nat
  railGroup : Option Nat
  railFaultAt : Option Nat
  faults : Nat
  /-- when BOOT was entered, and the last try for the reference (R518, R526) -/
  pgoodAt : Nat
  refAt : Nat
  /-- the rails were removed by SYS_STANDBY (R515) -/
  standby : Bool
  /-- boot steps done: Epmas authenticated, DRAM trained, start-up self-test done (R526) -/
  epmas : Bool
  trained : Bool
  tested : Bool
  /-- straps as sampled (R545): reference, bond, roles -/
  strapRef : Nat
  strapBond : Nat
  strapRole : Nat
  /-- fitted DRAM in GiB -/
  gib : Nat
  /-- DDR_CFG.RATE has been written since the last PORn (R537); the board record's rate and LINK_AUTO (R523) -/
  rateWritten : Bool
  boardRate : Nat
  linkAuto : Nat
  /-- where the control cores start the hub firmware -/
  fwStart : Nat
  /-- xSPI command running (R536): operation, flash address, DRAM buffer, length -/
  xspi : Option (Nat × Nat × Nat × Nat)
  deriving DecidableEq, Repr

/-- The time keeper (R35 to R40, R244). Times in ticks. -/
structure TmbPart where
  /-- stamps taken at each origin (POINT), modulo 2^20 -/
  seqs : NMap Nat
  /-- port whose SYNC disciplines the hub, if any, and when its last SYNC came -/
  slave : Option Nat
  lastSync : Nat
  /-- integral term of the servo, consecutive offsets within LOCK_TICKS -/
  integral : Int
  locked : Nat
  /-- whether the Moment was disciplined before in this run -/
  acquired : Bool
  /-- consecutive SYNCs beyond LOCK_TICKS -/
  outside : Nat
  /-- fraction of a tick that the rate correction has gathered, in 10^-9 -/
  frac : Int
  /-- grandmasters heard by port: priority 1, class, priority 2, identity, steps removed (R243) -/
  heard : NMap (List Nat)
  deriving DecidableEq, Repr

/-! ### Units, channels, threads (ch. 2 to 4) -/

/-- Where a unit stands on the path of R19. -/
inductive Place where
  /-- at its ingress berth, waiting for dispatch; `miss`: its channel entry is being fetched -/
  | waiting (miss : Bool)
  | running (e t : Nat)
  /-- its thread has retired and the harvest unit holds it (R115) -/
  | harvested
  | queued (q : Nat)
  deriving DecidableEq, Repr

/-- What stamp points, traces and gauges need to know of a unit (R472, R483, R484): `key` is OMOMENT of a parcel or else the low
half of its berth-ingress Moment, `origin` the OMOMENT it arrived with, `passed` the points behind it with their Moments. -/
structure Mark where
  chan : Nat
  gen : Nat
  kind : Nat
  tag : Nat
  trace : Bool
  key : Nat
  cseq : Nat
  entered : Nat
  origin : Option Nat
  passed : List (Nat × Nat)
  deriving DecidableEq, Repr

/-- A unit the hub carries. -/
structure Flow where
  chan : Nat
  gen : Nat
  kind : Nat
  group : Nat
  port : Nat
  berth : Nat
  /-- MOMENT and bytes 8–11 of the berth-ingress stamp (R37) -/
  stampMoment : Nat
  stampWord : Nat
  /-- the original unit as far as it has arrived, its LENGTH at dispatch, whether that is final -/
  bytes : List Byte
  length : Nat
  whole : Bool
  rxBad : Bool
  bad : Bool
  opened : Bool
  be : Bool
  trace : Bool
  tag : Nat
  sealReq : Bool
  /-- entry of the generation the unit runs under (R20), 64 bytes, from dispatch on -/
  entry : List Byte
  /-- the new header and how much of the original it replaces, from ENQ on (R102) -/
  head : List Byte
  skip : Nat
  /-- ENQ has taken effect; the unit must leave store-and-forward -/
  enqueued : Bool
  saf : Bool
  /-- native multicast: targets still to leave (R280); 0 for an ordinary unit -/
  refs : Nat
  place : Place
  /-- harvest slot held, if any; ORDERED at its ingress stamp and no slot was free yet (R114) -/
  slot : Option Nat
  wantSlot : Bool
  /-- the unit this one is a replicated copy of (R281) -/
  parent : Option Nat
  /-- HOPS, CSEQ and OMOMENT of the parcel it arrived in (R215, R248) -/
  hops : Option Nat
  cseq : Nat
  origin : Option Nat
  /-- stamp points passed, with their Moments (R472) -/
  passed : List (Nat × Nat)
  deriving DecidableEq, Repr

def blankFlow : Flow where
  chan := 0
  gen := 0
  kind := 0
  group := 6
  port := 0
  berth := 18
  stampMoment := 0
  stampWord := 0
  bytes := []
  length := 0
  whole := true
  rxBad := false
  bad := false
  opened := false
  be := false
  trace := false
  tag := 0
  sealReq := false
  entry := []
  head := []
  skip := 0
  enqueued := false
  saf := false
  refs := 0
  place := .waiting false
  slot := none
  wantSlot := false
  parent := none
  hops := none
  cseq := 0
  origin := none
  passed := []

/-- What its stamp points need to know of a unit. -/
def Flow.mark (f : Flow) : Mark where
  chan := f.chan
  gen := f.gen
  kind := f.kind
  tag := f.tag
  trace := f.trace
  key := f.stampMoment % 2 ^ 32
  cseq := 0
  entered := f.stampMoment
  origin := f.origin
  passed := f.passed

/-- A unit waiting in a queue slot (R264). -/
structure Queued where
  unit : Nat
  flakes : Nat
  spilled : Bool
  started : Bool
  native : Bool
  /-- parcels sent of it on a cable port, its CSEQ there, and whether its last fragment has gone (R217) -/
  sent : Nat
  cseq : Nat
  ended : Bool
  deriving DecidableEq, Repr

/-- What a thread or machine waits for (R98). -/
inductive Wait where
  | none
  | table
  | sem (n : Nat) (rd : Nat) (since : Nat)
  | credit (blk : Nat) (rd : Nat) (since : Nat)
  | space (q : Nat) (rd : Nat) (since : Nat)
  | wfi
  /-- a load of the bridge's regions: register, size, sign -/
  | bus (rd size : Nat) (sign : Bool)
  deriving DecidableEq, Repr

/-- A table descriptor as a thread took it at dispatch (R103). -/
structure Desc where
  base : Nat
  entries : Nat
  kind : Nat
  keyWords : Nat
  resWords : Nat
  deriving DecidableEq, Repr

/-- A unit that EMIT created and its thread holds (R155). -/
structure Emitted where
  route : Nat
  kind : Nat
  bytes : List Byte
  deriving DecidableEq, Repr

/-- A message body on its way to a block (R161), with its sending channel and the entry its unit runs under. -/
structure Message where
  blk : Nat
  body : List Byte
  chan : Option Nat
  thread : Nat
  entry : List Byte
  deriving DecidableEq, Repr

/-- One thread of an engine (R96, R97). `busy` while it holds a unit. K survives retirement (R97, MODE 1). -/
structure Thread where
  busy : Bool
  unit : Nat
  chan : Nat
  /-- generation at dispatch (g3), and GEN of the entry it runs under -/
  gen : Nat
  ver : Nat
  regs : NMap Word
  pc : Nat
  lo : Nat
  hi : Nat
  steps : Nat
  budget : Nat
  descs : List Desc
  /-- U space: header bytes and metadata (R101, R102) -/
  u : Memory
  /-- the entry the unit runs under (C space 0x000–0x03F) -/
  entry : List Byte
  k : Memory
  enq : Bool
  emitted : List Emitted
  /-- ENQ, as route word, SAF and multicast, and messages held for release on an ORDERED channel (R115) -/
  heldEnq : Option (Nat × Bool × Bool)
  heldMsgs : List Message
  /-- reservations of WAITC (R162): block credits and queue slots with their flakes -/
  credits : List Nat
  spaces : List (Nat × Nat)
  wait : Wait
  deriving DecidableEq, Repr

/-- A Control- or Secure-profile machine (R119 to R125). -/
structure Core where
  regs : NMap Word
  pc : Nat
  status : Nat
  tvec : Nat
  tepc : Nat
  tcause : Nat
  tval : Nat
  scratch : Nat
  ienable : Nat
  steps : Nat
  mpuBase : NMap Nat
  mpuCfg : NMap Nat
  wait : Wait
  halted : Bool
  /-- a trap has been taken and no word has been fetched since (R121) -/
  fresh : Bool
  deriving DecidableEq, Repr

/-- A slot of the harvest unit (R114 to R116): held by an ORDERED unit, or by a bridge transaction. -/
structure HSlot where
  unit : Option Nat
  inst : Nat
  chan : Nat
  moment : Nat
  order : Nat
  since : Nat
  retired : Bool
  empty : Bool
  gap : Bool
  enq : Option (Nat × Bool × Bool)
  emitted : List Emitted
  msgs : List Message
  deriving DecidableEq, Repr

/-- Channels and generations (ch. 2) beside what DRAM holds. -/
structure ChnPart where
  /-- table in host memory as the hub has read and written it (CHN_CFG.LOC 1): entries that are not all zero -/
  hostTable : NMap (List Byte)
  /-- cached channels, most recently used first (R79) -/
  cache : List Nat
  /-- channels whose entry is being fetched -/
  misses : List Nat
  /-- shadow slots in use: slot to channel and the GEN of the superseded entry -/
  shadows : NMap (Nat × Nat)
  /-- every staged record of the pending commit has been checked (R84, R89 step 2) -/
  checked : Bool
  deriving DecidableEq, Repr

/-- Grainer engines, machines, harvest (ch. 3). -/
structure GrnPart where
  threads : NMap Thread
  ctl : NMap Core
  /-- pending interrupts, one bit per block ID (R123) -/
  ipend : Nat
  harvest : NMap HSlot
  nextSlot : Nat
  /-- threads that have yielded, each with the threads that have still to issue (R163) -/
  yields : List (Nat × List Nat)
  /-- owners waiting for a semaphore, oldest first: owner and semaphore (R160) -/
  semWaits : List (Nat × Nat)
  /-- when each held semaphore's lease started -/
  semSince : NMap Nat
  /-- message queues of BRG, SIG, DSP and BTN, oldest first -/
  msgs : List Message
  /-- engines held by a self-test slice or out of service -/
  closed : List Nat
  /-- pool words whose GRN_POOL_ECC is written -/
  poolErrs : List Nat
  deriving DecidableEq, Repr

/-- The saltern (ch. 7). -/
structure SalPart where
  units : NMap Flow
  nextUnit : Nat
  queues : NMap (List Queued)
  /-- berths whose last self-test slice failed -/
  failed : List Nat
  /-- berths draining: when the drain began -/
  drains : NMap Nat
  flushes : List Nat
  /-- units dispatched before the pending SAL commit was written whose ENQ had not taken effect then (R283) -/
  early : List Nat
  /-- soft errors to come, one outcome for each check in turn (the model's own, log entry 70) -/
  soft : List Nat
  deriving DecidableEq, Repr

/-- A policer or shaper: its two credits in units of 1/32,000,000 byte (kb/s times ticks), and when they were brought up to
date (R308, R311). -/
structure Bucket where
  c : Int
  p : Int
  last : Nat
  deriving DecidableEq, Repr

/-- The rake's shapers and policers, and frames on the wire (ch. 8). -/
structure RakPart where
  meters : NMap Bucket
  /-- class credits by port and class: 8 · port + class -/
  classes : NMap Bucket
  /-- slot that an Ethernet port is sending from -/
  sending : NMap Nat
  /-- round robin: last slot served by port and class -/
  turn : NMap Nat
  /-- RAK_METER_PENDING is written for the pending commit (R313) -/
  noted : Bool
  deriving DecidableEq, Repr

/-! ### Cable lanes (ch. 5) -/

/-- Phases of a full training (R192). -/
inductive Phase where
  | down | detect | train | reverse | align | up | raw
  deriving DecidableEq, Repr

/-- What a port keeps of one lane; its state is LNK_LANE_STATE. -/
structure Lane where
  /-- when the present state was entered -/
  since : Nat
  /-- consecutive frames with RX_READY; the far receiver asked for precoding; the far transmitter will precode; it offers reversal -/
  ready : Nat
  precodeReq : Bool
  precodeOn : Bool
  revCapable : Bool
  /-- answers standing for taps c(-2), c(-1), c(1): 0 not updated, 1 updated, 2 at limit (R190) -/
  answers : List Nat
  /-- CWC of the first valid marker while hunting; lock; consecutive invalid markers (R182) -/
  first : Option Nat
  locked : Bool
  bad : Nat
  /-- CWC at which the lane rejoins (R198) -/
  joinAt : Option Nat
  /-- consecutive eye heights below the minimum; consecutive attempts whose TRAIN this lane failed -/
  low : Nat
  fails : Nat
  slips : Nat
  deriving DecidableEq, Repr

/-- A parcel in the replay buffer (R183). -/
structure Held where
  seq : Nat
  bytes : List Byte
  deriving DecidableEq, Repr

/-- A parcel waiting to be sent: header and body, VOID, and the unit it carries, when it starts one. -/
structure OutParcel where
  void : Bool
  bytes : List Byte
  mark : Option Mark
  deriving DecidableEq, Repr

/-- A lane change in progress (R200): the map this end will hold, SWITCH, and how far it has come. -/
structure LaneChange where
  map : Nat
  switchAt : Nat
  own : Bool
  granted : Bool
  switched : Option Nat
  reqAt : Nat
  deriving DecidableEq, Repr

structure LnkPort where
  phase : Phase
  phaseAt : Nat
  attempts : Nat
  /-- highest rate index that may be tried (R193) -/
  rateFrom : Nat
  lanes : NMap Lane
  nextSeq : Nat
  rxSeq : Nat
  rejecting : Bool
  held : List Held
  /-- position in `held` of the next parcel to resend -/
  resend : Option Nat
  /-- when a parcel was last freed or first held; replays since then -/
  ackAt : Nat
  fruitless : Nat
  /-- parcels accepted since the last ACK sent, and when that was -/
  accepted : Nat
  ackSent : Nat
  /-- lane control blocks and parcels (header and body) waiting to be sent; accepted parcels waiting for the tunnel layer,
  with the Moment of their first symbol -/
  blocks : List (List Byte)
  queue : List OutParcel
  inbox : List (Nat × List Byte)
  /-- a codeword count known at a time, for each direction (R180) -/
  cwc : Nat
  cwcAt : Nat
  rxCwc : Nat
  rxCwcAt : Nat
  /-- sleep of each direction: 0 awake, 1 half, 2 deep; since when; the entry agreed (state and codeword) -/
  txSleep : Nat
  txSince : Nat
  txEntry : Option (Nat × Nat)
  rxSleep : Nat
  rxSince : Nat
  rxEntry : Option (Nat × Nat)
  /-- when a parcel was last sent -/
  idleAt : Nat
  change : Option LaneChange
  /-- since when a direction has no lane able to carry blocks -/
  deadAt : Option Nat
  eyeAt : Nat
  /-- skews measured (R245), in ps -/
  fwdSkew : Option Int
  revSkew : Option Int
  deriving DecidableEq, Repr

/-! ### Tunnels (ch. 6) -/

/-- The peer's HELLO (R223). -/
structure Hello where
  pos : Nat
  flags : Nat
  gen : Nat
  bootId : Nat
  session : Nat
  fwdSkew : Nat
  revSkew : Nat
  port : Nat
  deriving DecidableEq, Repr

/-- A unit being received in fragments (R217, R220). -/
structure Partial where
  /-- the unit in hand; none while the rest of a dropped unit is discarded -/
  unit : Option Nat
  next : Nat
  deriving DecidableEq, Repr

/-- A re-allotment request in progress (R238). -/
structure AllotReq where
  ver : Nat
  total : Nat
  shares : NMap Nat
  epoch : Nat
  sentAt : Nat
  acked : Bool
  deriving DecidableEq, Repr

structure TunPort where
  helloAt : Nat
  sent : Bool
  hello : Option Hello
  session : Nat
  token : Nat
  /-- units in reassembly by DCHAN; invocation counts sent and accepted by vault slot (R229, R220) -/
  parts : NMap Partial
  ivcTx : NMap Nat
  ivcRx : NMap Nat
  /-- when EST_REQ was last sent for a channel that waits for its answer -/
  est : NMap Nat
  /-- allotment in force: shares and credits in 1/256 byte by channel (R235) -/
  ver : Nat
  shares : NMap Nat
  credit : NMap Int
  deficit : NMap Int
  pending : Option AllotReq
  retry : Bool
  /-- peer's totals: previous and acknowledged next, with their version parity and EPOCH; RSV bytes and flakes of an epoch (R240) -/
  rxTotal : Nat
  rxParity : Nat
  rxNext : Option (Nat × Nat × Nat)
  rxEpoch : Nat
  rxBytes : Nat
  rxFlakes : Nat
  /-- link time (R244): sequence numbers, t1, t2, t3, t4 of the exchange, the previous t3 and t4, the mean delay in ticks,
  the SYNC that waits for its FOLLOW_UP with its time of receipt, and when SYNC, PDELAY_REQ and EST were last sent -/
  syncSeq : Nat
  pdelaySeq : Nat
  t1 : Int
  t2 : Int
  t3 : Int
  t4 : Int
  prev : Option (Int × Int)
  delay : Int
  syncRx : Option (Nat × Int)
  syncAt : Nat
  pdelayAt : Nat
  /-- whether this port's HOLD_REPORT has been sent, and under which generation (R249) -/
  reported : Option Nat
  /-- the link carries no tunnels (R247) -/
  closed : Bool
  /-- epoch whose reserved credits are in force; last slot served from reserved credit and from the remainder -/
  turn : Nat × Nat
  deriving DecidableEq, Repr

structure TunPart where
  ports : NMap TunPort
  /-- units sent by each sending channel, modulo 2^16 -/
  cseq : NMap Nat
  bootId : Nat
  deriving DecidableEq, Repr

/-! ### Ethernet ports (ch. 8) -/

structure EthPort where
  /-- entries of the list in force; ConfigChangeTime of a pending change -/
  listLen : Nat
  changeAt : Option Nat
  /-- ETH_CLASS_BAD is written since the last commit -/
  classBad : Bool
  /-- gPTP messages waiting to be sent: message type, sequence, a time they carry -/
  ptp : List (Nat × Nat × Int)
  syncSeq : Nat
  pdelaySeq : Nat
  syncAt : Nat
  pdelayAt : Nat
  announceAt : Nat
  t1 : Int
  t2 : Int
  t4 : Int
  prev : Option (Int × Int)
  delay : Int
  syncRx : Option (Nat × Int)
  capable : Bool
  /-- ETH_PTP_NOT_CAPABLE is written and the delay has not come back since -/
  slow : Bool
  deriving DecidableEq, Repr

/-! ### The bridge (ch. 9) -/

/-- Who waits for the completion of a request: a core's load (register, size, sign), a link partner or a tunnel under its own
requester ID and tag, or nobody (a configuration write). -/
inductive Requester where
  | core (n rd size : Nat) (sign : Bool)
  | link (group rid tag : Nat)
  | nobody
  deriving DecidableEq, Repr

/-- A non-posted request: bridge instance (4 the local bus), requester, target address, bytes asked for, the TLP as it leaves
with tag 0, its tag and harvest slot once issued, bytes received; the unit that carried it, for its stamp points. -/
structure BrgReq where
  inst : Nat
  src : Requester
  addr : Nat
  len : Nat
  tlp : List Byte
  chan : Nat
  tag : Option Nat
  slot : Option Nat
  got : List Byte
  mark : Option Mark
  deriving DecidableEq, Repr

/-- An entry of the posted-write error FIFO (R330). -/
structure PwErr where
  addr : Nat
  source : Nat
  cause : Nat
  chan : Nat
  moment : Nat
  deriving DecidableEq, Repr

/-- A transfer of a mover: source, destination, length, from its ring or from a MOVE message of a channel, whether it raises a
vector, the vector (controller · 2^12 + number), and whether it waits for a lease. -/
structure Transfer where
  src : Nat
  dst : Nat
  len : Nat
  ring : Bool
  chan : Nat
  raise : Bool
  vector : Nat
  waits : Bool
  deriving DecidableEq, Repr

structure Mover where
  held : List Transfer
  run : Option Transfer
  /-- the last transfer came from the ring -/
  fromRing : Bool
  deriving DecidableEq, Repr

/-- A window transfer of the local bus: window, low bits of TARGET, address offset, bytes to write or to read, and the request it
serves. -/
structure LocReq where
  window : Nat
  target : Nat
  offset : Nat
  data : List Byte
  len : Nat
  write : Bool
  src : Requester
  chan : Nat
  slot : Option Nat
  since : Nat
  deriving DecidableEq, Repr

/-- Bytes read ahead of requests (R336). -/
structure Prefetched where
  region : Nat
  addr : Nat
  bytes : List Byte
  since : Nat
  deriving DecidableEq, Repr

structure BrgPart where
  reqs : List BrgReq
  pwerr : List PwErr
  ahead : List Prefetched
  /-- emulated AtomicOps that wait for their semaphore, by link and tag, with the time they began to wait -/
  emu : NMap Nat
  movers : NMap Mover
  loc : List LocReq
  /-- window transfer running on each peripheral -/
  busy : NMap LocReq
  uartRx : NMap (List Byte)
  uartTx : NMap (List Byte)
  /-- MSI-X tables and pending bits by 2048 · controller + vector: address, data, vector control -/
  msix : NMap (Nat × Nat × Nat)
  /-- pending vectors, with the route word and channel of the RAISE that is to be sent when unmasked -/
  msixPend : NMap (Option (Nat × Nat))
  /-- PERST_N by controller: 0 while low, else 1 + the time it rose -/
  perst : NMap Nat
  /-- BRG_REGION_PENDING is written for the pending commit (R338) -/
  noted : Bool
  deriving DecidableEq, Repr

/-! ### Signal gateway, CAN, GPIO (ch. 10) -/

/-- A unit delivered to a consumer of the control berth or of the DRAM group, under the entry its ENQ took effect with. -/
structure Delivered where
  chan : Nat
  gen : Nat
  entry : List Byte
  bytes : List Byte
  hops : Option Nat
  deriving DecidableEq, Repr

structure GpioEdge where
  level : Bool
  moment : Nat
  word : Nat
  since : Nat
  deriving DecidableEq, Repr

structure SigPart where
  inbox : List Delivered
  /-- transitions that wait for DEBOUNCE_US, by line; levels as last counted -/
  edges : NMap GpioEdge
  levels : NMap Bool
  deriving DecidableEq, Repr

structure CanPort where
  /-- frames in transmit buffers with the time each entered -/
  bufs : List (List Byte × Nat)
  /-- left the bus for a commit; may recover from bus-off -/
  away : Bool
  recover : Bool
  deriving DecidableEq, Repr

/-! ### Display heads (ch. 11) -/

/-- A tile at a head's tile writer, as it was enqueued; `key` is the ordering key of its ingress stamp. `waited` once it has been
checked and waits; `held` once it waits for a lease. -/
structure Tile where
  unit : Delivered
  key : Nat
  waited : Bool
  held : Bool
  deriving DecidableEq, Repr

/-- A PRESENT (R395): layer, buffer, the sending channel, the stamp keys of its earlier tiles, when the last of them was written. -/
structure Present where
  layer : Nat
  fb : Nat
  chan : Nat
  before : List Nat
  readyAt : Option Nat
  deriving DecidableEq, Repr

structure Head where
  /-- when the pending commit was written -/
  commitAt : Option Nat
  presents : List Present
  tiles : List Tile
  /-- consecutive undamaged frames; this frame is damaged; video frames still to mute; the link retrains -/
  quiet : Nat
  damaged : Bool
  mute : Nat
  training : Bool
  /-- HPD level; the link went down with HPD or AUX and its return is still to be recorded -/
  hpd : Bool
  lost : Bool
  /-- the hold-over layer is shown -/
  holdShown : Bool
  lastVblank : Nat
  deriving DecidableEq, Repr

/-- `globals`: the shadows of no head take effect with the next head to apply (R391). -/
structure DspPart where
  heads : NMap Head
  globals : Bool
  deriving DecidableEq, Repr

/-! ### Cable ports (ch. 12) -/

/-- What a request of this port waits for (R423, R424): the CBL_CMD operation, when it was sent, retries left, and when a
retry falls due. -/
structure CblReq where
  op : Nat
  arg : Nat
  sentAt : Nat
  retries : Nat
  retryAt : Option Nat
  accepted : Bool
  /-- whether a CBL_CMD asked for it (its status then goes to CBL_CMD_STATUS) -/
  own : Bool
  deriving DecidableEq, Repr

structure CblPort where
  gsrc : Bool
  gsnk : Bool
  discharge : Bool
  /-- roles held at attach: power and data -/
  attachPower : Nat
  attachData : Nat
  /-- supply asked for or agreed but not yet in force: millivolts and milliamperes -/
  nego : Option (Nat × Nat)
  trips : List Nat
  latched : Bool
  vconnOc : Bool
  /-- the other CC pin shows Ra -/
  ra : Bool
  req : Option CblReq
  /-- the peer's Avrath mode VDO and DP Status; the modes it offers (bit 0 Avrath, bit 1 DisplayPort) -/
  peerVdo : Nat
  peerDp : Nat
  offers : Nat
  /-- deadlines: Request after the SAFE capabilities, contract under a lowered ceiling -/
  safeAt : Option Nat
  ceilingAt : Option Nat
  /-- Source_Capabilities sent since the derived PDOs last changed, and which AMS is in progress -/
  ams : Nat
  refusedAt : Option Nat
  deriving DecidableEq, Repr

structure CblPart where
  ports : NMap CblPort
  /-- policy image: when the trial began, the SVN, hash and start address of the image running, the hash of the last image to
  confirm, the slot that waits for a handover -/
  trialAt : Option Nat
  svn : Nat
  hash : List Byte
  start : Nat
  confirmed : List Byte
  waiting : Option Nat
  restartAt : Option Nat
  deriving DecidableEq, Repr

/-! ### Trust and keys (ch. 13) -/

/-- A node of the ledger (R443). -/
structure Node where
  parent : Nat
  depth : Nat
  inUse : Bool
  usage : Nat
  epoch : Nat
  deriving DecidableEq, Repr

/-- A vault slot that holds a key (R446). `blob` is the address a pool slot was loaded from. -/
structure VaultSlot where
  key : List Byte
  node : Nat
  depth : Nat
  epoch : Nat
  kcv : Nat
  blob : Option Nat
  used : Nat
  doomed : Bool
  deriving DecidableEq, Repr

/-- NODE_INVALIDATE or RETURN_PREPARE on its way to point P and on to its end (R451, R494): the nodes, the request's address, the
return reference, and when P fell. -/
structure Invalidation where
  nodes : List Nat
  request : Nat
  reference : Option (List Byte)
  point : Option Nat
  deriving DecidableEq, Repr

structure KeyPart where
  /-- life-cycle fuse group, anchor, owner set: OTP -/
  lifecycle : Nat
  anchor : Nat
  owner : Option (List Byte)
  /-- the ledger (R443): nodes, SVN floors of kinds 1 to 3, SESSION_HI; whether it was lost -/
  nodes : NMap Node
  floors : List Nat
  sessionHi : Nat
  lost : Bool
  /-- SESSION values served from the present block -/
  sessions : Nat
  noSession : Bool
  slots : NMap VaultSlot
  useCount : Nat
  /-- addresses of requests waiting (R454) -/
  calls : List Nat
  invalidating : Option Invalidation
  /-- a ledger copy written as VERSION anchor + 1 whose OTP step is not burned yet (R444) -/
  written : Option (NMap Node)
  /-- SHA-384 of the Epmas kernel authenticated; Epmas has failed a self-test (R466) -/
  kernel : List Byte
  failed : Bool
  /-- SHA-384 of the hub-firmware image authenticated, its SVN, and of the last return request (R438, R434) -/
  firmware : List Byte
  firmwareSvn : Nat
  returned : List Byte
  /-- seal pipes out of service -/
  pipesOut : List Nat
  /-- pool loads that wait for a slot: channel, blob, since when -/
  poolWaits : List (Nat × Nat × Nat)
  lowWritten : Bool
  exhaustedWritten : Bool
  released : Bool
  deriving DecidableEq, Repr

/-! ### Gauges and self-test (ch. 14) -/

/-- Live accumulators of a gauge (R473). -/
structure GauAcc where
  count : Nat
  sum : Int
  low : Int
  high : Int
  bins : NMap Nat
  deriving DecidableEq, Repr

/-- The set of one target (R486 to R490): slices passed in it, when the last one completed, whether it is forced in this
interval, whether its target failed, whether it is held out of service by its set, and when it may next run. -/
structure SltSet where
  done : Nat
  lastAt : Nat
  forced : Bool
  failed : Bool
  out : Bool
  retryAt : Nat
  deriving DecidableEq, Repr

/-- A slice in progress. -/
structure Slice where
  kind : Nat
  target : Nat
  began : Nat
  forced : Bool
  deriving DecidableEq, Repr

structure SltPart where
  /-- sets by kind and target: 256 · kind + target -/
  sets : NMap SltSet
  running : Option Slice
  /-- when the last full pass of each kind ended -/
  cycles : NMap Nat
  deriving DecidableEq, Repr

/-! ### Bus, log and outputs -/

/-- Halves of 64-bit registers held or snapshotted between two 32-bit accesses (R12), by register address. -/
structure BusPart where
  low : NMap Nat
  snap : NMap Nat
  /-- rings that hold their whole capacity, so that HEAD and TAIL are equal (R477, R485, R252): 0 bittern, 1 trace, 2 hold-over report -/
  full : List Nat
  deriving DecidableEq, Repr

/-- The bittern log before the ring (R476 to R478). -/
structure BtnPart where
  staged : List Rec
  logSeq : Nat
  /-- records discarded since staging last had room -/
  discards : Nat
  /-- when a rate-limited record was last written, by block, code and instance -/
  last : NMap Nat
  deriving DecidableEq, Repr

/-- Where something the hub sends goes. -/
inductive Sink where
  | bus | avs | frame | parcel | lcb | training | lmp | tlp | host | pd | vdm | can | gpio | localbus | video | aux | tap | flash | rails | gates | aon
  deriving DecidableEq, Repr

/-- Something the hub sends to the outside: where to, numbers that say which port and what, and bytes. -/
structure Out where
  sink : Sink
  args : List Nat
  bytes : List Byte
  deriving DecidableEq, Repr

end Sys2Proof.Machine
end

