-- ==== Sys2Proof/Machine/State.lean ====
section
/-! DEFINITION. The state of the hub: everything the spec gives it, as plain data, the reasons a command can stop, and the
state right after power is first applied (device state OFF). -/
namespace Sys2Proof.Machine

/-- Reasons the machine stops with a fault. None is used: the spec defines every access of a bus master. Safe. -/
inductive Fault where
  /-- raised by no command -/
  | unreachable
  deriving DecidableEq, Repr

/-- Reasons a command is refused. -/
inductive Refusal where
  /-- a command whose meaning is not written yet; safe -/
  | notModelled (mnemonic : String)
  deriving DecidableEq, Repr

structure State where
  pending : List Instr
  /-- ticks since the model's start; never stepped or restarted (the model's own) -/
  clock : Nat
  /-- the Moment (R35), modulo 2^64 -/
  moment : Nat
  regs : RegFile
  shadows : RegFile
  /-- shadows as a pending commit took them at its COMMIT write (R56) -/
  taken : RegFile
  mem : Memory
  bus : BusPart
  btn : BtnPart
  dev : DevPart
  boot : BootPart
  tmb : TmbPart
  chn : ChnPart
  grn : GrnPart
  sal : SalPart
  rak : RakPart
  lnk : NMap LnkPort
  tun : TunPart
  eth : NMap EthPort
  brg : BrgPart
  sig : SigPart
  can : NMap CanPort
  dsp : DspPart
  cbl : CblPart
  key : KeyPart
  /-- live accumulators by gauge (R473) -/
  gau : NMap GauAcc
  slt : SltPart
  /-- free values drawn so far (the model's own) -/
  drawn : Nat
  /-- what the hub has sent, newest first (the model's own record) -/
  out : List Out
  deriving DecidableEq, Repr

def DevPart.reset : DevPart where
  st := .off
  safeLatch := false
  latchCause := 0
  thermalHold := false
  vin := false
  vbus := 0
  target := 2
  counted := []
  commandAt := 0
  timeoutWritten := false
  testSetpoint := 2
  below := 0
  belowAt := none
  temp := 25
  heldBoth := 0
  lossSince := none
  trapResetAt := none

def BootPart.reset : BootPart where
  groups := 0
  railAt := 0
  railGroup := none
  railFaultAt := none
  faults := 0
  pgoodAt := 0
  refAt := 0
  standby := false
  epmas := false
  trained := false
  tested := false
  strapRef := 0
  strapBond := 0
  strapRole := 0
  gib := 1
  rateWritten := false
  boardRate := 0
  linkAuto := 0
  fwStart := 0
  xspi := none

def TmbPart.reset : TmbPart := ⟨[], none, 0, 0, 0, false, 0, 0, []⟩
def ChnPart.reset : ChnPart := ⟨[], [], [], [], false⟩

/-- A machine right after its restart: monitor mode, pc and CSRs at their reset values (R123). -/
def Core.reset : Core where
  regs := []
  pc := 0
  status := 1
  tvec := 0
  tepc := 0
  tcause := 0
  tval := 0
  scratch := 0
  ienable := 0
  steps := 0
  mpuBase := []
  mpuCfg := []
  wait := .none
  halted := false
  fresh := false

def GrnPart.reset : GrnPart := ⟨[], [], 0, [], 0, [], [], [], [], [], []⟩
def SalPart.reset : SalPart := ⟨[], 0, [], [], [], [], [], []⟩
def BtnPart.reset : BtnPart := ⟨[], 0, 0, []⟩

def BrgPart.reset : BrgPart := ⟨[], [], [], [], [], [], [], [], [], [], [], [], false⟩

def CblPart.reset : CblPart := ⟨[], none, 0, [], 0, [], none, none⟩

/-- The ledger's fixed nodes (R442). -/
def firstNodes : NMap Node :=
  [(0, ⟨0, 0, true, 4, 0⟩), (1, ⟨0, 1, true, 4, 0⟩), (2, ⟨0, 1, true, 4, 0⟩), (3, ⟨0, 1, true, 4, 0⟩), (4, ⟨0, 1, true, 4, 0⟩),
   (5, ⟨0, 1, true, 4, 0⟩)]

def KeyPart.reset : KeyPart where
  lifecycle := 0
  anchor := 0
  owner := none
  nodes := firstNodes
  floors := [0, 0, 0]
  sessionHi := 0
  lost := false
  sessions := 0
  noSession := false
  slots := []
  useCount := 0
  calls := []
  invalidating := none
  written := none
  kernel := []
  failed := false
  firmware := []
  firmwareSvn := 0
  returned := []
  pipesOut := []
  poolWaits := []
  lowWritten := false
  exhaustedWritten := false
  released := false

/-- The machine right after reset: no supply, every register at its reset value, memory with nothing listed, no command
waiting. -/
def State.reset : State where
  pending := []
  clock := 0
  moment := 0
  regs := []
  shadows := []
  taken := []
  mem := []
  bus := ⟨[], [], []⟩
  btn := BtnPart.reset
  dev := DevPart.reset
  boot := BootPart.reset
  tmb := TmbPart.reset
  chn := ChnPart.reset
  grn := GrnPart.reset
  sal := SalPart.reset
  rak := ⟨[], [], [], [], false⟩
  lnk := []
  tun := ⟨[], [], 0⟩
  eth := []
  brg := BrgPart.reset
  sig := ⟨[], [], []⟩
  can := []
  dsp := ⟨[], false⟩
  cbl := CblPart.reset
  key := KeyPart.reset
  gau := []
  slt := ⟨[], none, []⟩
  drawn := 0
  out := []

end Sys2Proof.Machine
end

