-- ==== Sys2Proof/Machine/Ops.lean ====
section
/-! DEFINITION. How commands change the state: a small language of effects, and the operations over registers, memory, the
log and the interrupts that every meaning is built from. A command's effect never touches the queue of waiting commands. -/
namespace Sys2Proof.Machine

/-! ### Effects and programs of effects -/

/-- One change of the state. Registers and memory change only through effects that keep them canonical and legal (R10). -/
inductive Eff where
  /-- a field in force takes a value; a value the field cannot hold changes nothing (R10) -/
  | reg (r : RegId) (inst idx v : Nat)
  /-- a shadow takes a value -/
  | shadow (r : RegId) (inst idx v : Nat)
  /-- fields for which the test is false return to their reset values -/
  | keepRegs (p : RegId → Nat → Nat → Bool)
  /-- shadows for which the test is false are dropped: they equal the value in force again (R8) -/
  | keepShadows (p : RegId → Nat → Nat → Bool)
  /-- a commit takes the shadows that the test selects, as they stand -/
  | take (p : RegId → Nat → Nat → Bool)
  /-- the commit has been applied: shadows that still hold what it took equal the value in force again -/
  | settle (p : RegId → Nat → Nat → Bool)
  /-- the commit has ended otherwise: what it took is forgotten -/
  | untake (p : RegId → Nat → Nat → Bool)
  /-- bytes of hub memory (DRAM or pool) -/
  | mem (a : Nat) (bs : List Byte)
  | memClear (lo hi : Nat)
  /-- a record enters the staging if it has room (R477) -/
  | stage (r : Rec)
  | out (o : Out)
  | moment (v : Nat)
  /-- one more free value has been drawn -/
  | draw
  | bus (f : BusPart → BusPart)
  | btn (f : BtnPart → Nat × Nat × NMap Nat)
  | unstage
  | dev (f : DevPart → DevPart)
  | boot (f : BootPart → BootPart)
  | tmb (f : TmbPart → TmbPart)
  | chn (f : ChnPart → ChnPart)
  | grn (f : GrnPart → GrnPart)
  | sal (f : SalPart → SalPart)
  | rak (f : RakPart → RakPart)
  | lnk (f : NMap LnkPort → NMap LnkPort)
  | tun (f : TunPart → TunPart)
  | eth (f : NMap EthPort → NMap EthPort)
  | brg (f : BrgPart → BrgPart)
  | sig (f : SigPart → SigPart)
  | can (f : NMap CanPort → NMap CanPort)
  | dsp (f : DspPart → DspPart)
  | cbl (f : CblPart → CblPart)
  | key (f : KeyPart → KeyPart)
  | gau (f : NMap GauAcc → NMap GauAcc)
  | slt (f : SltPart → SltPart)

/-- A program of effects: what a command does, each part seeing the state the part before it left. -/
inductive Prog where
  | skip
  | act (e : Eff)
  | seq (p q : Prog)
  | get (k : State → Prog)

/-- Capacity of the bittern staging (R477). -/
def stagingCap : Nat := 256

def State.apply (s : State) : Eff → State
  | .reg r i j v => { s with regs := s.regs.write r i j v }
  | .shadow r i j v => if (r.isShadowed && r.legal v && spotFits i j) = true then { s with shadows := s.shadows.put (regKey r i j) ⟨r, v⟩ } else s
  | .keepRegs p => { s with regs := s.regs.chosen p }
  | .keepShadows p => { s with shadows := s.shadows.chosen p }
  | .take p => { s with taken := (s.shadows.chosen p).foldl (fun m e => m.put e.1 e.2) (s.taken.chosen fun r i j => !p r i j) }
  | .settle p => { s with
      shadows := s.shadows.filter fun e => !(p e.2.reg (keyInst e.1) (keyIdx e.1) && s.taken.get? e.1 == some e.2)
      taken := s.taken.chosen fun r i j => !p r i j }
  | .untake p => { s with taken := s.taken.chosen fun r i j => !p r i j }
  | .mem a bs => { s with mem := s.mem.writes a bs }
  | .memClear lo hi => { s with mem := s.mem.clear lo hi }
  | .stage r => if s.btn.staged.length < stagingCap then { s with btn := { s.btn with staged := s.btn.staged ++ [r] } } else s
  | .out o => { s with out := o :: s.out }
  | .moment v => { s with moment := v % 2 ^ 64 }
  | .draw => { s with drawn := s.drawn + 1 }
  | .bus f => { s with bus := f s.bus }
  | .btn f => { s with btn := { s.btn with logSeq := (f s.btn).1 % 2 ^ 20, discards := (f s.btn).2.1, last := (f s.btn).2.2 } }
  | .unstage => { s with btn := { s.btn with staged := s.btn.staged.tail } }
  | .dev f => { s with dev := f s.dev }
  | .boot f => { s with boot := f s.boot }
  | .tmb f => { s with tmb := f s.tmb }
  | .chn f => { s with chn := f s.chn }
  | .grn f => { s with grn := f s.grn }
  | .sal f => { s with sal := f s.sal }
  | .rak f => { s with rak := f s.rak }
  | .lnk f => { s with lnk := f s.lnk }
  | .tun f => { s with tun := f s.tun }
  | .eth f => { s with eth := f s.eth }
  | .brg f => { s with brg := f s.brg }
  | .sig f => { s with sig := f s.sig }
  | .can f => { s with can := f s.can }
  | .dsp f => { s with dsp := f s.dsp }
  | .cbl f => { s with cbl := f s.cbl }
  | .key f => { s with key := f s.key }
  | .gau f => { s with gau := f s.gau }
  | .slt f => { s with slt := f s.slt }

def Prog.run : Prog → State → State
  | .skip, s => s
  | .act e, s => s.apply e
  | .seq p q, s => q.run (p.run s)
  | .get k, s => (k s).run s

def Prog.all : List Prog → Prog
  | [] => .skip
  | p :: t => .seq p (Prog.all t)

def Prog.on (b : Bool) (p : Prog) : Prog := if b then p else .skip

def Prog.each {α : Type} (l : List α) (f : α → Prog) : Prog := Prog.all (l.map f)

/-- A command that completes: the next state is what its program of effects leaves. -/
def State.does (s : State) (p : Prog) : Host.Outcome State Fault Refusal := .next (p.run s)

/-! ### Blocks and fields in force -/

/-- Block IDs (R54). -/
def Blk.id (b : Blk) (inst : Nat) : Nat :=
  match b with
  | .hdr => inst
  | .sys => 0x01 | .tmb => 0x02 | .chn => 0x03 | .grn => 0x04 | .hrv => 0x05
  | .lnk => 0x10 + inst | .tun => 0x18 | .sal => 0x19 | .rak => 0x1A | .eth => 0x20 + inst
  | .brg => 0x30 | .pci => 0x31 + inst | .sig => 0x38 | .can => 0x40 + inst | .dsp => 0x48
  | .cbl => 0x50 | .key => 0x58 | .gau => 0x60 | .btn => 0x61 | .slt => 0x68 | .ddr => 0x70 | .loc => 0x78

/-- The block IDs of R54. -/
def blockIds : List Nat :=
  [0x01, 0x02, 0x03, 0x04, 0x05, 0x10, 0x11, 0x12, 0x13, 0x14, 0x15, 0x18, 0x19, 0x1A, 0x20, 0x21, 0x22, 0x23, 0x24,
   0x25, 0x26, 0x27, 0x28, 0x29, 0x30, 0x31, 0x32, 0x33, 0x34, 0x38, 0x40, 0x41, 0x42, 0x43, 0x44, 0x45, 0x46, 0x47,
   0x48, 0x50, 0x58, 0x60, 0x61, 0x68, 0x70, 0x78]


/-- The block instance that owns a field: cable ports and heads are parts of one block. -/
def RegId.owner (r : RegId) (inst : Nat) : Nat := r.info.blk.id inst

/-- A stored field, whatever the level. -/
def State.raw (s : State) (r : RegId) (inst : Nat := 0) (idx : Nat := 0) : Nat := s.regs.read r inst idx

/-- The level in force of a block instance (R55). -/
def State.level (s : State) (blk : Nat) : Nat := s.raw .BLK_STATUS_LEVEL_ACTIVE blk

/-- Engines 32·w to 32·w + 31 that no self-test slice holds (R132). -/
def State.openWord (s : State) (w : Nat) : Nat :=
  (List.range 32).foldl (fun n i => if s.grn.closed.contains (32 * w + i) then n else n + 2 ^ i) 0

/-- Rates of DDR_CFG.RATE in MT/s (R537). -/
def ddrRate : Nat → Nat
  | 0 => 8533
  | 1 => 7500
  | 2 => 6400
  | _ => 4266

/-- A fixed PDO as USB PD encodes it: 50 mV and 10 mA units. -/
def fixedPdo (mv ma : Nat) : Nat := (mv / 50) * 2 ^ 10 + ma / 10

/-- Fixed sink PDOs within a ceiling (R430). -/
def fixedPdos (mv ma : Nat) : List Nat := ([5000, 9000, 15000, 20000].filter (· ≤ mv)).map fun v => fixedPdo v ma

/-- Power of a port's source contract in µW, when the pool counts it: above 2.5 W (R412). -/
def State.pooled (s : State) (p : Nat) : Nat :=
  let w := s.raw .CBL_CONTRACT_MV p * s.raw .CBL_CONTRACT_MA p
  if s.raw .CBL_PORT_STATUS_POWER_ROLE p = 1 ∧ s.raw .CBL_PORT_STATUS_CONTRACT p = 1 ∧ 2500000 < w then w else 0

/-- Source offers of a port in basic level: millivolts and milliamperes; EPR 28 V last (R412). -/
def State.offers (s : State) (p : Nat) : List (Nat × Nat) :=
  let mv := s.raw .CBL_CEILING_SRC_MV p
  let ma := s.raw .CBL_CEILING_SRC_MA p
  let others := ((List.range 6).filter (· != p)).foldl (fun n q => n + s.pooled q) 0
  let pool := s.raw .CBL_SRC_POOL_WATTS
  let pa := if pool = 0 then mv * ma else min (mv * ma) (pool * 1000000 - others)
  let imax := min ma (if s.raw .CBL_PORT_STATUS_CABLE_5A p = 1 then 5000 else 3000)
  let ten (n : Nat) := n / 10 * 10
  (5000, ten (min imax (max 500 (pa / 5000)))) ::
    (([9000, 15000, 20000].filter fun v => decide (v ≤ mv) && decide (1000 ≤ min imax (pa / v))).map fun v => (v, ten (min imax (pa / v)))) ++
    (if s.raw .CBL_PORT_CFG_EPR_EN p = 1 ∧ 28000 ≤ mv ∧ s.raw .CBL_PORT_STATUS_CABLE_EPR p = 1 then [(28000, ten (min imax (pa / 28000)))] else [])

/-- The value the hub derives for an expert field in basic level (R55), where it follows other values. -/
def State.derived (s : State) (r : RegId) (inst idx : Nat) : Nat :=
  match r with
  | .CHN_CACHE_CFG_PIN_HOLD => if s.raw .CHN_CFG_LOC = 1 then 1 else 0
  | .GRN_ENG_MASK_ENGINES => s.openWord idx
  | .GRN_HOLD_MASK_ENGINES => s.openWord idx
  | .TUN_TIMERS_ALLOT_TIMEOUT_US => 8 * (s.raw .TUN_CFG_LEAD - 1)
  | .SAL_QCFG_PAN_LIMIT => min (s.raw .SAL_QCFG_LIMIT 0 idx) 12288
  | .CAN_TDC_TDCO => s.raw .CAN_DBT_DBRP inst * (1 + s.raw .CAN_DBT_DTSEG1 inst) % 128
  | .CAN_TDC_TDC_EN => if s.raw .CAN_DBT_DBRP inst * (1 + s.raw .CAN_DBT_DTSEG1 inst + s.raw .CAN_DBT_DTSEG2 inst) < 80 then 1 else 0
  | .DSP_FETCH_BUDGET_BUDGET => 360 * ddrRate (s.raw .DDR_STATUS_RATE_ACTIVE) / 8533
  | .CBL_SRC_PDO_PDO => ((((s.offers inst).filter fun o => o.1 ≤ 20000).map fun o => fixedPdo o.1 o.2).getD idx 0) % 2 ^ 32
  | .CBL_SNK_PDO_PDO => ((fixedPdos (s.raw .CBL_CEILING_SNK_MV inst) (s.raw .CBL_CEILING_SNK_MA inst)).getD idx 0) % 2 ^ 32
  | .LNK_TXEQ_CM2 | .LNK_TXEQ_CM1 | .LNK_TXEQ_CP1 | .PCI_MPS_MPS | .PCI_MPS_MRRS
  | .DSP_LINK_CFG_RATE | .DSP_LINK_CFG_LANES | .DSP_LINK_CFG_TX_SETTING
  | .ETH_SERDES_TX_PRE | .ETH_SERDES_TX_POST | .ETH_PTP_LAT_TX_LAT | .ETH_PTP_LAT_RX_LAT => s.raw r inst idx
  | _ => r.info.reset

/-- The value in force of a field (R7, R55): in basic level an expert field has the value the hub derives. -/
def State.fld (s : State) (r : RegId) (inst : Nat := 0) (idx : Nat := 0) : Nat :=
  if r.isExpert && s.level (r.owner inst) == 0 then s.derived r inst idx else s.raw r inst idx

/-- A one-bit field in force. -/
def State.flag (s : State) (r : RegId) (inst : Nat := 0) (idx : Nat := 0) : Bool := s.fld r inst idx == 1

/-- The value a shadow holds: the value in force until it is written (R8). -/
def State.shadow (s : State) (r : RegId) (inst : Nat := 0) (idx : Nat := 0) : Nat :=
  (s.shadows.look r inst idx).getD (s.fld r inst idx)

/-- What a block's commit would leave in a field: in basic level, if LEVEL will be 0, what the hub derives (R508). -/
def State.next (s : State) (r : RegId) (inst : Nat := 0) (idx : Nat := 0) : Nat :=
  if r.isExpert && s.shadow .BLK_CTRL_LEVEL (r.owner inst) == 0 then s.derived r inst idx else s.shadow r inst idx

/-- The state as a pending commit is judged in: the shadows are those it took at its COMMIT write (R56). -/
def State.judged (s : State) : State := { s with shadows := s.taken }

/-- The hub writes a field in force. -/
def setF (r : RegId) (v : Nat) (inst : Nat := 0) (idx : Nat := 0) : Prog := .act (.reg r inst idx v)

def setB (r : RegId) (b : Bool) (inst : Nat := 0) (idx : Nat := 0) : Prog := setF r b.toNat inst idx

/-- A ring in DRAM holds its whole capacity; only a write of its TAIL makes room again. -/
def State.ringFull (s : State) (ring : Nat) : Bool := s.bus.full.contains ring
def fillRing (ring : Nat) : Prog :=
  .get fun s => .on (!s.ringFull ring) (.act (.bus fun b => { b with full := ring :: b.full }))
def freeRing (ring : Nat) : Prog :=
  .get fun s => .on (s.ringFull ring) (.act (.bus fun b => { b with full := b.full.filter (· != ring) }))

/-- Count `n` more, modulo the field's width. -/
def bump (r : RegId) (inst : Nat := 0) (idx : Nat := 0) (n : Nat := 1) : Prog :=
  .get fun s => setF r ((s.raw r inst idx + n) % 2 ^ r.info.width) inst idx

/-- Count one less, not below zero. -/
def drop1 (r : RegId) (inst : Nat := 0) (idx : Nat := 0) : Prog :=
  .get fun s => setF r (s.raw r inst idx - 1) inst idx

def emitOut (k : Sink) (args : List Nat) (bs : List Byte := []) : Prog := .act (.out ⟨k, args, bs⟩)

/-- Draw a free value below `m` and go on with it (log entry 2). -/
def withFree (m : Nat) (k : Nat → Prog) : Prog :=
  .get fun s => .seq (.act .draw) (k (Config.free s.drawn % m))

/-! ### The bittern log (R476 to R478) -/

/-- A record enters the staging, after a BTN_OVERFLOW record for earlier discards; with no room it is discarded (R477). -/
def stageRec (blk code sev : Nat) (chan : Option Nat) (detail : Nat) : Prog :=
  .get fun s =>
    let pos := s.raw .SYS_STATE_CHAIN_POS
    let mk (n : Nat) (b c v : Nat) (ch : Option Nat) (d : Nat) : Rec := ⟨s.moment, n % 2 ^ 20, pos, b, v, c, ch, d⟩
    let room := stagingCap - s.btn.staged.length
    let q := s.btn.logSeq
    if s.btn.discards = 0 then
      if room = 0 then
        .all [.act (.btn fun b => ((q + 1) % 2 ^ 20, 1, b.last)), bump .BTN_LOST_RECORDS, setF .BTN_STATUS_OVERFLOW 1]
      else
        .all [.act (.btn fun b => ((q + 1) % 2 ^ 20, 0, b.last)), .act (.stage (mk q blk code sev chan detail))]
    else
      if room = 0 then
        .all [.act (.btn fun b => ((q + 1) % 2 ^ 20, b.discards + 1, b.last)), bump .BTN_LOST_RECORDS,
          setF .BTN_STATUS_OVERFLOW 1]
      else if room = 1 then
        .all [.act (.stage (mk q 0x61 1 2 none s.btn.discards)), .act (.btn fun b => ((q + 2) % 2 ^ 20, 1, b.last)),
          bump .BTN_LOST_RECORDS, setF .BTN_STATUS_OVERFLOW 1]
      else
        .all [.act (.stage (mk q 0x61 1 2 none s.btn.discards)), .act (.btn fun b => ((q + 2) % 2 ^ 20, 0, b.last)),
          .act (.stage (mk (q + 1) blk code sev chan detail))]

/-- Severities other than WARNING (R482), with those that R494 gives. -/
def severityOf (blk code : Nat) : Nat :=
  if blk = 0x04 then (if code = 0x0007 then 3 else 2)
  else if 0x10 ≤ blk ∧ blk ≤ 0x15 then (if code = 0x0001 ∨ code = 0x0005 ∨ code = 0x0007 then 3 else 2)
  else if blk = 0x19 then (if code = 0x0009 then 1 else if code = 0x0002 ∨ code = 0x0003 ∨ code = 0x000A then 3 else 2)
  else if (0x20 ≤ blk ∧ blk ≤ 0x29) ∨ (0x31 ≤ blk ∧ blk ≤ 0x34) then (if code = 0x0002 then 1 else 2)
  else if blk = 0x30 then (if code = 0x0002 then 3 else 2)
  else if blk = 0x50 then (if code = 0x0001 ∨ code = 0x0005 then 3 else 2)
  else if blk = 0x58 then
    (if code = 0x0002 ∨ code = 0x0003 then 4 else if code = 0x0004 ∨ code = 0x0009 then 1
     else if code = 0x0001 ∨ code = 0x0008 ∨ code = 0x000A then 3 else 2)
  else 2

/-- Write a record of a block (severity by R482 unless the code's table gives one). -/
def logRec (blk code : Nat) (sev : Nat := severityOf blk code) (chan : Option Nat := none) (detail : Nat := 0) : Prog :=
  stageRec blk code sev chan detail

/-- A rate-limited record: at most one per `every` ticks for each instance; others are counted as suppressed (R478). -/
def logLim (blk code sev : Nat) (inst every : Nat) (chan : Option Nat := none) (detail : Nat := 0) : Prog :=
  .get fun s =>
    let k := (blk * 2 ^ 16 + code) * 2 ^ 24 + inst
    let due := match s.btn.last.get? k with | none => true | some t => decide (t + every ≤ s.clock)
    if due then
      .all [.act (.btn fun b => (b.logSeq, b.discards, b.last.put k s.clock)), logRec blk code sev chan detail]
    else bump .BTN_SUPPRESSED_RECORDS

/-! ### Interrupts (R122, R123, R332, R333) -/

/-- Exactly `n` bytes of what a cryptographic function gives: the standards of R3 fix the lengths of their results. -/
def sized (n : Nat) (bs : List Byte) : List Byte := (List.range n).map fun i => bs.getD i 0

/-- `n` bytes of a number, most significant first. -/
def beBytes (n v : Nat) : List Byte := (leBytes n v).reverse

/-- A TLP header. PRESUMED (log entry 50): the layout of PCI Express; a 64-bit address takes four doublewords. -/
def tlpHead (fmt type dws rid tag be a : Nat) : List Byte :=
  let big := decide (2 ^ 32 ≤ a)
  [BitVec.ofNat 8 ((fmt + (if big then 1 else 0)) * 32 + type), BitVec.ofNat 8 (bits tag 9 9 * 128 + bits tag 8 8 * 8),
    BitVec.ofNat 8 (bits dws 9 8), BitVec.ofNat 8 dws] ++ beBytes 2 rid ++ [BitVec.ofNat 8 tag, BitVec.ofNat 8 be] ++
    beBytes (if big then 8 else 4) (a / 4 * 4)

/-- Byte enables of an access of `n` bytes at `a`: last in bits 7:4, first in bits 3:0. -/
def byteEnables (a n : Nat) : Nat :=
  let lo := a % 4
  let dws := ceilDiv (lo + n) 4
  let first := if dws = 1 then (2 ^ n - 1) * 2 ^ lo else (16 - 2 ^ lo)
  let last := if dws = 1 then 0 else 2 ^ ((lo + n - 1) % 4 + 1) - 1
  first + 16 * last

/-- A memory write of the hub's own. -/
def writeTlp (a : Nat) (bs : List Byte) : List Byte :=
  let lo := a % 4
  let dws := ceilDiv (lo + bs.length) 4
  tlpHead 2 0 dws 0 0 (byteEnables a bs.length) a ++ List.replicate lo 0 ++ bs ++ List.replicate (4 * dws - lo - bs.length) 0

/-- An MSI-X table entry: address, data, vector control; masked at reset. -/
def State.vectorEntry (s : State) (ctrl vec : Nat) : Nat × Nat × Nat := (s.brg.msix.get? (2048 * ctrl + vec)).getD (0, 0, 1)

/-- A vector of an endpoint link can be sent: the link is up. -/
def State.vectorLink (s : State) (ctrl : Nat) : Bool := s.flag .PCI_STATUS_LINK_UP ctrl && s.flag .PCI_CFG_ROLE ctrl

/-- The MSI-X write of a vector. -/
def State.vectorTlp (s : State) (ctrl vec : Nat) : List Byte :=
  writeTlp (s.vectorEntry ctrl vec).1 (leBytes 4 (s.vectorEntry ctrl vec).2.1)

/-- Send a vector behind the posted writes already sent on its link; a masked one becomes pending. -/
def raiseVector (ctrl vec : Nat) : Prog :=
  .get fun s =>
    .on (s.vectorLink ctrl) (
      if bit (s.vectorEntry ctrl vec).2.2 0 then .act (.brg fun b => { b with msixPend := b.msixPend.put (2048 * ctrl + vec) none })
      else emitOut .tlp [ctrl] (s.vectorTlp ctrl vec))

/-- A block raises its interrupt towards the control cores, and towards a host by BRG_VEC_MAP (R122, R123, R333). -/
def raiseIrq (blk : Nat) : Prog :=
  .get fun s => .on (!s.grn.ipend.testBit blk) (.seq
    (.act (.grn fun g => { g with ipend := g.ipend + 2 ^ blk }))
    (.on (s.flag .BRG_VEC_MAP_EN 0 blk) (raiseVector (s.raw .BRG_VEC_MAP_CTRL 0 blk) (s.raw .BRG_VEC_MAP_VECTOR 0 blk))))

/-- The interrupt is cleared in the block that raised it (R123). -/
def clearIrq (blk : Nat) : Prog :=
  .act (.grn fun g => { g with ipend := if g.ipend.testBit blk then g.ipend - 2 ^ blk else g.ipend })

/-! ### Memory -/

/-- The DRAM window and the program pool (R50). -/
def dramBase : Nat := 0x10_0000_0000
def poolBase : Nat := 0x0100_0000
def poolWords : Nat := 2 ^ 19

/-- An address in fitted DRAM (R50, R51). -/
def State.inDram (s : State) (a n : Nat) : Bool := decide (dramBase ≤ a) && decide (a + n ≤ dramBase + s.boot.gib * 2 ^ 30)

/-- Store bytes in hub DRAM; bytes beyond the fitted size are not stored (R51). -/
def store (a : Nat) (bs : List Byte) : Prog :=
  .get fun s => .on (s.inDram a bs.length) (.act (.mem a bs))

def State.load (s : State) (a n : Nat) : Nat := leNat (s.mem.reads a n)

/-- The domains that are alive (R18): the always-on domain, and the others. -/
def State.aonAlive (s : State) : Bool := s.dev.st != .off
def State.coreAlive (s : State) : Bool := s.dev.st != .off && s.dev.st != .aon
/-- Units move in RUN and HOLD only (R41). -/
def State.flowing (s : State) : Bool := s.dev.st == .run || s.dev.st == .hold

/-- A command of the core, edge or secure domain has effect only while that domain is alive (R18). -/
def whenAlive (p : Prog) : Prog := .get fun s => .on s.coreAlive p
def whenAon (p : Prog) : Prog := .get fun s => .on s.aonAlive p
def whenFlowing (p : Prog) : Prog := .get fun s => .on s.flowing p

/-! ### Stamps (R37 to R40) -/

/-- Take a stamp at a point: go on with bytes 8–11 of it; the origin's sequence advances. -/
def withStamp (point : Nat) (k : Nat → Prog) : Prog :=
  .get fun s =>
    let n := (s.tmb.seqs.get? point).getD 0
    let word := n % 2 ^ 20 + (point * 8 + s.raw .SYS_STATE_CHAIN_POS) * 2 ^ 20
    .seq (.act (.tmb fun t => { t with seqs := t.seqs.put point ((n + 1) % 2 ^ 20) })) (k word)

/-- The stamp's ordering key (R40): Moment, then origin, then sequence. -/
def stampKey (moment word : Nat) : Nat := moment * 2 ^ 32 + (bits word 31 20) * 2 ^ 20 + bits word 19 0

/-- Stamp points (R39). -/
def ptCan (n : Nat) := n
def ptGpio (n : Nat) := 0x008 + n
def ptVblank (h : Nat) := 0x038 + h
def ptLnkRx (p : Nat) := 0x03C + p
def ptEthRx (p : Nat) := 0x042 + p
def ptIngress (b : Nat) := 0x04C + b
def ptDispatch (e : Nat) := 0x06C + e
def ptBrgReq (i : Nat) := 0x0CC + i
def ptBrgCpl (i : Nat) := 0x0D1 + i
def ptRetire (e : Nat) := 0x0D6 + e
def ptEgress (b : Nat) := 0x136 + b
def ptLnkTx (p : Nat) := 0x156 + p
def ptEthTx (p : Nat) := 0x15C + p

end Sys2Proof.Machine
end

