-- ==== Sys2Proof/Machine/ChanOps.lean ====
section
/-! DEFINITION. The channel area and the channel entry (R63 to R78): fields, states, statistics, in-flight counts. -/
namespace Sys2Proof.Machine

/-! ### The entry (R67, R74) -/

/-- The number that `n` bytes of a structure at `off` spell. -/
def fieldOf (e : List Byte) (off n : Nat) : Nat := leNat ((e.drop off).take n)

def eCtrl (e : List Byte) := fieldOf e 0 4
def eType (e : List Byte) := bits (eCtrl e) 3 0
def eState (e : List Byte) := bits (eCtrl e) 7 4
def eGen (e : List Byte) := bits (eCtrl e) 15 8
def eLevel (e : List Byte) := bits (eCtrl e) 16 16
def eHold (e : List Byte) : Bool := bit (eCtrl e) 17
def eSealed (e : List Byte) : Bool := bit (eCtrl e) 18
def eOrdered (e : List Byte) : Bool := bit (eCtrl e) 19
def ePrio (e : List Byte) := bits (eCtrl e) 23 20
def eBudget (e : List Byte) := bits (eCtrl e) 31 24
def eOffset (e : List Byte) := bits (fieldOf e 4 4) 18 0
def eRecipe (e : List Byte) := bits (fieldOf e 4 4) 31 24
def eRoute (e : List Byte) := fieldOf e 8 4
def eBerth (e : List Byte) := bits (eRoute e) 4 0
def eQslot (e : List Byte) := bits (eRoute e) 21 8
def eLink (e : List Byte) := bits (eRoute e) 26 24
def eRemote (e : List Byte) := bits (fieldOf e 12 4) 16 0
def eShares (e : List Byte) := bits (fieldOf e 16 4) 12 0
def eWeight (e : List Byte) := bits (fieldOf e 16 4) 23 16
def eKeyref (e : List Byte) := fieldOf e 20 8
def eKeyKind (e : List Byte) := bits (eKeyref e) 63 63
def eKeyRef (e : List Byte) := bits (eKeyref e) 47 0
def eMeter (e : List Byte) := bits (fieldOf e 28 4) 13 0
def eMeterKind (e : List Byte) := bits (fieldOf e 28 4) 15 14
/-- PARAM bytes: offsets as R74 gives them. -/
def eParam (e : List Byte) (off n : Nat) := fieldOf e off n

/-- TYPE encodings (R68). -/
def tyFree := 0
def tyMem := 1
def tyDisplay := 2
def tyStream := 3
def tyStorage := 4
def tyNet := 5
def tySignal := 6
def tyPeriph := 7
def tyControl := 8
def tyMulti := 9

/-- STATE encodings (R69). -/
def csIdle := 0
def csArmed := 1
def csLive := 2
def csHeld := 3
def csDraining := 4
def csSealed := 5
def csFaulted := 6

/-- A mask of `w` one bits at bit `lo`. -/
def ones (w lo : Nat) : Nat := (2 ^ w - 1) * 2 ^ lo

/-- Bits of PARAM that R74 lists, by type and level; the others are reserved. -/
def paramMask (ty level : Nat) : Nat :=
  match ty with
  | 1 => ones (if level = 0 then 48 else 64) 0 + ones 32 64 + ones 6 96 + ones 4 104 + ones 2 112
  | 2 => 0x73 + ones 8 8 + ones 2 16 + ones 48 32 + ones 16 96 + ones 16 112 + ones 16 128
  | 3 => 0x17 + ones 8 8 + 0x87 * 2 ^ 16 + 0x83 * 2 ^ 24
  | 4 => 0x3 + ones (if level = 0 then 3 else 8) 8 + ones 16 16 + ones 16 32 + ones 16 48 + ones (if level = 0 then 48 else 64) 64 + ones 11 128
  | 5 => 0xF + ones 3 8 + ones 16 16 + ones 16 32 + ones 16 48 + ones 48 64 + ones 16 112
  | 6 => ones 32 0 + ones 16 32 + ones 32 64 + ones 32 96 + ones 2 128 + ones 17 160
  | 7 => ones 8 0 + ones 7 16 + ones 16 32 + ones 48 64
  | 8 => ones 3 0 + ones 5 8 + ones 16 16
  | 9 => ones 8 0 + ones 1 8
  | _ => 0

/-- No bit of `n` outside the mask is set. -/
def within (n mask : Nat) : Bool := n &&& mask == n

/-- A PARAM field holds a value that R74 reserves. Expert programs own the fields the hub does not read. -/
def paramReserved (e : List Byte) : Bool :=
  let p := eParam e 32 32
  !within p (paramMask (eType e) (eLevel e)) ||
  match eType e with
  | 1 => eLevel e == 0 && eParam e 40 4 == 0
  | 2 => decide (7 < eParam e 33 1) || bits (eParam e 36 8) 5 0 != 0 || eParam e 44 2 % 64 != 0
  | 3 => decide (5 < bits (eParam e 32 1) 2 0) || !([1, 2, 4].contains (eParam e 33 1)) || bits (eParam e 34 1) 2 0 == 7
  | 5 => decide (9 < bits (eParam e 32 1) 3 0)
  | 6 => eParam e 36 2 == 0 || decide (1024 < eParam e 36 2) || eParam e 48 1 == 0
  | 7 => decide (4 < bits (eParam e 32 1) 3 0)
  | 8 => decide (4 < bits (eParam e 32 1) 2 0)
  | 9 => eParam e 32 1 == 0
  | _ => false

/-- The entry holds a reserved encoding or a reserved bit that is not zero (R67, R74; R86 check 2). A FREE entry's PARAM is
judged by check 9. -/
def entryReserved (e : List Byte) : Bool :=
  decide (9 < eType e) || decide (6 < eState e) || bits (fieldOf e 4 4) 23 19 != 0 || decide (23 < eRecipe e) ||
  bits (eRoute e) 7 5 != 0 || bits (eRoute e) 23 22 != 0 || bits (eRoute e) 31 27 != 0 || eLink e == 6 ||
  bits (fieldOf e 12 4) 31 17 != 0 || decide (4096 < eShares e) || bits (fieldOf e 16 4) 15 13 != 0 ||
  bits (fieldOf e 16 4) 31 24 != 0 || bits (eKeyref e) 62 48 != 0 || (eKeyKind e == 0 && bits (eKeyref e) 47 8 != 0) ||
  (eKeyKind e == 1 && bits (eKeyref e) 3 0 != 0) || eMeterKind e == 3 || bits (fieldOf e 28 4) 31 16 != 0 ||
  (eType e != 0 && paramReserved e)

/-- The TYPE that a recipe serves (R126). -/
def recipeType : Nat → Nat
  | 0 | 1 => 1
  | 2 | 3 => 2
  | 4 => 3
  | 5 | 6 | 7 => 4
  | 8 | 9 | 10 | 11 | 12 => 5
  | 13 | 14 | 15 | 16 => 6
  | 17 | 18 | 19 => 7
  | 20 | 21 => 8
  | _ => 9

/-- The recipe serves the entry; recipes 22 and 23 go by PARAM.FLAGS[0] (R126). -/
def recipeServes (e : List Byte) : Bool :=
  recipeType (eRecipe e) == eType e &&
  (eRecipe e != 22 || bits (eParam e 33 1) 0 0 == 0) && (eRecipe e != 23 || bits (eParam e 33 1) 0 0 == 1)

/-! ### The channel area (R63) -/

def State.area (s : State) : Nat := s.raw .CHN_AREA_BASE_BASE * 2 ^ 26
def State.entryAddr (s : State) (c : Nat) : Nat := s.area + c * 64
def State.statsAddr (s : State) (c : Nat) : Nat := s.area + 0x0080_0000 + c * 32
def State.stageAddr (s : State) (i : Nat) : Nat := s.area + 0x00C0_0000 + i * 512
def State.mailArea (s : State) : Nat := s.area + 0x00E0_0000
def State.shadowAddr (s : State) (k : Nat) : Nat := s.area + 0x0100_0000 + k * 512
def State.annexAddr (s : State) (c : Nat) : Nat := s.area + 0x0200_0000 + c * 256

def blankEntry : List Byte := List.replicate 64 0

/-- The table is in host memory (R64). -/
def State.hostLoc (s : State) : Bool := s.raw .CHN_CFG_LOC == 1

/-- The entry in force of a channel. -/
def State.entry (s : State) (c : Nat) : List Byte :=
  if s.hostLoc then (s.chn.hostTable.get? c).getD blankEntry else s.mem.reads (s.entryAddr c) 64

/-- Write an entry to the table; with LOC 1 by a posted write to the host (R64). -/
def putEntry (c : Nat) (e : List Byte) : Prog :=
  .get fun s =>
    if s.hostLoc then
      .all [.act (.chn fun h => { h with hostTable := if e.all (· == 0) then h.hostTable.del c else h.hostTable.put c e }),
        emitOut .host [s.raw .CHN_CFG_HOST_CTRL, s.raw .CHN_HOST_BASE_BASE * 2 ^ 23 + c * 64] e]
    else store (s.entryAddr c) e

/-- A channel's state; a FREE channel is always IDLE (R68), once its units in flight have left (R70). -/
def State.chanState (s : State) (c : Nat) : Nat :=
  if eType (s.entry c) = 0 ∧ eState (s.entry c) ≠ csDraining then csIdle else eState (s.entry c)

/-- The entry with another STATE. -/
def withState (e : List Byte) (st : Nat) : List Byte := BitVec.ofNat 8 (eType e + 16 * st) :: e.drop 1

/-- STATE changes in place (R69). -/
def setChan (c st : Nat) : Prog := .get fun s => putEntry c (withState (s.entry c) st)

/-- Channels whose table entry is not all zero. -/
def State.chans (s : State) : List Nat :=
  if s.hostLoc then s.chn.hostTable.map (·.1)
  else ((s.mem.filter fun c => decide (s.area ≤ c.1) && decide (c.1 < s.area + 0x0080_0000)).map
    fun c => (c.1 - s.area) / 64).eraseDups

/-- The annex that a unit of a channel uses, `ver` being the GEN of the entry it runs under: its shadow slot's copy when
one is held, else the annex in force (R76). -/
def State.annexOf (s : State) (c ver : Nat) : Nat :=
  match s.chn.shadows.find? fun e => e.2 == (c, ver) with
  | some (k, _) => if bit (s.load (s.shadowAddr k + 324) 1) 0 then s.shadowAddr k + 64 else s.annexAddr c
  | none => s.annexAddr c

/-- Units of a channel in flight: dispatched and not retired, in one generation or in all (R88, R99). -/
def State.flying (s : State) (c : Nat) : Nat :=
  (s.grn.threads.filter fun t => t.2.busy && t.2.chan == c).length
/-- The same for one version of the entry, named by the GEN it was committed under. -/
def State.flyingVer (s : State) (c ver : Nat) : Nat :=
  (s.grn.threads.filter fun t => t.2.busy && t.2.chan == c && t.2.ver == ver).length

/-- Superseded generations that still have units in flight (R84, R91): those of busy threads whose version is superseded. -/
def State.superseded (s : State) : List Nat :=
  ((s.grn.threads.filter fun t => t.2.busy && t.2.gen != s.raw .CHN_GEN_ACTIVE_GEN).map fun t => t.2.gen).eraseDups

/-! ### Statistics and faults (R77, R78) -/

def satAdd (n k w : Nat) : Nat := min (n + k) (2 ^ w - 1)

/-- One more unit dispatched on the channel. -/
def countUnit (c : Nat) : Prog :=
  .get fun s => store (s.statsAddr c) (leBytes 8 (satAdd (s.load (s.statsAddr c) 8) 1 64))

/-- One more unit of the channel dropped. -/
def countDrop (c : Nat) : Prog :=
  .get fun s => store (s.statsAddr c + 8) (leBytes 8 (satAdd (s.load (s.statsAddr c + 8) 8) 1 64))

def setLastCode (c code : Nat) : Prog := .get fun s => store (s.statsAddr c + 22) (leBytes 2 code)

/-- A fault counted on the channel (R78). -/
def countFault (c code : Nat) : Prog :=
  .get fun s =>
    let a := s.statsAddr c
    let win := s.load (a + 20) 2
    let fresh := win == 0 || decide (s.load (a + 24) 8 + s.fld .CHN_FAULT_WINDOW_MS * ms < s.moment)
    let win' := if fresh then 1 else satAdd win 1 16
    .all [countDrop c, store (a + 16) (leBytes 4 (satAdd (s.load (a + 16) 4) 1 32)), setLastCode c code,
      store (a + 20) (leBytes 2 win'), .on fresh (store (a + 24) (leBytes 8 s.moment)),
      .on (decide (s.raw .CHN_CFG_FAULT_LIMIT < win') && (s.chanState c == csLive || s.chanState c == csHeld))
        (.all [setChan c csFaulted, logRec 0x03 0x0005 3 (some c)])]

/-- Every LIVE channel without HOLD moves to HELD (R46, R44). -/
def holdChannels : Prog :=
  .get fun s => .each (s.chans.filter fun c => s.chanState c == csLive && !eHold (s.entry c)) fun c => setChan c csHeld

end Sys2Proof.Machine
end

