-- ==== Sys2Proof/Machine/Marks.lean ====
section
/-! DEFINITION. What happens when a unit passes a stamp point: the stamp, the trace record (R483 to R485) and the samples of the
LATENCY gauges (R471 to R475). -/
namespace Sys2Proof.Machine

/-! ### The trace ring -/

/-- Class of a stamp point in TRC_POINTS (R500): line receive, ingress, dispatch, retire, egress, line transmit, bridge. -/
def pointClass (pt : Nat) : Nat :=
  if pt < 0x4C then 0 else if pt < 0x6C then 1 else if pt < 0xCC then 2 else if pt < 0xD6 then 6
  else if pt < 0x136 then 3 else if pt < 0x156 then 4 else 5

/-- The unit is selected for trace (R483). -/
def State.traced (s : State) (pt : Nat) (m : Mark) : Bool :=
  s.flag .TRC_CFG_ENABLE && bit (s.raw .TRC_POINTS_CLASSES) (pointClass pt) &&
  ((s.flag .TRC_CFG_MARKED && m.trace) ||
    (s.flag .TRC_CFG_RANGE && decide (s.raw .TRC_CH_LO_CHANNEL ≤ m.chan) && decide (m.chan ≤ s.raw .TRC_CH_HI_CHANNEL)))

/-- Records of the trace ring. -/
def State.traceSize (s : State) : Nat := 2 ^ (s.raw .TRC_CFG_LOG2_SIZE - 5)

/-- A 32-byte record goes to the trace ring; in MODE 1 a full ring loses it (R485). -/
def tracePut (bs : List Byte) : Prog :=
  .get fun s =>
    let n := s.traceSize
    let h := s.raw .TRC_HEAD_HEAD
    if s.flag .TRC_CFG_MODE && s.ringFull 1 then .seq (bump .TRC_LOST_RECORDS) (logLim 0x61 0x0002 2 0 ms)
    else .all [
      store (s.raw .TRC_RING_BASE_BASE * 2 ^ 20 + 32 * (h % n)) bs, setF .TRC_HEAD_HEAD ((h + 1) % n),
      .on (s.flag .TRC_CFG_MODE && (h + 1) % n == s.raw .TRC_TAIL_TAIL % n) (fillRing 1)]

/-- A trace record (R484). `link` is 0 for a point, 1 for link receive, 2 for link transmit. -/
def traceRec (word link port : Nat) (m : Mark) : Prog :=
  .get fun s => tracePut (leBytes 8 s.moment ++ leBytes 4 word ++
    [BitVec.ofNat 8 (link + port * 16), BitVec.ofNat 8 m.kind] ++ leBytes 2 m.cseq ++ leBytes 4 (m.chan + m.gen * 2 ^ 17) ++
    leBytes 8 (if m.trace then m.tag else 0) ++ leBytes 4 m.key)

/-! ### Gauges -/

def GauAcc.blank : GauAcc := ⟨0, 0, 2 ^ 63 - 1, -(2 ^ 63), []⟩

def satSigned (v : Int) : Int := max (-(2 ^ 63)) (min (2 ^ 63 - 1) v)

/-- The bin of a sample (R473). -/
def binOf (log2 : Bool) (base width v : Int) : Nat :=
  let d := v - base
  if log2 then (if d < 1 then 0 else min 31 (1 + Nat.log2 d.toNat))
  else if v < base then 0 else min 31 (d / width).toNat

/-- One sample enters the accumulators (R473). -/
def GauAcc.add (a : GauAcc) (v : Int) (k : Nat) : GauAcc :=
  { a with
    count := min (a.count + 1) (2 ^ 64 - 1)
    sum := satSigned (a.sum + v)
    low := min a.low v
    high := max a.high v
    bins := a.bins.put k (Nat.min (((a.bins.get? k).getD 0) + 1) (2 ^ 32 - 1)) }

def State.gauge (s : State) (g : Nat) : GauAcc := (s.gau.get? g).getD GauAcc.blank

/-- A gauge takes a sample; above GAU_HIGH it is recorded at most once a second, with the interrupt (R475). -/
def sample (g : Nat) (v : Int) : Prog :=
  .get fun s =>
    let k := binOf (s.flag .GAU_CFG_LOG2 0 g) (sgn 64 (s.raw .GAU_BASE_BASE 0 g)) (s.raw .GAU_WIDTH_WIDTH 0 g) v
    let high := s.flag .GAU_CFG_HIGH_EN 0 g && decide (sgn 64 (s.raw .GAU_HIGH_HIGH 0 g) < v)
    let due := match s.btn.last.get? ((0x60 * 2 ^ 16 + 1) * 2 ^ 24 + g) with | none => true | some t => decide (t + sec ≤ s.clock)
    .all [.act (.gau fun m => m.put g ((s.gauge g).add v k)),
      .on high (logLim 0x60 0x0001 2 g sec none (g + enc 64 v * 2 ^ 32)), .on (high && due) (raiseIrq 0x60)]

/-- GAU_SEL of SOURCE 1: POINT_A, A_ANY, A_CHAIN, POINT_B, B_ANY. -/
def State.selA (s : State) (g : Nat) : Nat := bits (s.raw .GAU_SEL_LOW 0 g) 8 0
def State.selAny (s : State) (g : Nat) : Bool := bit (s.raw .GAU_SEL_LOW 0 g) 12
def State.selChain (s : State) (g : Nat) : Bool := bit (s.raw .GAU_SEL_LOW 0 g) 13

/-- Points of one kind of R39, for A_ANY and B_ANY: any instance of the same row. -/
def pointRow (pt : Nat) : Nat :=
  if pt < 8 then 0 else if pt < 0x38 then 1 else if pt < 0x3C then 2 else if pt < 0x42 then 3 else if pt < 0x4C then 4
  else if pt < 0x6C then 5 else if pt < 0xCC then 6 else if pt < 0xD1 then 7 else if pt < 0xD6 then 8 else if pt < 0x136 then 9
  else if pt < 0x156 then 10 else if pt < 0x15C then 11 else 12

def samePoint (any : Bool) (want pt : Nat) : Bool := if any then pointRow want == pointRow pt else want == pt

/-- Gauges whose SOURCE is `n`. -/
def State.gaugesOf (s : State) (n : Nat) : List Nat :=
  (s.regs.filter fun e => e.2.reg == .GAU_CFG_SOURCE && e.2.val == n).map fun e => keyIdx e.1

/-- LATENCY of a unit that passes point `pt` now, on gauge `g` (R472): none when it does not qualify. -/
def State.latency (s : State) (g pt : Nat) (m : Mark) : Option Int :=
  if !samePoint (s.flag .GAU_SEL_B_ANY 0 g) (s.raw .GAU_SEL_POINT_B 0 g) pt then none
  else if !s.flag .GAU_CFG_ALL_CH 0 g && s.raw .GAU_CFG_CHANNEL 0 g != m.chan then none
  else if s.selChain g then some (((s.moment + 2 ^ 32 - (m.origin.getD (m.entered % 2 ^ 32))) % 2 ^ 32 : Nat) : Int)
  else (m.passed.find? fun p => samePoint (s.selAny g) (s.selA g) p.1).map fun p => (s.moment : Int) - p.2

/-- Every LATENCY gauge that the passage qualifies for takes its sample. -/
def gaugePass (pt : Nat) (m : Mark) : Prog :=
  .get fun s => .each (s.gaugesOf 1) fun g => match s.latency g pt m with
    | some v => sample g v
    | none => .skip

/-- A unit passes a stamp point: its stamp, its trace record, its gauges; go on with bytes 8–11 of the stamp. -/
def passPoint (pt link port : Nat) (m : Mark) (k : Nat → Prog) : Prog :=
  withStamp pt fun w => .get fun s => .all [.on (s.traced pt m) (traceRec w link port m), gaugePass pt m, k w]

end Sys2Proof.Machine
end

