-- ==== Sys2Proof/Machine/Pace.lean ====
section
/-! DEFINITION. Pace, its floor and guard, and the setpoint changes of VDD_CORE (R22 to R34). -/
namespace Sys2Proof.Machine

/-- PACE_FLOOR by setpoint and temperature band (R24). -/
def floorTable (sp band : Nat) : Nat :=
  match sp, band with
  | 0, 0 => 3600 | 0, 1 => 3700 | 0, 2 => 3500 | 0, _ => 3350
  | 1, 0 => 3300 | 1, 1 => 3400 | 1, 2 => 3250 | 1, _ => 3100
  | 2, 0 => 3050 | 2, 1 => 3150 | 2, 2 => 3050 | 2, _ => 3000
  | _, 0 => 1250 | _, 1 => 1350 | _, 2 => 1250 | _, _ => 1200

/-- PACE_FLOOR in force: while a change is in progress the lowest floor of every setpoint it counts (R31, R33). -/
def State.paceFloor (s : State) : Nat :=
  s.dev.counted.foldl (fun n sp => min n (floorTable sp (s.raw .SYS_POWER_TBAND)))
    (floorTable (s.raw .SYS_POWER_ACTIVE) (s.raw .SYS_POWER_TBAND))

/-- The setpoint that R34 gives for a device state. -/
def State.stateSetpoint (s : State) (d : Dev) : Nat :=
  match d with
  | .run => s.raw .SYS_POWER_SETPOINT
  | .hold => s.raw .SYS_POWER_HOLD_SETPOINT
  | .test => s.dev.testSetpoint
  | _ => 2

/-- Start a setpoint change, or give the one in progress a new target (R32, R33): the AVSBus command goes out, and every
setpoint commanded since the change began counts against PACE_FLOOR. -/
def moveTo (sp : Nat) : Prog :=
  .get fun s =>
    if s.raw .SYS_POWER_TRANSIT = 0 ∧ s.raw .SYS_POWER_ACTIVE = sp then .skip
    else if s.raw .SYS_POWER_TRANSIT = 1 ∧ s.dev.target = sp then .skip
    else .all [
      .act (.dev fun d => { d with target := sp, counted := sp :: d.counted, commandAt := s.clock, timeoutWritten := false }),
      setF .SYS_POWER_TRANSIT 1, emitOut .avs [sp]]

/-- The override ends and the hub moves to the setpoint of its state (R29). -/
def endOverride (d : Dev) : Prog :=
  .get fun s => .all [setF .SYS_POWER_PACE_RAISE 0,
    .act (.dev fun p => { p with below := 0, belowAt := none }), moveTo (s.stateSetpoint d)]

/-- Enter a device state: the override ends and the setpoint follows (R29, R34). -/
def enterState (d : Dev) : Prog := .all [.act (.dev fun p => { p with st := d }), endOverride d]

/-- PACE is measured at each multiple of 4,096 ticks (R22); the guard counts updates below the floor (R28). -/
def paceUpdate (measured : Nat) : Prog :=
  .get fun s =>
    .on (s.coreAlive && s.moment % 4096 == 0) (.all [
      setF .SYS_PACE_PACE measured,
      .on (decide (measured < s.raw .SYS_PACE_MIN_PACE_MIN)) (setF .SYS_PACE_MIN_PACE_MIN measured),
      .act (.dev fun d => { d with
        below := if measured < s.paceFloor then d.below + 1 else 0
        belowAt := if measured < s.paceFloor then d.belowAt else none })])

def execPaceUpdate (measured : Nat) (s : State) := s.does (paceUpdate measured)

/-- PACE_BELOW_FLOOR and the raise or the 1 ms that follow (R28, R29). A run of low updates with no raise is recorded once. -/
def paceBelowFloor : Prog :=
  .get fun s =>
    .on (s.coreAlive && decide (s.fld .SYS_PACE_GUARD_BELOW_COUNT ≤ s.dev.below) && s.dev.belowAt.isNone &&
        s.raw .SYS_POWER_TRANSIT == 0) (.all [
      logRec 0x01 0x0001 3,
      if s.flag .SYS_PACE_GUARD_ESCALATE && s.raw .SYS_POWER_ACTIVE != 0 then .all [
        setF .SYS_POWER_PACE_RAISE (min 3 (s.raw .SYS_POWER_PACE_RAISE + 1)),
        .act (.dev fun d => { d with below := 0 }),
        moveTo (s.raw .SYS_POWER_ACTIVE - 1)]
      else .act (.dev fun d => { d with belowAt := some s.clock })])

def execPaceBelowFloor (s : State) := s.does paceBelowFloor

/-- Lower edge of a band, in °C (R24). -/
def bandEdge : Nat → Int
  | 0 => -40
  | 1 => 0
  | 2 => 85
  | _ => 110

/-- The band after a new temperature: entered at its lower edge, left downwards 3 °C below it (R23). -/
def nextBand (band : Nat) (temp : Int) : Nat :=
  let up := if 110 ≤ temp then 3 else if 85 ≤ temp then 2 else if 0 ≤ temp then 1 else 0
  let down := if band = 3 ∧ temp > 107 then 3 else if 2 ≤ band ∧ temp > 82 then 2 else if 1 ≤ band ∧ temp > -3 then 1 else 0
  max up down

def execTbandChange (temp : Int) (s : State) := s.does (whenAlive (.all [
  .act (.dev fun d => { d with temp := temp }), setF .SYS_POWER_TBAND (nextBand (s.raw .SYS_POWER_TBAND) temp)]))

/-- A write of the SYS_POWER word (R34, R29): a SETPOINT of P3 is refused, HOLD_SETPOINT takes every value; the write ends
an override in RUN unless refused, and in HOLD always. -/
def powerWrite (w : Nat) : Prog :=
  .get fun s =>
    let p3 := bits w 1 0 == 3
    .all [
      setF .SYS_POWER_HOLD_SETPOINT (bits w 17 16),
      if p3 then setF .BLK_STATUS_BUSY_REFUSED 1 (Blk.sys.id 0) else setF .SYS_POWER_SETPOINT (bits w 1 0),
      .on (s.dev.st == .run && !p3 || s.dev.st == .hold) (endOverride s.dev.st)]

def execSetpointWrite (value : Nat) (s : State) := s.does (whenAlive (powerWrite value))

/-- The regulator reports completion: ACTIVE shows the target and TRANSIT ends (R32 step 4). -/
def execRegulatorCompletion (s : State) := s.does (.on (s.raw .SYS_POWER_TRANSIT == 1) (.all [
  setF .SYS_POWER_ACTIVE s.dev.target, setF .SYS_POWER_TRANSIT 0,
  .act (.dev fun d => { d with counted := [], below := 0, belowAt := none })]))

/-- No completion within 1 ms of the command: one AVS_TIMEOUT record for the change, and the command again (R33). -/
def execAvsTimeout (s : State) := s.does (.on (s.raw .SYS_POWER_TRANSIT == 1 && decide (s.dev.commandAt + ms ≤ s.clock)) (.all [
  .on (!s.dev.timeoutWritten) (logRec 0x01 0x0002 3),
  .act (.dev fun d => { d with commandAt := s.clock, timeoutWritten := true }), emitOut .avs [s.dev.target]]))

/-- Only 0xC1EA clears PACE_MIN (R60). -/
def paceMinClear (v : Nat) : Prog := .on (v == 0xC1EA) (setF .SYS_PACE_MIN_PACE_MIN 0xFFFF)

def execPaceMinClear (value : Nat) (s : State) := s.does (whenAlive (paceMinClear value))

end Sys2Proof.Machine
end

