-- ==== Sys2Proof/Machine/SaltOps.lean ====
section
/-! DEFINITION. Berth groups, flakes, admission, queue slots and the enqueueing of a unit (R256 to R281). -/
namespace Sys2Proof.Machine

/-! ### Self-test sets (R487) -/

def blankSet : SltSet := ⟨0, 0, false, false, false, 0⟩
def sltKey (kind target : Nat) : Nat := 256 * kind + target
def State.sltSet (s : State) (kind target : Nat) : SltSet := (s.slt.sets.get? (sltKey kind target)).getD blankSet

/-- An idle lane outside the cable lanes whose loop-back has failed keeps its link down until a later pass: Ethernet port `n` is
target 24 + n, PCI Express link 34 + n, head 38 + n. -/
def State.laneOut (s : State) (target : Nat) : Bool := (s.sltSet 4 target).failed

/-! ### Groups and ports (R256, R288) -/

/-- Groups: 0 to 5 cable ports, 6 control, 7 DRAM, 8 Ethernet, 9 to 12 the links whose primary is PCI0 to PCI3. -/
def gControl := 6
def gDram := 7
def gEth := 8
def gPci (n : Nat) := 9 + n

/-- The block that owns port `port` of a berth group (R288). -/
def portBlk (g port : Nat) : Nat :=
  if g < 6 then 0x10 + g
  else if g = gControl then
    (if port = 1 then 0x38 else if 2 ≤ port ∧ port ≤ 9 then 0x40 + (port - 2) else if port = 10 then 0x78 else 0x01)
  else if g = gDram then (if port < 16 then 0x30 else 0x48)
  else if g = gEth then 0x20 + port
  else 0x31 + (g - 9)

/-- A quiesce request stands: the block takes no new work (R53). -/
def State.quiet (s : State) (blk : Nat) : Bool := s.flag .BLK_CTRL_QUIESCE blk

/-- Controllers of the PCI Express link whose primary is `n`, by BRG_CFG.BOND (R319). -/
def bondMembers (bond n : Nat) : List Nat :=
  match bond, n with
  | 0, _ => [n]
  | 1, 0 => [0, 1] | 1, 1 => [] | 1, _ => [n]
  | 2, 2 => [2, 3] | 2, 3 => [] | 2, _ => [n]
  | 3, 0 => [0, 1] | 3, 2 => [2, 3] | 3, _ => []
  | 4, 0 => [0, 1, 2, 3] | 4, _ => []
  | _, _ => [n]

/-- The primary controller of the link that controller `n` belongs to. -/
def bondPrimary (bond n : Nat) : Nat :=
  ((List.range 4).find? fun p => (bondMembers bond p).contains n).getD n

/-- The berths of a group (R256). -/
def State.berths (s : State) (g : Nat) : List Nat :=
  if g < 6 then [3 * g, 3 * g + 1, 3 * g + 2]
  else if g = 6 then [18]
  else if g = 7 then [19, 20]
  else if g = 8 then [21, 22, 23]
  else ((bondMembers (s.raw .BRG_CFG_BOND) (g - 9)).map fun n => [24 + 2 * n, 25 + 2 * n]).flatten

/-- The group of a berth. -/
def State.groupOf (s : State) (b : Nat) : Nat :=
  if b < 18 then b / 3
  else if b = 18 then 6
  else if b < 21 then 7
  else if b < 24 then 8
  else 9 + bondPrimary (s.raw .BRG_CFG_BOND) ((b - 24) / 2)

/-- Berth states (R284). -/
def State.berthState (s : State) (b : Nat) : Nat := s.raw .SAL_BERTH_STATE_STATE 0 b
def State.onBerths (s : State) (g : Nat) : List Nat := (s.berths g).filter fun b => s.berthState b == 0
/-- The group has a berth in ON or TEST (R266 check 2). -/
def State.groupAlive (s : State) (g : Nat) : Bool := (s.berths g).any fun b => s.berthState b == 0 || s.berthState b == 3

/-- The port of a group is up (R266 check 2). -/
def State.portUp (s : State) (g port : Nat) : Bool :=
  if g < 6 then s.flag .LNK_STATUS_UP g
  else if g = 8 then s.flag .ETH_STATUS_LINK port && s.flag .ETH_CFG_ENABLE port
  else if 9 ≤ g then s.flag .PCI_STATUS_LINK_UP (g - 9)
  else if g = 6 ∧ 2 ≤ port ∧ port ≤ 9 then s.raw .CAN_STATUS_STATE (port - 2) != 2
  else true

/-- PORT exists in the group of BERTH (R288). -/
def State.portOk (s : State) (berth port : Nat) : Bool :=
  let g := s.groupOf berth
  if g = 6 then decide (port ≤ 10) else if g = 7 then decide (port ≤ 19) else if g = 8 then decide (port ≤ 9) else port == 0

/-! ### Flakes, pans and the lagoon -/

/-- Flakes of a unit, at 128 bytes each (R257): all of it when its length is settled, else what has arrived (R266). -/
def Flow.flakes (u : Flow) : Nat := max 1 (ceilDiv u.bytes.length 128)

/-- The unit as it leaves: its new header, then the original from HDR_OLD on (R102). -/
def Flow.leaving (u : Flow) : List Byte := if u.enqueued then u.head ++ u.bytes.drop u.skip else u.bytes

def State.queue (s : State) (q : Nat) : List Queued := (s.sal.queues.get? q).getD []

/-- PAN_FLAKES and LAGOON_FLAKES of a slot (R289). -/
def State.panFlakes (s : State) (q : Nat) : Nat := ((s.queue q).filter fun x => !x.spilled).foldl (fun n x => n + x.flakes) 0
def State.lagoonFlakes (s : State) (q : Nat) : Nat := ((s.queue q).filter fun x => x.spilled).foldl (fun n x => n + x.flakes) 0

/-- Flakes in the lagoon (SAL_LAGOON_USE). -/
def State.lagoonUse (s : State) : Nat :=
  s.sal.queues.foldl (fun n e => n + (e.2.filter fun x => x.spilled).foldl (fun k x => k + x.flakes) 0) 0

/-- Capacity of the lagoon in flakes (R271). -/
def State.lagoonCap (s : State) : Nat := s.raw .SAL_LAGOON_SIZE_MIB * 2 ^ 20 / 144

def State.isSpilled (s : State) (u : Nat) : Bool :=
  s.sal.queues.any fun e => e.2.any fun x => x.unit == u && x.spilled

/-- Free flakes in the online pans (SAL_STATUS.PAN_FREE). -/
def State.panFree (s : State) : Nat :=
  12288 * s.raw .SAL_STATUS_PANS_ONLINE -
    (s.sal.units.filter fun e => !s.isSpilled e.1).foldl (fun n e => n + e.2.flakes) 0

def setUnit (u : Nat) (f : Flow → Flow) : Prog := .act (.sal fun p => { p with units := p.units.upd u f })
def setQueue (q : Nat) (f : List Queued → List Queued) : Prog :=
  .act (.sal fun p =>
    let l := f ((p.queues.get? q).getD [])
    { p with queues := if l.isEmpty then p.queues.del q else p.queues.put q l })
def forgetUnit (u : Nat) : Prog := .act (.sal fun p => { p with units := p.units.del u })

/-- A unit leaves the hub undelivered and counts in its channel's DROPS. -/
def dropUnit (u : Nat) : Prog :=
  .get fun s => match s.sal.units.get? u with
  | none => .skip
  | some f => .all [countDrop f.chan, forgetUnit u]

/-- One copy or unit of a slot is done with: a native copy gives its reference back, and the last one frees it (R280). -/
def releaseCopy (x : Queued) : Prog :=
  .get fun s => match s.sal.units.get? x.unit with
  | none => .skip
  | some f => if x.native && decide (1 < f.refs) then setUnit x.unit fun f => { f with refs := f.refs - 1 } else forgetUnit x.unit

/-! ### Enqueueing (R266, R272, R280) -/

/-- SAL detail (R291): byte 0 berth, bytes 4–5 slot, bytes 8–11 channel. -/
def salDetail (berth q chan : Nat) : Nat := berth + q * 2 ^ 32 + chan * 2 ^ 64

/-- Flakes that other threads have reserved on a slot (R162). -/
def State.reserved (s : State) (q self : Nat) : Nat :=
  (s.grn.threads.filter fun t => t.1 != self).foldl
    (fun n t => n + (t.2.spaces.filter fun r => r.1 == q).foldl (fun k r => k + r.2) 0) 0

/-- The unit would spill (R272): beyond PAN_LIMIT, or behind units of the slot that are still spilled. -/
def State.wouldSpill (s : State) (q flakes : Nat) : Bool :=
  decide (s.fld .SAL_QCFG_PAN_LIMIT 0 q < s.panFlakes q + flakes) || s.lagoonFlakes q != 0

/-- The first check of R266 that fails for a route, 0 when none does. `self` is the thread whose own reservation does not
count against it; `native` copies are never judged by check 4. -/
def State.enqCheck (s : State) (q berth flakes self : Nat) (native : Bool) : Nat :=
  let g := s.groupOf (s.raw .SAL_QCFG_BERTH 0 q)
  if s.raw .SAL_QCFG_ENABLE 0 q = 0 ∨ s.groupOf berth ≠ g then 1
  else if !s.groupAlive g || !s.portUp g (s.raw .SAL_QCFG_PORT 0 q) then 2
  else if s.raw .SAL_QCFG_LIMIT 0 q < s.panFlakes q + s.lagoonFlakes q + flakes + s.reserved q self then 3
  else if !native && s.wouldSpill q flakes &&
    (s.raw .SAL_CFG_LAGOON_EN == 0 || decide (s.lagoonCap < s.lagoonUse + flakes)) then 4
  else 0

/-- A unit that becomes bad, with every replicated copy not yet sent (R268, R282). One that has left already counts as a late
mark. -/
def markBad (u : Nat) : Prog :=
  .get fun s =>
    if s.sal.units.any fun e => e.1 == u || e.2.parent == some u then
      .act (.sal fun p => { p with units := p.units.map fun e =>
        if e.1 == u || e.2.parent == some u then (e.1, { e.2 with bad := true }) else e })
    else bump .SAL_LATE_MARK_MARKS

/-! ### Soft errors (R260, R271, R279) -/

/-- One check of a crossing, of a pan or of queue pointers: its outcome is the next of the soft errors to come (log entry 70).
0 none, 1 payload parity, 2 header parity, 3 corrected, 4 double-bit payload, 5 double-bit header, 6 pointer copies that differ. -/
def withSoft (k : Nat → Prog) : Prog :=
  .get fun s => .seq (.act (.sal fun p => { p with soft := p.soft.tail })) (k (s.sal.soft.headD 0))

/-- What an outcome does to a unit at a berth: payload errors make it bad; a lost header loses a flake of it, and with it the unit. -/
def strike (u b outcome : Nat) : Prog :=
  let parity : Prog := .seq (bump .SAL_PARITY_ERRORS) (logLim 0x19 0x0001 2 b ms none (salDetail b 0 0))
  let double : Prog := .seq (bump .SAL_ECC_UNCORRECTED) (logLim 0x19 0x0002 3 b ms none (salDetail b 0 0))
  match outcome with
  | 1 => .seq parity (markBad u)
  | 2 => .all [parity, bump .SAL_LOST_UNITS, markBad u]
  | 3 => bump .SAL_ECC_CORRECTED
  | 4 => .seq double (markBad u)
  | 5 => .all [double, bump .SAL_LOST_UNITS, markBad u]
  | _ => .skip

/-- Pointer copies of a slot differ: it is emptied as a flush does; a unit that is leaving becomes bad (R279). -/
def qptrReset (q : Nat) : Prog :=
  .get fun s => .all [
    .each (s.queue q) fun x => match s.sal.units.get? x.unit with
      | none => .skip
      | some f => if x.started then markBad x.unit else .all [countDrop f.chan, bump .SAL_QSTAT_DROPS 0 q, releaseCopy x],
    setQueue q fun l => l.filter (·.started),
    bump .SAL_QPTR_MISMATCHES, logRec 0x19 0x0003 3 none (salDetail 0xFF q 0)]

/-- Put a unit in its slot, in the pans or, when it spills, in the lagoon (R264, R272); the slot's pointers are compared (R279). -/
def putInSlot (u q flakes : Nat) (native : Bool) : Prog :=
  .get fun s =>
    let spill := !native && s.raw .SAL_CFG_LAGOON_EN == 1 && s.wouldSpill q flakes
    .all [setQueue q fun l => l ++ [⟨u, flakes, spill, false, native, 0, 0, false⟩],
      setUnit u fun f => { f with place := .queued q, saf := f.saf || spill },
      withSoft fun o => .on (o == 6) (qptrReset q)]

/-- A multicast target (R280): the entry of the target table. -/
def State.target (s : State) (t : Nat) : Bool × Nat × Nat :=
  (s.flag .SAL_MCT_VALID 0 t, s.raw .SAL_MCT_BERTH 0 t, s.raw .SAL_MCT_QSLOT 0 t)

def State.targetRefused (s : State) (t flakes : Nat) (self : Nat) : Bool :=
  !(s.target t).1 || (let k := s.enqCheck (s.target t).2.2 (s.target t).2.1 flakes self true; k != 0)

/-- Native multicast (R280): targets are judged and queued one after another; `refs` counts those queued. -/
def fanNative (u flakes self : Nat) : List Nat → Prog
  | [] => .skip
  | t :: rest => .seq
      (.get fun s =>
        if s.targetRefused t flakes self then bump .SAL_MCT_DROPS_REFUSED 0 t
        else .all [setUnit u fun f => { f with refs := f.refs + 1 }, putInSlot u (s.target t).2.2 flakes true])
      (fanNative u flakes self rest)

/-- REPLICATE_IN_PASSING (R281, R511): each target that is not refused gets a unit of its own; the copy stays in the pans when
the lagoon cannot take it. -/
def fanCopies (u : Nat) (f : Flow) (self : Nat) : List Nat → Prog
  | [] => .skip
  | t :: rest => .seq
      (.get fun s =>
        if s.targetRefused t f.flakes self then bump .SAL_MCT_DROPS_REFUSED 0 t
        else
          let n := s.sal.nextUnit
          let q := (s.target t).2.2
          let canSpill := decide (s.lagoonUse + f.flakes ≤ s.lagoonCap)
          .all [.act (.sal fun p => { p with units := p.units.put n { f with slot := none, refs := 0, parent := some u }, nextUnit := n + 1 }),
            putInSlot n q f.flakes (!canSpill),
            setQueue q fun l => l.map fun x => if x.unit == n then { x with native := false } else x])
      (fanCopies u f self rest)

/-- ENQ takes effect for a unit (R153, R266): route word, SAF request and multicast. A unit that no check lets in is dropped
there, which is no fault; `annex` holds the multicast targets. -/
def enqEffect (u route : Nat) (saf multi : Bool) (annex : List Nat) (self : Nat) : Prog :=
  .seq (setUnit u fun f => { f with enqueued := true, saf := f.saf || saf }) <|
  .get fun s => match s.sal.units.get? u with
  | none => .skip
  | some f =>
    if multi then
      if bits (eParam f.entry 33 1) 0 0 = 0 then
        .seq (fanNative u f.flakes self annex) (.get fun s' => match s'.sal.units.get? u with
          | some f' => .on (f'.refs == 0) (dropUnit u)
          | none => .skip)
      else
        .seq (fanCopies u f self annex) (.get fun s' =>
          .all [.on (s'.sal.nextUnit == s.sal.nextUnit) (countDrop f.chan), forgetUnit u])
    else
      let q := bits route 21 8
      let b := bits route 4 0
      match s.enqCheck q b f.flakes self false with
      | 0 => putInSlot u q f.flakes false
      | 1 => .all [dropUnit u, logLim 0x19 0x0004 2 b ms (some f.chan) (salDetail b q f.chan)]
      | 4 => .all [dropUnit u, bump .SAL_QSTAT_DROPS 0 q,
          .on (s.raw .SAL_CFG_LAGOON_EN == 1) (logLim 0x19 0x0006 2 b ms (some f.chan) (salDetail b q f.chan))]
      | _ => .all [dropUnit u, bump .SAL_QSTAT_DROPS 0 q]

/-- A new unit appears inside the hub at a berth: emitted units, mover transfers, cyclic triggers (R117, R155, R262). -/
def newUnit (f : Flow) (k : Nat → Prog) : Prog :=
  .get fun s =>
    let n := s.sal.nextUnit
    .seq (.act (.sal fun p => { p with units := p.units.put n f, nextUnit := n + 1 })) (k n)

/-- Discard every waiting unit of a slot, and end one in transmission with its tail marked (R278). -/
def flushSlot (q : Nat) : Prog :=
  .get fun s => .all [
    .each (s.queue q) fun x => match s.sal.units.get? x.unit with
      | none => .skip
      | some f =>
        if x.started then .all [
          .on (decide (6 ≤ s.groupOf (s.raw .SAL_QCFG_BERTH 0 q))) <| emitOut .frame [s.groupOf (s.raw .SAL_QCFG_BERTH 0 q), s.raw .SAL_QCFG_PORT 0 q, 1] f.leaving, releaseCopy x]
        else .all [countDrop f.chan, bump .SAL_QSTAT_DROPS 0 q, releaseCopy x],
    setQueue q fun _ => []]

end Sys2Proof.Machine
end

