-- ==== Sys2Proof/Machine/Device.lean ====
section
/-! DEFINITION. Resets (R528 to R532), hold-over entry and exit (R45 to R49) and the semaphores' release (R339). -/
namespace Sys2Proof.Machine

/-- The key of SYS_RESET, SYS_BLK_RESET and SYS_STANDBY (R60, R530, R535). -/
def resetKey : Nat := 0xB7A3

/-- A write with a wrong key is ignored and recorded (R481). -/
def keyBad : Prog := logRec 0x01 0x0006

/-! ### Semaphores -/

/-- Semaphore `n` is released; with `taint` as its lease expires: TAINTED is set and the owner recorded (R339). -/
def freeSem (n : Nat) (taint : Bool) : Prog := .get fun s => .all [
  .on taint (logRec 0x30 0x0002 3 none (s.raw .BRG_SEM_BASE 0 n + s.raw .BRG_SEM_OWNER 0 n * 2 ^ 64)),
  setF .BRG_SEM_HELD 0 0 n, setF .BRG_SEM_OWNER 0xFFF 0 n, .on taint (setF .BRG_SEM_TAINTED 1 0 n),
  .act (.grn fun g => { g with semSince := g.semSince.del n })]

/-- Semaphores an owner holds. -/
def State.heldSems (s : State) (owner : Nat) : List Nat :=
  (List.range 64).filter fun n => s.flag .BRG_SEM_HELD 0 n && s.raw .BRG_SEM_OWNER 0 n == owner

/-! ### Warm reset -/

/-- Status of hardware that a warm reset leaves alone (R529): it goes on reporting. -/
def RegId.hardware (r : RegId) : Bool :=
  match r with
  | .SYS_IDENT_PART | .SYS_IDENT_REVISION | .SYS_STATE_STATE | .SYS_STATE_BOOT_FAIL | .SYS_STATE_SAFE_CAUSE | .SYS_STATE_CHAIN_POS
  | .SYS_PACE_PACE | .SYS_POWER_ACTIVE | .SYS_POWER_TBAND | .SYS_POWER_TRANSIT | .SYS_RESET_CAUSE_CAUSE
  | .GRN_IMG_DIR_BASE | .GRN_IMG_DIR_VALID | .GRN_IMG_DIR_PROFILE | .GRN_IMG_DIR_LENGTH | .GRN_IMG_DIR_IMAGE_ID
  | .SAL_BERTH_STATE_STATE | .SAL_STATUS_PANS_ONLINE | .SAL_QCFG_FLUSH
  | .LNK_STATUS_UP | .LNK_STATUS_RATE | .LNK_STATUS_PAIRMAP_ACTIVE | .LNK_STATUS_LANE_TX | .LNK_STATUS_LANE_OK
  | .LNK_STATUS_PRECODE_TX | .LNK_STATUS_PRECODE_RX | .LNK_STATUS_DEGRADED | .LNK_STATUS_REV_READY | .LNK_STATUS_LANE_CHANGE
  | .LNK_LANE_STATE_STATE | .LNK_LANE_STATE_POWER | .LNK_TXEQ_C0
  | .TUN_STATUS_PEER_OK | .TUN_STATUS_HOLD_WAIT | .TUN_PORT_STATUS_PEER_POS | .TUN_PORT_STATUS_PEER_VALID
  | .TUN_PORT_STATUS_PEER_HOLD | .TUN_PORT_STATUS_OVER | .TUN_PORT_STATUS_ALLOT_VER | .TUN_PORT_STATUS_ALLOT_PENDING
  | .TUN_RESV_TX_TOTAL | .TUN_RESV_TX_LIMIT | .TUN_RESV_RX_TOTAL | .TUN_RESV_RX_NEXT | .TUN_SWITCH_EPOCH_EPOCH | .TUN_PEER_BOOT_BOOT_ID
  | .ETH_STATUS_LINK | .ETH_STATUS_SPEED | .ETH_STATUS_FEC_LOCK | .ETH_STATUS_AN_DONE | .ETH_STATUS_LOCAL_FAULT | .ETH_STATUS_REMOTE_FAULT
  | .ETH_SLU_STATUS_GATES | .ETH_SLU_STATUS_OPER_EN | .ETH_SLU_STATUS_CHANGE_PENDING | .ETH_SLU_STATUS_ENTRY
  | .BRG_SEM_HELD | .BRG_SEM_OWNER | .DSP_HSTATUS_PSR_ACTIVE | .DSP_HSTATUS_LOCKED | .DSP_HSTATUS_PENDING
  | .DSP_LINK_STATUS_UP | .DSP_LINK_STATUS_RATE | .DSP_LINK_STATUS_LANES | .DSP_LINK_STATUS_PLL_LOCK
  | .SYS_BOOT_INFO_EPMAS_SLOT | .SYS_BOOT_INFO_FW_SLOT | .SYS_BOOT_INFO_FALLBACK | .SYS_BOOT_INFO_REF_FAULT | .SYS_BOOT_INFO_DDR_FAULT
  | .SYS_BOOT_INFO_RAIL_FAULT | .SYS_BOOT_INFO_BOARD_OK | .SYS_BOOT_INFO_FLASH_8D | .SYS_BOOT_INFO_BOOT_MS
  | .GPIO_DIR_OUT | .GPIO_OUT_LEVEL | .GPIO_IN_LEVEL | .GPIO_SAFE_EN_EN | .GPIO_SAFE_LEVEL_LEVEL | .CHN_CMD_STATUS_RESULT
  | .CAN_STATUS_STATE | .CAN_STATUS_TEC | .CAN_STATUS_REC | .CAN_STATUS_LEC | .XSPI_STATUS_RESULT | .XSPI_STATUS_BUSY => true
  | _ => false

/-- Blocks of the control cores and the data plane (R14): their fields without a note return to reset at a warm reset. -/
def Blk.warmable (b : Blk) : Bool :=
  match b with
  | .sys | .chn | .grn | .hrv | .lnk | .tun | .sal | .rak | .eth | .brg | .pci | .sig | .can | .dsp | .loc => true
  | _ => false

def RegId.survivesWarm (r : RegId) : Bool := r.info.kept || r.hardware || !r.info.blk.warmable

/-- ABANDON of a block: shadows equal the values in force again and a pending commit is withdrawn (R53, R84). -/
def abandonBlock (blk : Nat) : Prog := .all [
  .act (.keepShadows fun r i _ => r.owner i != blk), .act (.untake fun r i _ => r.owner i == blk),
  setF .BLK_STATUS_COMMIT_PENDING 0 blk,
  .on (blk == 0x03) (setF .CHN_STAGE_COUNT_COUNT 0)]

/-- Warm reset (R44, R529): the control cores restart, non-HOLD channels become HELD, a CHN commit before its commit point is
withdrawn (R90), and fields without a note return to reset. It does nothing before the control cores have started (R532). -/
def warmReset (cause : Nat) : Prog :=
  .get fun s =>
    .on (s.flowing || s.dev.st == .safe || s.dev.st == .test) (.all [
      .on (s.flag .CHN_CFG_ENABLE) holdChannels,
      .on (s.raw .BLK_STATUS_COMMIT_PENDING 0x03 == 1) (abandonBlock 0x03),
      .each ((List.range 4).map (0x600 + ·)) fun o => .get fun s' => .each (s'.heldSems o) fun n => freeSem n true,
      .act (.keepRegs fun r _ _ => r.survivesWarm),
      .act (.keepShadows fun r _ _ => r.survivesWarm), .act (.untake fun r _ _ => !r.survivesWarm),
      .act (.bus fun b => ⟨[], [], b.full⟩),
      .each (List.range 4) fun n => .act (.grn fun g => { g with ctl := g.ctl.put n { Core.reset with pc := s.boot.fwStart } }),
      .act (.grn fun g => { g with semWaits := g.semWaits.filter fun w => !(decide (0x600 ≤ w.1) && decide (w.1 ≤ 0x603)) }),
      setF .SYS_RESET_CAUSE_CAUSE cause])

/-! ### Cold reset and PORn -/

/-- Fields that a cold reset keeps (R529, R43, R537): those of the AON domain, the SAFE cause, the DRAM rate chosen, the rail fault. -/
def RegId.survivesCold (r : RegId) (inst : Nat) : Bool :=
  match r with
  | .SYS_STATE_SAFE_CAUSE | .DDR_CFG_RATE | .SYS_BOOT_INFO_RAIL_FAULT | .SYS_POWER_TBAND | .TMB_STATUS_REF_LOCK => true
  | _ => r.info.blk == .cbl || (r.info.blk == .hdr && inst == 0x50)

/-- What OTP and boot flash keep of the trust state (R433, R443, R444); every vault slot is empty again. -/
def KeyPart.restart (k : KeyPart) : KeyPart :=
  { KeyPart.reset with
    lifecycle := k.lifecycle
    anchor := k.anchor
    owner := k.owner
    nodes := k.nodes
    floors := k.floors
    sessionHi := k.sessionHi
    lost := k.lost
    returned := k.returned
    written := k.written
    sessions := 256
    lowWritten := k.lowWritten
    exhaustedWritten := k.exhaustedWritten }

/-- Everything outside the AON domain starts again (R529). DRAM is not kept; the Moment and the sequences restart (R36, R38). -/
def clearCore : Prog := .all [
  .act (.keepRegs fun r i _ => r.survivesCold i),
  .act (.keepShadows fun r i _ => r.survivesCold i), .act (.untake fun r i _ => !r.survivesCold i),
  .act (.memClear 0 (2 ^ 48)),
  .act (.moment 0),
  .act (.bus fun _ => ⟨[], [], []⟩),
  .act (.tmb fun _ => TmbPart.reset),
  .act (.chn fun _ => ChnPart.reset),
  .act (.grn fun g => { GrnPart.reset with ctl := match g.ctl.get? 8 with | some c => [(8, c)] | none => [] }),
  .act (.sal fun _ => SalPart.reset),
  .act (.rak fun _ => ⟨[], [], [], [], false⟩),
  .act (.lnk fun _ => []),
  .act (.tun fun _ => ⟨[], [], 0⟩),
  .act (.eth fun _ => []),
  .act (.brg fun _ => BrgPart.reset),
  .act (.sig fun _ => ⟨[], [], []⟩),
  .act (.can fun _ => []),
  .act (.dsp fun _ => ⟨[], false⟩),
  .act (.key fun k => k.restart),
  .act (.gau fun _ => []),
  .act (.slt fun _ => ⟨[], none, []⟩)]

/-- Straps sampled at PGOOD or a cold reset (R14). -/
def sampleStraps : Prog := .get fun s => .all [
  setF .TMB_CFG_REF_SRC s.boot.strapRef, setF .BRG_CFG_BOND s.boot.strapBond,
  .each (List.range 4) fun n => setF .PCI_CFG_ROLE (bits s.boot.strapRole n n) n]

/-- Cold reset (R528, R529): the hub restarts through BOOT at P2; contracts and the SAFE latch stay. -/
def coldReset (cause : Nat) : Prog :=
  .get fun s =>
    .on s.coreAlive (.all [
      clearCore, sampleStraps, setF .SYS_RESET_CAUSE_CAUSE cause,
      .act (.dev fun d => { d with
        st := .boot, target := 2, counted := [], timeoutWritten := false, testSetpoint := 2,
        below := 0, belowAt := none, heldBoth := 0, lossSince := none }),
      .act (.boot fun b => { b with epmas := false, trained := false, tested := false, refAt := s.clock, pgoodAt := s.clock, xspi := none }),
      .on (s.raw .SYS_POWER_ACTIVE != 2 || s.raw .SYS_POWER_TRANSIT == 1) (emitOut .avs [2])])

/-- The main rails are removed (R515): back to AON; the AON domain, its contracts and its latches stay. -/
def removeRails (standby : Bool) : Prog := .get fun s =>
  .on (s.coreAlive || s.boot.groups != 0) (.all [
    clearCore,
    .act (.dev fun d => { d with
      st := .aon
      target := 2
      counted := []
      timeoutWritten := false
      testSetpoint := 2
      below := 0
      belowAt := none
      heldBoth := 0
      lossSince := none }),
    .act (.boot fun b => { b with
      groups := 0
      epmas := false
      trained := false
      tested := false
      xspi := none
      standby := standby }),
    setF .TMB_STATUS_REF_LOCK 0, emitOut .rails [0]])

/-- The hub goes OFF (R42, R528): every register and every part loses its contents; what is burnt or fitted stays. -/
def pornReset (cause : Nat) : Prog := .all [
  clearCore, .act (.memClear (2 ^ 48) (2 ^ 51)), .act (.keepRegs fun _ _ _ => false), .act (.keepShadows fun _ _ _ => false), .act (.untake fun _ _ _ => true),
  .act (.grn fun _ => GrnPart.reset),
  .act (.cbl fun _ => CblPart.reset),
  .act (.btn fun _ => (0, 0, [])), .each (List.range stagingCap) fun _ => .act .unstage,
  .act (.dev fun d => { DevPart.reset with thermalHold := d.thermalHold, vin := d.vin, vbus := d.vbus, temp := d.temp }),
  .act (.boot fun b => { BootPart.reset with gib := b.gib }),
  setF .SYS_RESET_CAUSE_CAUSE cause]

/-- A write of SYS_RESET (R60): with COLD it is a cold reset only; a wrong key is recorded. -/
def resetWrite (warm cold : Bool) (key : Nat) : Prog :=
  if key == resetKey then (if cold then coldReset 2 else .on warm (warmReset 3)) else keyBad

def execWarmReset (key : Nat) (s : State) := s.does (whenAlive (resetWrite true false key))
def execColdReset (key : Nat) (s : State) := s.does (whenAlive (resetWrite false true key))

/-! ### Hold-over -/

/-- Upstream ports that hold both their link and their contract (R45). -/
def State.holdsBoth (s : State) (p : Nat) : Bool := s.flag .LNK_STATUS_UP p && s.flag .CBL_PORT_STATUS_CONTRACT p

def State.upstream (s : State) : List Nat := (List.range 6).filter fun p => (s.raw .SYS_HOLD_CFG_UPSTREAM).testBit p

/-- Upstream ports that have lost their link (SYS_HOLD_STATUS.LOST). -/
def State.lostPorts (s : State) : List Nat := s.upstream.filter fun p => s.dev.heldBoth.testBit p && !s.holdsBoth p

/-- The conditions of the trigger, GRACE apart (R45). -/
def State.holdDue (s : State) : Bool :=
  s.flag .SYS_HOLD_CFG_ENABLE && !s.lostPorts.isEmpty && !(s.upstream.any fun p => s.holdsBoth p)

/-- Bring the record of held ports and the start of a loss up to date; called whenever a link or contract changes (R45). -/
def trackHold : Prog :=
  .get fun s => .seq
    (.act (.dev fun d => { d with heldBoth := (List.range 6).foldl (fun n p =>
      if s.holdsBoth p && !n.testBit p then n + 2 ^ p else n) d.heldBoth }))
    (.get fun s' => .act (.dev fun d => { d with lossSince := if s'.holdDue then (d.lossSince.or (some s'.clock)) else none }))

/-- The trigger (R46, R47): after GRACE, non-HOLD channels become HELD and the device enters HOLD. -/
def holdTrigger : Prog :=
  .get fun s =>
    let due := match s.dev.lossSince with
      | some t => decide (t + s.raw .SYS_HOLD_CFG_GRACE * ms ≤ s.clock)
      | none => false
    .on (s.dev.st == .run && s.holdDue && due) (.all [
      .on (s.flag .CHN_CFG_ENABLE) holdChannels, enterState .hold, bump .SYS_HOLD_STATUS_ENTER_COUNT, logRec 0x01 0x0003 1])

def execHoldTrigger (s : State) := s.does holdTrigger

/-- Hold-over ends (R49): the state becomes RUN and the setpoint returns. -/
def holdExit : Prog :=
  .get fun s => .on (s.dev.st == .hold) (.all [enterState .run, logRec 0x01 0x0004 1, trackHold])

end Sys2Proof.Machine
end

