-- ==== Sys2Proof/Machine/Engine.lean ====
section
/-! DEFINITION. The machines that run grainer instructions: registers, the issue of one instruction with its checks in order,
data-profile faults (R105 to R110), traps of the other profiles (R120 to R125), retirement (R99). -/
namespace Sys2Proof.Machine

def threadKey (e t : Nat) : Nat := e * 16 + t
def coreKey : Mach → Nat
  | .eng e t => threadKey e t
  | .ctl n => n
  | .cable => 8
  | .secure => 12

def blankThread : Thread where
  busy := false
  unit := 0
  chan := 0
  gen := 0
  ver := 0
  regs := []
  pc := 0
  lo := 0
  hi := 0
  steps := 0
  budget := 0
  descs := []
  u := []
  entry := []
  k := []
  enq := false
  emitted := []
  heldEnq := none
  heldMsgs := []
  credits := []
  spaces := []
  wait := .none

def State.thread (s : State) (k : Nat) : Thread := (s.grn.threads.get? k).getD blankThread
def State.core (s : State) (k : Nat) : Core := (s.grn.ctl.get? k).getD Core.reset

def setThread (k : Nat) (f : Thread → Thread) : Prog :=
  .act (.grn fun g => { g with threads := g.threads.put k (f ((g.threads.get? k).getD blankThread)) })
def setCore (k : Nat) (f : Core → Core) : Prog :=
  .act (.grn fun g => { g with ctl := g.ctl.put k (f ((g.ctl.get? k).getD Core.reset)) })

/-- Read a general register; g0 reads as zero (R136). -/
def regGet (m : NMap Word) (r : Nat) : Word := if r = 0 then 0 else (m.get? r).getD 0

/-- Write a general register; a write to g0 is discarded (R136). -/
def regPut (m : NMap Word) (r : Nat) (v : Word) : NMap Word := if r = 0 then m else m.put r v

def State.reg (s : State) (m : Mach) (r : Reg) : Word :=
  regGet (match m with
    | .eng e t => (s.thread (threadKey e t)).regs
    | _ => (s.core (coreKey m)).regs) r.toNat

def writeReg (m : Mach) (r : Nat) (v : Word) : Prog :=
  match m with
  | .eng e t => setThread (threadKey e t) fun h => { h with regs := regPut h.regs r v }
  | _ => setCore (coreKey m) fun c => { c with regs := regPut c.regs r v }

def wr (m : Mach) (r : Reg) (v : Word) : Prog := writeReg m r.toNat v

/-- The second register of a pair (R136). -/
def wrNext (m : Mach) (r : Reg) (v : Word) : Prog := writeReg m (r.toNat + 1) v

def State.pc (s : State) (m : Mach) : Nat :=
  match m with
  | .eng e t => (s.thread (threadKey e t)).pc
  | _ => (s.core (coreKey m)).pc

def setPc (m : Mach) (v : Nat) : Prog :=
  match m with
  | .eng e t => setThread (threadKey e t) fun h => { h with pc := v }
  | _ => setCore (coreKey m) fun c => { c with pc := v % 2 ^ 48 }

/-- The machine goes on with the next word. -/
def stepPc (m : Mach) : Prog := .get fun s => setPc m (s.pc m + 4)

/-! ### Retirement and faults in the Data profile -/

/-- The unit of a thread as its stamp points see it. -/
def State.threadMark (s : State) (k : Nat) : Mark :=
  match s.sal.units.get? (s.thread k).unit with
  | some f => f.mark
  | none =>
    let h := s.thread k
    { blankFlow.mark with
      chan := h.chan
      gen := h.gen
      key := leNat (h.u.reads 0x100 4)
      entered := leNat (h.u.reads 0x100 8) }

/-- The thread retires (R99): retire stamp; its reservations and its hold on the unit end; K stays (R97). -/
def retire (k : Nat) : Prog :=
  .get fun s => passPoint (ptRetire (k / 16)) 0 0 (s.threadMark k) fun _ => .get fun s => .all [
    .act (.grn fun g => { g with harvest := g.harvest.filter fun e => !(e.2.gap && e.2.unit == some (s.thread k).unit) }),
    setThread k fun h => { blankThread with chan := h.chan, k := h.k }]

/-- Complete the unit's harvest slot as empty (R110, R156). -/
def emptySlot (u : Nat) : Prog :=
  .act (.grn fun g =>
    { g with
      harvest := g.harvest.map fun e =>
        if e.2.unit == some u then (e.1, { e.2 with empty := true, retired := true, enq := none, emitted := [], msgs := [] })
        else e })

/-- Detail of a fault record (R109). -/
def faultDetail (k : Nat) (h : Thread) (info : Nat) : Nat :=
  k / 16 + (k % 16) * 2 ^ 8 + (bits (h.pc / 4) 18 0) * 2 ^ 16 + (info % 2 ^ 32) * 2 ^ 48 + (h.steps % 2 ^ 16) * 2 ^ 80

/-- What becomes of the unit of a thread that ends badly (R110, R156): marked bad once ENQ has taken effect, else discarded. -/
def endUnit (h : Thread) : Prog :=
  .all [if h.enq && h.heldEnq.isNone then markBad h.unit else forgetUnit h.unit, emptySlot h.unit]

/-- A data-profile fault (R108 to R110, R78). -/
def grnFault (k code info : Nat) : Prog :=
  .get fun s =>
    let h := s.thread k
    .all [bump .GRN_FAULT_COUNT_FAULTS, countFault h.chan code,
      logRec 0x04 code 2 (some h.chan) (faultDetail k h info),
      retire k, endUnit h, .each (s.heldSems k) fun n => freeSem n true]

/-! ### Traps of the Control and Secure profiles -/

def Core.monitor (c : Core) : Bool := bit c.status 0

/-- STATUS after taking a trap: MODE and IE are saved to PMODE and PIE, MODE becomes monitor and IE 0 (R121 step 3). -/
def trapStatus (st : Nat) : Nat := 1 + (bits st 0 0) * 4 + (bits st 1 1) * 8

/-- STATUS after ERET: step 3 of R121 reversed. -/
def eretStatus (st : Nat) : Nat := bits st 2 2 + (bits st 3 3) * 2 + (bits st 2 2) * 4 + (bits st 3 3) * 8

/-- A core halts on a double trap and the hub resets it (R121): a control core by a warm reset, or by a cold reset within 1 s
of an earlier one; the cable core restarts from its image (R417) by a command of its own. -/
def doubleTrap (m : Mach) : Prog :=
  .get fun s =>
    .all [setCore (coreKey m) fun c => { c with halted := true },
      logRec 0x01 0x0020 3,
      match m with
      | .ctl _ =>
        let again := match s.dev.trapResetAt with | some t => decide (s.clock < t + sec) | none => false
        if again then coldReset 2
        else .all [warmReset 3, .act (.dev fun d => { d with trapResetAt := some s.clock })]
      | .cable => .act (.cbl fun c => { c with restartAt := some s.clock })
      | _ => .skip]

/-- Take a trap (R121): save the PC, the cause and the value, enter monitor mode, go on at TVEC. -/
def takeTrap (m : Mach) (pc cause tval : Nat) : Prog :=
  setCore (coreKey m) fun c =>
    { c with tepc := pc, tcause := cause, tval := tval, status := trapStatus c.status, pc := c.tvec / 4 * 4, fresh := true, wait := .none }

/-- A load or store that has issued ends in a bus error (R122); it does not count as retired. -/
def busTrap (m : Mach) (a : Nat) : Prog :=
  .get fun s => .seq (setCore (coreKey m) fun c => { c with steps := (c.steps + 2 ^ 64 - 1) % 2 ^ 64 }) (takeTrap m (s.pc m) 7 a)

/-- The region that decides an access (R124): the lowest-numbered enabled one that applies to the mode and contains the address. -/
def Core.region (c : Core) (a : Nat) : Option Nat :=
  ((List.range 16).find? fun i =>
    let cfg := (c.mpuCfg.get? i).getD 0
    let size := bits cfg 5 0
    let base := (c.mpuBase.get? i).getD 0
    bit cfg 15 && (if c.monitor then bit cfg 13 else bit cfg 12 || bit cfg 13) && base / 2 ^ size == a / 2 ^ size).map
      fun i => (c.mpuCfg.get? i).getD 0

/-- The protection unit allows an access to one byte (R124); `right` is the bit of MPU_CFG: 8 R, 9 W, 10 X. -/
def Core.allows (c : Core) (a right : Nat) : Bool :=
  match c.region a with
  | some cfg => bit cfg right
  | none => c.monitor

def Core.allowsAll (c : Core) (a n right : Nat) : Bool := (List.range n).all fun i => c.allows (a + i) right

/-! ### Issue -/

/-- Other ready threads of an engine (R98). -/
def State.othersReady (s : State) (k : Nat) : List Nat :=
  (s.grn.threads.filter fun t => t.1 / 16 == k / 16 && t.1 != k && t.2.busy && t.2.wait == .none).map (·.1)

/-- A thread has issued: threads of its engine that have yielded wait for one fewer (R98, R163). -/
def noteIssue (k : Nat) : Prog :=
  .act (.grn fun g => { g with yields := (g.yields.map fun y => (y.1, y.2.filter (· != k))).filter fun y => !y.2.isEmpty })

/-- What an instruction's checks find: nothing, or the fault code and detail in the Data profile, or the trap cause and
TVAL in the others. -/
abbrev Check := State → Option (Nat × Nat)

def noCheck : Check := fun _ => none

/-- Pending interrupts that a machine sees (R123); the cable core sees those of its own block only (R119). -/
def State.ipendOf (s : State) (m : Mach) : Nat :=
  match m with
  | .cable => if s.grn.ipend.testBit 0x50 then 2 ^ 0x50 else 0
  | _ => s.grn.ipend

/-- WFI has ended (R125): some bit is set in both IPEND and IENABLE. -/
def State.wakes (s : State) (m : Mach) : Bool :=
  (s.core (coreKey m)).wait == .wfi && (s.ipendOf m &&& (s.core (coreKey m)).ienable) != 0

/-- The thread or machine can issue (R98): it holds a unit and waits for nothing; a core is not halted and not in WFI. -/
def State.ready (s : State) (m : Mach) : Bool :=
  match m with
  | .eng e t => (s.thread (threadKey e t)).busy && (s.thread (threadKey e t)).wait == .none && s.flowing &&
      !(s.grn.yields.any fun y => y.1 == threadKey e t)
  | .cable => s.aonAlive && !(s.core 8).halted && ((s.core 8).wait == .none || s.wakes m)
  | _ => s.coreAlive && !(s.core (coreKey m)).halted && ((s.core (coreKey m)).wait == .none || s.wakes m)

/-- One word is issued on a thread (R105, R106): the bounds of its image, the encoding, the operands, then the budget; only then
the steps are counted and the body runs. -/
def issueData (k : Nat) (i : Instr) (cost : Nat) (check : Check) (body : Prog) : Prog :=
  .get fun s =>
    let h := s.thread k
    if h.pc < h.lo ∨ h.hi ≤ h.pc then grnFault k 2 h.pc
    else if !grnLegal i then grnFault k 4 (encodeGrn i).toNat
    else match check s with
    | some (code, info) => grnFault k code info
    | none =>
      if h.budget < h.steps + cost then grnFault k 1 (encodeGrn i).toNat
      else .all [setThread k fun h => { h with steps := h.steps + cost }, noteIssue k, body]

/-- One word is issued on a core (R121 to R124): fetch checks, the encoding, the operands; an instruction that traps has no
other effect. -/
def issueCore (m : Mach) (i : Instr) (check : Check) (body : Prog) : Prog :=
  .get fun s =>
    let c := s.core (coreKey m)
    let fetch : Option (Nat × Nat) :=
      if c.pc % 4 ≠ 0 then some (3, c.pc) else if c.allowsAll c.pc 4 10 then none else some (6, c.pc)
    match fetch with
    | some (cause, v) => if c.fresh then doubleTrap m else takeTrap m c.pc cause v
    | none => .seq (setCore (coreKey m) fun c => { c with fresh := false, wait := .none })
      (if !grnLegal i then takeTrap m c.pc 1 (encodeGrn i).toNat
       else match check s with
       | some (cause, v) => takeTrap m c.pc cause v
       | none => .all [setCore (coreKey m) fun c => { c with steps := (c.steps + 1) % 2 ^ 64 }, body])

/-- A machine issues one instruction if it is ready. -/
def issue (m : Mach) (i : Instr) (cost : Nat) (check : Check) (body : Prog) : Prog :=
  .get fun s => .on (s.ready m) (match m with
    | .eng e t => issueData (threadKey e t) i cost check body
    | _ => issueCore m i check body)

/-- An instruction that writes one register and goes on. -/
def issueReg (m : Mach) (i : Instr) (cost : Nat) (rd : Reg) (f : State → Word) : Prog :=
  issue m i cost noCheck (.get fun s => .seq (wr m rd (f s)) (stepPc m))

/-! ### Credits of message queues (R161, R162) -/

/-- Messages a block's queue holds (R334, R362, R395, R479); other blocks have none. -/
def msgCap (blk : Nat) : Nat := if blk = 0x30 ∨ blk = 0x38 ∨ blk = 0x48 ∨ blk = 0x61 then 64 else 0

/-- Credits taken: messages queued, messages held for release, and reservations. -/
def State.creditsUsed (s : State) (blk : Nat) : Nat :=
  (s.grn.msgs.filter fun x => x.blk == blk).length +
  s.grn.threads.foldl (fun n t => n + (t.2.heldMsgs.filter fun x => x.blk == blk).length + (t.2.credits.filter (· == blk)).length) 0 +
  s.grn.harvest.foldl (fun n h => n + (h.2.msgs.filter fun x => x.blk == blk).length) 0

def State.creditFree (s : State) (blk : Nat) : Bool := decide (s.creditsUsed blk < msgCap blk)

end Sys2Proof.Machine
end

