-- ==== Sys2Proof/Machine/Meters.lean ====
section
/-! DEFINITION. Shapers and policers (R308 to R311). Credits are held exactly, in units of 1/32,000,000 byte: a rate in kb/s
times a tick of 250 ps is one unit. -/
namespace Sys2Proof.Machine

def unitsPerByte : Int := 32000000

/-- Accrue a credit for `dt` ticks up to a cap in bytes. -/
def accrue (c : Int) (kbps dt cap : Nat) : Int := min (c + (kbps * dt : Nat)) (cap * unitsPerByte)

/-- A meter's bucket; before its first charge it stands as RESET_TO says (R310). -/
def State.bucket (s : State) (m : Nat) : Bucket :=
  (s.rak.meters.get? m).getD
    (if s.flag .RAK_METER_RESET_TO 0 m then ⟨0, 0, s.moment⟩
     else ⟨s.raw .RAK_METER_CBS 0 m * unitsPerByte, s.raw .RAK_METER_PBS 0 m * unitsPerByte, s.moment⟩)

/-- Outcome of a charge: colour 0 green, 1 yellow, 2 red, and the buckets after it (R311). `alg` 0 is RFC 2698, 1 RFC 4115. -/
def police (alg : Nat) (tc tp b : Int) (cin : Nat) : Nat × Int × Int :=
  if alg = 0 then
    if cin = 2 ∨ tp < b then (2, tc, tp)
    else if cin = 1 ∨ tc < b then (1, tc, tp - b)
    else (0, tc - b, tp - b)
  else
    if cin = 0 ∧ b ≤ tc then (0, tc - b, tp)
    else if cin ≠ 2 ∧ b ≤ tp then (1, tc, tp - b)
    else (2, tc, tp)

/-- Charge meter `m` with `n` bytes and go on with the colour; 3, and no charge, when it is no policer (R151). -/
def charge (m n cin : Nat) (k : Nat → Prog) : Prog :=
  .get fun s =>
    if s.raw .RAK_METER_TYPE 0 m ≠ 1 then k 3
    else
      let b := s.bucket m
      let dt := s.moment - b.last
      let tc := accrue b.c (s.raw .RAK_METER_CIR_KBPS 0 m) dt (s.raw .RAK_METER_CBS 0 m)
      let tp := accrue b.p (s.raw .RAK_METER_PIR_KBPS 0 m) dt (s.raw .RAK_METER_PBS 0 m)
      let r := police (s.raw .RAK_METER_ALG 0 m) tc tp (n * unitsPerByte) cin
      .all [.act (.rak fun p => { p with meters := p.meters.put m ⟨r.2.1, r.2.2, s.moment⟩ }),
        bump (match r.1 with | 0 => .RAK_METER_STAT_GREEN | 1 => .RAK_METER_STAT_YELLOW | _ => .RAK_METER_STAT_RED) 0 m, k r.1]

end Sys2Proof.Machine
end

