-- ==== Sys2Proof/Machine/Spaces.lean ====
section
/-! DEFINITION. The spaces of a Data-profile thread and the loads and stores on them (R101 to R104, R145). -/
namespace Sys2Proof.Machine

/-- The spaces, as MOVE encodes them (R159). -/
inductive Space where
  | u | c | t | k
  deriving DecidableEq, Repr

def emptyDesc : Desc := ⟨0, 0, 0, 0, 0⟩

/-- An empty descriptor (R103). -/
def Desc.empty (d : Desc) : Bool :=
  d.entries == 0 || d.kind == 0 || d.resWords == 0 || decide (8 < d.resWords) || decide (8 < d.keyWords) ||
  (d.keyWords == 0 && d.kind != 1)

def Thread.desc (h : Thread) (slot : Nat) : Desc := h.descs.getD slot emptyDesc

/-- Metadata bytes that a program may store to: HDR_OLD to NEW_LEN and TAG (R102). -/
def uWritable (a : Nat) : Bool := decide (a < 0x118 + 6 ∧ 0x118 ≤ a) || decide (0x128 ≤ a ∧ a < 0x130) || decide (a < 0x100)

/-- Every byte of the access lies in the space and may be accessed so (R101, R103). -/
def inSpace (h : Thread) (sp : Space) (a n : Nat) (write : Bool) : Bool :=
  match sp with
  | .u => decide (a + n ≤ 0x140) && (!write || (List.range n).all fun i => uWritable (a + i))
  | .c => decide (a + n ≤ 0x140) && (!write || decide (0x40 ≤ a))
  | .t =>
    let d := h.desc (a / 2 ^ 32)
    !write && decide (a / 2 ^ 32 < 8) && !d.empty && d.kind == 1 && decide (a % 2 ^ 32 + n ≤ d.entries * d.resWords * 8)
  | .k => decide (a + n ≤ 0x400)

/-- Bytes read from a space; an access that `inSpace` allows. -/
def State.spaceRead (s : State) (h : Thread) (sp : Space) (a n : Nat) : List Byte :=
  match sp with
  | .u => h.u.reads a n
  | .c => (List.range n).map fun i =>
      if a + i < 0x40 then h.entry.getD (a + i) 0 else s.mem.read (s.annexOf h.chan h.ver + (a + i - 0x40))
  | .t => s.mem.reads ((h.desc (a / 2 ^ 32)).base + a % 2 ^ 32) n
  | .k => h.k.reads a n

/-- Bytes written to a space; stores to the annex go to the annex of the unit's version (R76). -/
def spaceWrite (k : Nat) (sp : Space) (a : Nat) (bs : List Byte) : Prog :=
  match sp with
  | .u => setThread k fun h => { h with u := h.u.writes a bs }
  | .k => setThread k fun h => { h with k := h.k.writes a bs }
  | .c => .get fun s => let h := s.thread k; store (s.annexOf h.chan h.ver + (a - 0x40)) bs
  | .t => .skip

/-- The effective address: rs1 + sext(imm11) (R145). -/
def State.effAddr (s : State) (m : Mach) (rs1 : Reg) (imm : BitVec 11) : Nat := (s.reg m rs1 + imm.signExtend 64).toNat

/-- The thread of a Data-profile machine. -/
def State.own (s : State) (m : Mach) : Thread := s.thread (coreKey m)

/-- Bounds and rights first, then alignment (R145). -/
def accessCheck (m : Mach) (sp : Space) (rs1 : Reg) (size : BitVec 2) (imm : BitVec 11) (write : Bool) : Check := fun s =>
  let a := s.effAddr m rs1 imm
  let n := 2 ^ size.toNat
  if !inSpace (s.own m) sp a n write then some (2, a) else if a % n ≠ 0 then some (3, a) else none

def loadValue (size : BitVec 2) (sign : Bool) (v : Nat) : Word :=
  if sign then BitVec.ofInt 64 (sgn (8 * 2 ^ size.toNat) v) else BitVec.ofNat 64 v

/-- A thread that reads a table waits for the fetch (R98). -/
def waitTable (m : Mach) : Prog := setThread (coreKey m) fun h => { h with wait := .table }

/-- A thread's access that leaves fitted DRAM reads zero there; the record names SYS (R51). -/
def noteMissing (a n : Nat) : Prog := .get fun s => .on (n != 0 && !s.inDram a n) (logRec 0x01 0xF003 2 none a)

/-- The DRAM address of a T address. -/
def State.tableAddr (s : State) (m : Mach) (a : Nat) : Nat := ((s.own m).desc (a / 2 ^ 32)).base + a % 2 ^ 32

def loadFrom (m : Mach) (i : Instr) (sp : Space) (rd rs1 : Reg) (size : BitVec 2) (sign : Bool) (imm : BitVec 11) : Prog :=
  issue m i 1 (accessCheck m sp rs1 size imm false) (.get fun s =>
    .all [wr m rd (loadValue size sign (leNat (s.spaceRead (s.own m) sp (s.effAddr m rs1 imm) (2 ^ size.toNat)))),
      .on (sp == .t) (.seq (noteMissing (s.tableAddr m (s.effAddr m rs1 imm)) (2 ^ size.toNat)) (waitTable m)), stepPc m])

def storeTo (m : Mach) (i : Instr) (sp : Space) (rs rs1 : Reg) (size : BitVec 2) (imm : BitVec 11) : Prog :=
  issue m i 1 (accessCheck m sp rs1 size imm true) (.get fun s =>
    .all [spaceWrite (coreKey m) sp (s.effAddr m rs1 imm) (leBytes (2 ^ size.toNat) (s.reg m rs).toNat), stepPc m])

def execLdu (m : Mach) (rd rs1 : Reg) (size : BitVec 2) (sign : Bool) (imm : BitVec 11) (s : State) :=
  s.does (loadFrom m (.ldu m rd rs1 size sign imm) .u rd rs1 size sign imm)
def execLdc (m : Mach) (rd rs1 : Reg) (size : BitVec 2) (sign : Bool) (imm : BitVec 11) (s : State) :=
  s.does (loadFrom m (.ldc m rd rs1 size sign imm) .c rd rs1 size sign imm)
def execLdt (m : Mach) (rd rs1 : Reg) (size : BitVec 2) (sign : Bool) (imm : BitVec 11) (s : State) :=
  s.does (loadFrom m (.ldt m rd rs1 size sign imm) .t rd rs1 size sign imm)
def execLdk (m : Mach) (rd rs1 : Reg) (size : BitVec 2) (sign : Bool) (imm : BitVec 11) (s : State) :=
  s.does (loadFrom m (.ldk m rd rs1 size sign imm) .k rd rs1 size sign imm)
def execStu (m : Mach) (rs rs1 : Reg) (size : BitVec 2) (imm : BitVec 11) (s : State) :=
  s.does (storeTo m (.stu m rs rs1 size imm) .u rs rs1 size imm)
def execStc (m : Mach) (rs rs1 : Reg) (size : BitVec 2) (imm : BitVec 11) (s : State) :=
  s.does (storeTo m (.stc m rs rs1 size imm) .c rs rs1 size imm)
def execStk (m : Mach) (rs rs1 : Reg) (size : BitVec 2) (imm : BitVec 11) (s : State) :=
  s.does (storeTo m (.stk m rs rs1 size imm) .k rs rs1 size imm)

/-! ### LOOKUP (R148 to R150) -/

/-- The number that `n` doublewords spell when the first is the most significant (R149). -/
def keyNumber (ws : List Nat) : Nat := ws.foldl (fun n w => n * 2 ^ 64 + w) 0

/-- `n` little-endian doublewords of memory, as one key number. -/
def State.keyAt (s : State) (a n : Nat) : Nat := keyNumber ((List.range n).map fun i => s.load (a + 8 * i) 8)

def Desc.stride (d : Desc) : Nat :=
  match d.kind with
  | 1 => 8 * d.resWords
  | 2 => 8 * (d.keyWords + d.resWords)
  | 3 => 8 * (d.keyWords + 1 + d.resWords)
  | _ => 8 * (2 * d.keyWords + d.resWords)

/-- Where a record's result begins in it. -/
def Desc.resultAt (d : Desc) : Nat :=
  match d.kind with
  | 1 => 0
  | 2 => 8 * d.keyWords
  | 3 => 8 * (d.keyWords + 1)
  | _ => 16 * d.keyWords

/-- Prefix length of an LPM record, when its META word is well formed and no key bit beyond the prefix is set (R150). -/
def State.lpmLength (s : State) (d : Desc) (a : Nat) : Option Nat :=
  let mw := s.load (a + 8 * d.keyWords) 8
  let w := 64 * d.keyWords
  if w < mw then none
  else if s.keyAt a d.keyWords % 2 ^ (w - mw) ≠ 0 then none else some mw

/-- The index of the record that a search finds (R148, R150); among equal records the lowest. -/
def State.search (s : State) (d : Desc) (key : Nat) : Option Nat :=
  let rec_ (i : Nat) := d.base + i * d.stride
  match d.kind with
  | 1 => if key < d.entries then some key else none
  | 2 => (List.range d.entries).find? fun i => s.keyAt (rec_ i) d.keyWords == key
  | 3 =>
    ((List.range d.entries).foldl (fun best i =>
      match s.lpmLength d (rec_ i) with
      | none => best
      | some l =>
        if s.keyAt (rec_ i) d.keyWords / 2 ^ (64 * d.keyWords - l) = key / 2 ^ (64 * d.keyWords - l) then
          (match best with
            | some (_, l') => if l' < l then some (i, l) else best
            | none => some (i, l))
        else best) (none : Option (Nat × Nat))).map (·.1)
  | _ =>
    match (List.range d.entries).foldl (fun best i =>
      let lo := s.keyAt (rec_ i) d.keyWords
      if key < lo then best
      else match best with
        | some (_, l') => if l' < lo then some (i, lo) else best
        | none => some (i, lo)) (none : Option (Nat × Nat)) with
    | some (i, _) => if key ≤ s.keyAt (rec_ i + 8 * d.keyWords) d.keyWords then some i else none
    | none => none

/-- The result record of a hit. -/
def State.resultOf (s : State) (d : Desc) (i : Nat) : List Byte :=
  s.mem.reads (d.base + i * d.stride + d.resultAt) (8 * d.resWords)

def lookupCheck (m : Mach) (rs1 rs2 : Reg) (slot : BitVec 3) : Check := fun s =>
  let h := s.own m
  let d := h.desc slot.toNat
  let a := (s.reg m rs1).toNat
  let r := (s.reg m rs2).toNat
  if d.empty then some (2, slot.toNat)
  else if d.kind ≠ 1 ∧ 0x400 < a + 8 * d.keyWords then some (2, a)
  else if 0x400 < r + 8 * d.resWords then some (2, r)
  else if d.kind ≠ 1 ∧ a % 8 ≠ 0 then some (3, a)
  else if r % 8 ≠ 0 then some (3, r)
  else none

/-- LOOKUP (R148): on a hit the result goes to K and rd is the index plus 1; on a miss rd is 0 and K stays. -/
def execLookup (m : Mach) (rd rs1 rs2 : Reg) (slot : BitVec 3) (s : State) :=
  s.does (issue m (.lookup m rd rs1 rs2 slot) 4 (lookupCheck m rs1 rs2 slot) (.get fun s =>
    let h := s.own m
    let d := h.desc slot.toNat
    let a := (s.reg m rs1).toNat
    let key := if d.kind = 1 then a
      else keyNumber ((List.range d.keyWords).map fun i => leNat (h.k.reads (a + 8 * i) 8))
    .all [match s.search d key with
      | none => wr m rd 0
      | some i => .all [noteMissing (d.base + i * d.stride) d.stride, spaceWrite (coreKey m) .k (s.reg m rs2).toNat (s.resultOf d i), wr m rd (BitVec.ofNat 64 (i + 1))],
      waitTable m, stepPc m]))

/-- METER (R151). -/
def execMeter (m : Mach) (rd rs1 rs2 : Reg) (colour : BitVec 2) (own aware : Bool) (s : State) :=
  s.does (issue m (.meter m rd rs1 rs2 colour own aware) 2 noCheck (.get fun s =>
    let idx := if own then eMeter (s.own m).entry else bits (s.reg m rs1).toNat 13 0
    charge idx (bits (s.reg m rs2).toNat 15 0) (if aware then colour.toNat else 0) fun c =>
      .seq (wr m rd (BitVec.ofNat 64 c)) (stepPc m)))

/-- STAMP (R152). -/
def execStamp (m : Mach) (rd : Reg) (s : State) :=
  s.does (issue m (.stamp m rd) 1 noCheck (.get fun s =>
    match m with
    | .eng e _ => withStamp (ptDispatch e) fun w =>
        .all [wr m rd (BitVec.ofNat 64 s.moment), wrNext m rd (BitVec.ofNat 64 w), stepPc m]
    | _ => .all [wr m rd (BitVec.ofNat 64 s.moment), wrNext m rd 0xFFFFFFFF, stepPc m]))

end Sys2Proof.Machine
end

