-- ==== Sys2Proof/Machine/UnitInstrs.lean ====
section
/-! DEFINITION. Instructions that decide the fate of a unit, semaphores, credits, thread control, CSRs (R153 to R165), and the
waits of a thread (R98, R107). -/
namespace Sys2Proof.Machine

/-! ### Late units (R116) -/

/-- The harvest slot that the thread's unit holds. -/
def State.ownSlot (s : State) (k : Nat) : Option (Nat × HSlot) :=
  s.grn.harvest.find? fun e => e.2.unit == some (s.thread k).unit

/-- The unit passes through the harvest (R73). -/
def State.ordered (s : State) (k : Nat) : Bool :=
  match s.sal.units.get? (s.thread k).unit with
  | some f => f.slot.isSome
  | none => (s.ownSlot k).isSome

/-- The slot was released as a gap before the thread came this far. -/
def State.late (s : State) (k : Nat) : Bool :=
  match s.ownSlot k with
  | some (_, h) => h.gap
  | none => false

/-- Count `n` dropped units on a channel. -/
def countDrops (c : Nat) : Nat → Prog
  | 0 => .skip
  | n + 1 => .seq (countDrop c) (countDrops c n)

/-- A late unit executes ENQ, EMIT or DONE: it and its emitted units are dropped and counted; the first time is recorded. -/
def lateUnit (k : Nat) : Prog :=
  .get fun s =>
    let h := s.thread k
    .all [
      .on ((s.ownSlot k).any fun e => !e.2.empty) (.all [
        bump .HRV_LATE_LATE, logRec 0x05 0x0002 2 (some h.chan) (faultDetail k h 0), countDrop h.chan, forgetUnit h.unit]),
      countDrops h.chan h.emitted.length,
      setThread k fun h => { h with emitted := [], heldMsgs := [] },
      .act (.grn fun g =>
        { g with
          harvest := g.harvest.map fun e => if e.2.unit == some h.unit then (e.1, { e.2 with empty := true }) else e })]

/-! ### ENQ, EMIT and their release (R153 to R155, R100, R115) -/

/-- Multicast targets that the annex of a unit's generation names (R75). -/
def State.annexTargets (s : State) (f : Flow) : List Nat :=
  let a := s.annexOf f.chan (eGen f.entry)
  (List.range (s.load a 1)).map fun i => s.load (a + 1 + i) 1

/-- The new header as the metadata states it (R102): HDR_OLD, NEW_OFF, NEW_LEN. -/
def Thread.header (h : Thread) : Nat × Nat × Nat := (leNat (h.u.reads 0x118 2), leNat (h.u.reads 0x11A 2), leNat (h.u.reads 0x11C 2))

def enqCheckInstr (m : Mach) (i : Instr) (multi : Bool) : Check := fun s =>
  let h := s.own m
  let old := h.header.1
  let start := h.header.2.1
  let len := h.header.2.2
  let length := leNat (h.u.reads 0x110 4)
  if multi && eType h.entry != tyMulti then some (4, (encodeGrn i).toNat)
  else if min 256 length < old then some (2, 0x118)
  else if 255 < start then some (2, 0x11A)
  else if 256 < start + len then some (2, 0x11C)
  else none

/-- Take the header of the thread's U space into the unit. -/
def takeHeader (k : Nat) : Prog :=
  .get fun s =>
    let h := s.thread k
    setUnit h.unit fun f => { f with head := h.u.reads h.header.2.1 h.header.2.2, skip := h.header.1, tag := leNat (h.u.reads 0x128 8) }

/-- A unit's ENQ takes effect, at once or at harvest release. -/
def performEnq (u self : Nat) (e : Nat × Bool × Bool) : Prog :=
  .get fun s => match s.sal.units.get? u with
  | none => .skip
  | some f => enqEffect u e.1 e.2.1 e.2.2 (s.annexTargets f) self

def execEnq (m : Mach) (rs1 : Reg) (own saf multi : Bool) (s : State) :=
  s.does (issue m (.enq m rs1 own saf multi) 1 (enqCheckInstr m (.enq m rs1 own saf multi) multi) (.get fun s =>
    let k := coreKey m
    let h := s.thread k
    let route := if own then eRoute h.entry else (s.reg m rs1).toNat % 2 ^ 32
    .seq (
      if h.enq then logRec 0x04 0x0009 2 (some h.chan) (faultDetail k h (encodeGrn (.enq m rs1 own saf multi)).toNat)
      else if s.late k then .seq (setThread k fun h => { h with enq := true }) (lateUnit k)
      else .all [takeHeader k,
        setThread k fun h => { h with
          enq := true
          heldEnq := if s.ordered k then some (route, saf, multi) else none
          spaces := h.spaces.filter fun r => r.1 != bits route 21 8 },
        .on (!s.ordered k) (performEnq h.unit k (route, saf, multi))])
      (stepPc m)))

def emitCheck (m : Mach) (rs1 rs2 : Reg) : Check := fun s =>
  let a := (s.reg m rs1).toNat
  let n := (s.reg m rs2).toNat
  if n = 0 ∨ 1024 < n ∨ 0x400 < a + n then some (2, a) else none

def execEmit (m : Mach) (rd rs1 rs2 : Reg) (kind : BitVec 3) (s : State) :=
  s.does (issue m (.emit m rd rs1 rs2 kind) 2 (emitCheck m rs1 rs2) (.get fun s =>
    let k := coreKey m
    let h := s.thread k
    .seq (
      if s.late k then .seq (lateUnit k) (countDrop h.chan)
      else if 8 ≤ h.emitted.length then
        logRec 0x04 0x000A 2 (some h.chan) (faultDetail k h (encodeGrn (.emit m rd rs1 rs2 kind)).toNat)
      else setThread k fun h => { h with
        emitted := h.emitted ++ [⟨(s.reg m rd).toNat % 2 ^ 32, kind.toNat, h.k.reads (s.reg m rs1).toNat (s.reg m rs2).toNat⟩] })
      (stepPc m)))

/-- A unit that EMIT created is enqueued (R100, R155): complete, store-and-forward, with the ingress stamp of its parent. -/
def releaseEmitted (f : Flow) (self : Nat) (e : Emitted) : Prog :=
  newUnit { f with
    kind := e.kind
    group := gControl
    port := 0
    berth := 18
    bytes := e.bytes
    length := e.bytes.length
    whole := true
    rxBad := false
    bad := false
    opened := false
    be := false
    head := []
    skip := 0
    enqueued := true
    saf := true
    refs := 0
    slot := none
    wantSlot := false
    parent := none } fun u => enqEffect u e.route true false [] self

/-- Deliver a message: it joins its block's queue, oldest first. -/
def sendMessage (x : Message) : Prog := .act (.grn fun g => { g with msgs := g.msgs ++ [x] })

/-- DROP (R156). -/
def execDrop (m : Mach) (reason : BitVec 8) (s : State) :=
  s.does (issue m (.drop m reason) 1 noCheck (.get fun s =>
    let k := coreKey m
    let h := s.thread k
    .all [countDrop h.chan, setLastCode h.chan (0x8000 + reason.toNat), retire k, endUnit h]))

/-- MARK (R157): before ENQ the unit carries it; BAD after ENQ applies while the tail has not left. -/
def execMark (m : Mach) (func : BitVec 2) (s : State) :=
  s.does (issue m (.mark m func) 1 noCheck (.get fun s =>
    let h := s.own m
    .all [
      .on (func.getLsbD 0) (markBad h.unit),
      .on (func.getLsbD 1 && !h.enq) (setUnit h.unit fun f => { f with trace := true }),
      stepPc m]))

/-- SEAL (R158): a request or its withdrawal, as the unit carries it at ENQ. -/
def execGrnSeal (m : Mach) (on : Bool) (s : State) :=
  s.does (issue m (.grnSeal m on) 1 noCheck (.get fun s =>
    let h := s.own m
    .seq (.on (!h.enq) (setUnit h.unit fun f => { f with sealReq := on })) (stepPc m)))

/-- DONE (R99, R100, R154): emitted units are released, on an ORDERED channel by the harvest; a unit without ENQ is consumed. -/
def execDone (m : Mach) (s : State) :=
  s.does (issue m (.done m) 1 noCheck (.get fun s =>
    let k := coreKey m
    let h := s.thread k
    if s.late k then .seq (lateUnit k) (retire k)
    else match s.ownSlot k with
    | some (n, _) => .all [
        .act (.grn fun g => { g with harvest := g.harvest.upd n fun x =>
          { x with retired := true, enq := h.heldEnq, emitted := h.emitted, msgs := h.heldMsgs } }),
        retire k,
        setUnit h.unit fun f => { f with place := .harvested }]
    | none => .all [
        retire k,
        match s.sal.units.get? h.unit with
        | some f => .each h.emitted (releaseEmitted f k)
        | none => .each h.emitted (releaseEmitted
            { blankFlow with
              chan := h.chan
              gen := h.gen
              entry := h.entry
              stampMoment := leNat (h.u.reads 0x100 8)
              stampWord := leNat (h.u.reads 0x108 4) } k),
        .on (!h.enq) (forgetUnit h.unit)]))

/-! ### Semaphores (R160) -/

/-- Owner numbers: threads, control cores 0x600 to 0x603, the security core 0x608. The cable core reaches none (R119). -/
def ownerOf : Mach → Option Nat
  | .eng e t => some (threadKey e t)
  | .ctl n => some (0x600 + n)
  | .secure => some 0x608
  | .cable => none

def machOfOwner (o : Nat) : Mach := if o < 0x600 then .eng (o / 16) (o % 16) else if o < 0x608 then .ctl (o - 0x600) else .secure

def setWait (m : Mach) (w : Wait) : Prog :=
  match m with
  | .eng e t => setThread (threadKey e t) fun h => { h with wait := w }
  | _ => setCore (coreKey m) fun c => { c with wait := w }

def State.waitOf (s : State) (m : Mach) : Wait :=
  match m with
  | .eng e t => (s.thread (threadKey e t)).wait
  | _ => (s.core (coreKey m)).wait

/-- An owner acquires a semaphore; its lease starts (R160, R339). -/
def takeSem (n owner : Nat) : Prog := .get fun s => .all [
  setF .BRG_SEM_HELD 1 0 n, setF .BRG_SEM_OWNER owner 0 n,
  .act (.grn fun g => { g with semSince := g.semSince.put n s.clock })]

/-- The oldest owner waiting for a free semaphore acquires it; ACQ then completes with 0 (R160). -/
def grantSem (n : Nat) : Prog :=
  .get fun s =>
    match s.grn.semWaits.find? fun w => w.2 == n with
    | some (o, _) =>
      .on (!s.flag .BRG_SEM_HELD 0 n) (.all [
        .act (.grn fun g => { g with semWaits := g.semWaits.filter fun w => !(w.1 == o && w.2 == n) }),
        takeSem n o,
        match s.waitOf (machOfOwner o) with
        | .sem _ rd _ => .all [writeReg (machOfOwner o) rd 0, setWait (machOfOwner o) .none]
        | _ => .skip])
    | none => .skip

/-- The cable core has no access to the semaphores: a bus error (R119, R122). -/
def semCheck (m : Mach) : Check := fun s => if m = .cable then some (7, (s.core 8).pc) else none

def execAcq (m : Mach) (rd rs1 : Reg) (once : Bool) (s : State) :=
  s.does (issue m (.acq m rd rs1 once) 1 (semCheck m) (.get fun s =>
    let n := (s.reg m rs1).toNat % 64
    let o := (ownerOf m).getD 0
    let waiting := s.grn.semWaits.any fun w => w.2 == n
    .seq (stepPc m) (
      if s.flag .BRG_SEM_HELD 0 n && s.raw .BRG_SEM_OWNER 0 n == o then wr m rd 3
      else if 4 ≤ (s.heldSems o).length then wr m rd 2
      else if !s.flag .BRG_SEM_HELD 0 n && !waiting then .seq (takeSem n o) (wr m rd 0)
      else if once then wr m rd 1
      else .all [.act (.grn fun g => { g with semWaits := g.semWaits ++ [(o, n)] }), setWait m (.sem n rd.toNat s.clock)])))

def execRel (m : Mach) (rs1 : Reg) (s : State) :=
  s.does (issue m (.rel m rs1) 1 (semCheck m) (.get fun s =>
    let n := (s.reg m rs1).toNat % 64
    .seq (
      if s.flag .BRG_SEM_HELD 0 n && some (s.raw .BRG_SEM_OWNER 0 n) == ownerOf m then freeSem n false
      else match m with
        | .eng e t => logRec 0x04 0x000B 2 (some (s.own m).chan)
            (faultDetail (threadKey e t) (s.own m) (encodeGrn (.rel m rs1)).toNat)
        | _ => logRec 0x04 0x000B 2 none n)
      (stepPc m)))

def execSemaphoreGrant (sem : Nat) (s : State) := s.does (whenAlive (grantSem (sem % 64)))

/-! ### WAITC (R162) and the ends of waits (R98, R107) -/

/-- Room under the slot's LIMIT for the thread's own unit (R162). -/
def State.spaceFor (s : State) (q k : Nat) : Option Nat :=
  let n := match s.sal.units.get? (s.thread k).unit with | some f => f.flakes | none => 1
  if s.panFlakes q + s.lagoonFlakes q + n + s.reserved q k ≤ s.raw .SAL_QCFG_LIMIT 0 q then some n else none

def execWaitc (m : Mach) (rd rs1 : Reg) (queue : Bool) (blk : BitVec 8) (s : State) :=
  s.does (issue m (.waitc m rd rs1 queue blk) 1 noCheck (.get fun s =>
    let k := coreKey m
    let h := s.thread k
    let q := bits (s.reg m rs1).toNat 21 8
    let b := blk.toNat
    .seq (stepPc m) (
      if queue then
        (if h.spaces.any fun r => r.1 == q then wr m rd 0
         else match s.spaceFor q k with
          | some n => .seq (setThread k fun h => { h with spaces := (q, n) :: h.spaces }) (wr m rd 0)
          | none => setWait m (.space q rd.toNat s.clock))
      else if h.credits.contains b then wr m rd 0
      else if s.creditFree b then .seq (setThread k fun h => { h with credits := b :: h.credits }) (wr m rd 0)
      else setWait m (.credit b rd.toNat s.clock))))

/-- The credit or space a thread waits for is free: it is reserved and WAITC completes with 0. -/
def execCreditGrant (m : Mach) (s : State) := s.does (.get fun s =>
  let k := coreKey m
  match m, s.waitOf m with
  | .eng _ _, .credit b rd _ => .on (s.creditFree b)
      (.all [setThread k fun h => { h with credits := b :: h.credits }, writeReg m rd 0, setWait m .none])
  | .eng _ _, .space q rd _ => (match s.spaceFor q k with
      | some n => .all [setThread k fun h => { h with spaces := (q, n) :: h.spaces }, writeReg m rd 0, setWait m .none]
      | none => .skip)
  | _, _ => .skip)

/-- GRN_WAIT_LIMIT passes: WAITC or ACQ completes with 1 (R107, R160, R162). -/
def execWaitLimit (m : Mach) (s : State) := s.does (.get fun s =>
  let lapsed (t : Nat) : Bool := decide (t + s.raw .GRN_WAIT_LIMIT_US * us ≤ s.clock)
  let fail (rd : Nat) : Prog := .all [writeReg m rd 1, setWait m .none]
  match s.waitOf m with
  | .sem n rd t => .on (lapsed t) (.all [fail rd,
      .act (.grn fun g => { g with semWaits := g.semWaits.filter fun w => !(some w.1 == ownerOf m && w.2 == n) })])
  | .credit _ rd t => .on (lapsed t) (fail rd)
  | .space _ rd t => .on (lapsed t) (fail rd)
  | _ => .skip)

/-- A table fetch or annex miss completes (R98). -/
def execThreadResume (m : Mach) (s : State) := s.does (.get fun s => .on (s.waitOf m == .table) (setWait m .none))

/-! ### Thread and machine control (R163 to R165) -/

/-- FENCE: accesses of this model take effect in program order, so nothing is left to order. -/
def execFence (m : Mach) (s : State) := s.does (issue m (.fence m) 1 noCheck (stepPc m))

def execYield (m : Mach) (s : State) :=
  s.does (issue m (.yield m) 1 noCheck (.get fun s =>
    let k := coreKey m
    let l := s.othersReady k
    .seq (.on (!l.isEmpty) (.act (.grn fun g => { g with yields := (k, l) :: g.yields }))) (stepPc m)))

/-- TRAP traps on a core, with cause 8 or 9 by its mode. -/
def trapCheck (m : Mach) (imm : BitVec 11) : Check := fun s =>
  match m with
  | .eng _ _ => none
  | _ => some (if (s.core (coreKey m)).monitor then 9 else 8, imm.toNat)

def execTrap (m : Mach) (imm : BitVec 11) (s : State) :=
  s.does (issue m (.trap m imm) 1 (trapCheck m imm) (grnFault (coreKey m) 5 imm.toNat))

/-- Monitor-mode instructions trap with cause 1 in user mode (R120, R163). -/
def monitorCheck (m : Mach) (i : Instr) : Check := fun s =>
  if (s.core (coreKey m)).monitor then none else some (1, (encodeGrn i).toNat)

def execEret (m : Mach) (s : State) :=
  s.does (issue m (.eret m) 0 (monitorCheck m (.eret m))
    (setCore (coreKey m) fun c => { c with status := eretStatus c.status, pc := c.tepc % 2 ^ 48 }))

def execWfi (m : Mach) (s : State) :=
  s.does (issue m (.wfi m) 0 (monitorCheck m (.wfi m)) (.get fun s =>
    .seq (stepPc m) (.on ((s.ipendOf m &&& (s.core (coreKey m)).ienable) == 0) (setWait m .wfi))))

/-- An interrupt is taken while IE is 1 (R125, R121): TEPC is the next instruction's PC, TCAUSE[63] is set. -/
def execInterrupt (m : Mach) (blk : Nat) (s : State) := s.does (.get fun s =>
  let c := s.core (coreKey m)
  match m with
  | .eng _ _ => .skip
  | _ => .on (s.ready m && bit c.status 1 && (s.ipendOf m).testBit blk && c.ienable.testBit blk)
      (takeTrap m c.pc (2 ^ 63 + blk) 0))

/-- The value of a CSR; none for an unlisted number (R123). -/
def State.csr (s : State) (m : Mach) (n : Nat) : Option Nat :=
  let c := s.core (coreKey m)
  match n with
  | 0x000 => some (coreKey m + (if m = .secure then 2 else 1) * 16)
  | 0x001 => some c.status
  | 0x002 => some c.tvec
  | 0x003 => some c.tepc
  | 0x004 => some c.tcause
  | 0x005 => some c.tval
  | 0x006 => some c.scratch
  | 0x010 => some (c.ienable % 2 ^ 64)
  | 0x011 => some (c.ienable / 2 ^ 64)
  | 0x012 => some (s.ipendOf m % 2 ^ 64)
  | 0x013 => some (s.ipendOf m / 2 ^ 64)
  | 0x020 => some s.moment
  | 0x021 => some c.steps
  | _ =>
    if 0x040 ≤ n ∧ n < 0x050 then some ((c.mpuBase.get? (n - 0x040)).getD 0)
    else if 0x050 ≤ n ∧ n < 0x060 then some ((c.mpuCfg.get? (n - 0x050)).getD 0)
    else none

def csrReadable (n : Nat) : Bool := n == 0x000 || n == 0x020 || n == 0x021
def csrReadOnly (n : Nat) : Bool := n == 0x000 || n == 0x012 || n == 0x013 || n == 0x020 || n == 0x021

def csrrCheck (m : Mach) (i : Instr) (n : Nat) : Check := fun s =>
  if (s.csr m n).isNone || !((s.core (coreKey m)).monitor || csrReadable n) then some (1, (encodeGrn i).toNat) else none

def csrwCheck (m : Mach) (i : Instr) (n : Nat) : Check := fun s =>
  if (s.csr m n).isNone || csrReadOnly n || !(s.core (coreKey m)).monitor then some (1, (encodeGrn i).toNat) else none

def execCsrr (m : Mach) (rd : Reg) (csr : BitVec 11) (s : State) :=
  s.does (issue m (.csrr m rd csr) 0 (csrrCheck m (.csrr m rd csr) csr.toNat) (.get fun s =>
    .seq (wr m rd (BitVec.ofNat 64 ((s.csr m csr.toNat).getD 0))) (stepPc m)))

/-- Write a CSR. A region with LOCK set ignores the write (R124); a reserved SIZE keeps the region's SIZE (log entry 31). -/
def Core.csrWrite (c : Core) (n v : Nat) : Core :=
  match n with
  | 0x001 => { c with status := v % 16 }
  | 0x002 => { c with tvec := v / 4 * 4 }
  | 0x003 => { c with tepc := v }
  | 0x004 => { c with tcause := v }
  | 0x005 => { c with tval := v }
  | 0x006 => { c with scratch := v }
  | 0x010 => { c with ienable := c.ienable / 2 ^ 64 * 2 ^ 64 + v }
  | 0x011 => { c with ienable := c.ienable % 2 ^ 64 + v * 2 ^ 64 }
  | _ =>
    if 0x040 ≤ n ∧ n < 0x050 then
      (if bit ((c.mpuCfg.get? (n - 0x040)).getD 0) 13 then c
       else { c with mpuBase := c.mpuBase.put (n - 0x040) (bits v 47 12 * 2 ^ 12) })
    else if 0x050 ≤ n ∧ n < 0x060 then
      let old := (c.mpuCfg.get? (n - 0x050)).getD 0
      let size := if 12 ≤ v % 64 ∧ v % 64 ≤ 47 then v % 64 else old % 64
      (if bit old 13 then c
       else { c with mpuCfg := c.mpuCfg.put (n - 0x050) (size + (v &&& 0xB700)) })
    else c

def execCsrw (m : Mach) (csr : BitVec 11) (rs1 : Reg) (s : State) :=
  s.does (issue m (.csrw m csr rs1) 0 (csrwCheck m (.csrw m csr rs1) csr.toNat) (.get fun s =>
    .seq (setCore (coreKey m) fun c => c.csrWrite csr.toNat (s.reg m rs1).toNat) (stepPc m)))

/-! ### Program-store errors (R111) -/

/-- The store line under a thread fails: the unit is dropped and counted in DROPS, not in FAULTS. -/
def execGrnStoreEcc (m : Mach) (s : State) := s.does (.get fun s =>
  match m with
  | .eng e t =>
    let k := threadKey e t
    let h := s.thread k
    .on h.busy (.all [countDrop h.chan, bump .GRN_ECC_COUNT_UNCORRECTED,
      logRec 0x04 0x0006 2 (some h.chan) (faultDetail k h 0), endUnit h,
      .each (s.heldSems k) fun n => freeSem n true, retire k])
  | _ => .skip)

end Sys2Proof.Machine
end

