-- ==== Sys2Proof/Machine/Harvest.lean ====
section
/-! DEFINITION. The harvest unit (R114 to R116): slots, their release in order, and units at berth ingress (R258, R262, R265). -/
namespace Sys2Proof.Machine

/-! ### Slots -/

/-- Slots held: a slot released as a gap is no longer held (R116). -/
def State.slotsUsed (s : State) : Nat := (s.grn.harvest.filter fun e => !e.2.gap).length
def State.orderedUsed (s : State) : Nat := (s.grn.harvest.filter fun e => !e.2.gap && e.2.unit.isSome).length
def State.instUsed (s : State) (inst : Nat) : Nat :=
  (s.grn.harvest.filter fun e => !e.2.gap && e.2.unit.isNone && e.2.inst == inst).length

/-- A bridge instance may take a slot (R114). -/
def State.bridgeSlotFree (s : State) (inst : Nat) : Bool :=
  decide (s.slotsUsed < 4096) && decide (s.instUsed inst < s.fld .HRV_INST_MAX_MAX 0 inst) &&
  decide (s.slotsUsed - s.orderedUsed < 4096 - s.raw .HRV_CFG_ORDERED_RESERVE)

def blankSlot : HSlot where
  unit := none
  inst := 0
  chan := 0
  moment := 0
  order := 0
  since := 0
  retired := false
  empty := false
  gap := false
  enq := none
  emitted := []
  msgs := []

/-- Take a slot and go on with its number. -/
def takeSlot (h : State → HSlot) (k : Nat → Prog) : Prog :=
  .get fun s =>
    .seq (.act (.grn fun g => { g with harvest := g.harvest.put s.grn.nextSlot (h s), nextSlot := s.grn.nextSlot + 1 }))
      (k s.grn.nextSlot)

def dropSlot (n : Nat) : Prog := .act (.grn fun g => { g with harvest := g.harvest.del n })

/-- A unit of an ORDERED channel takes its slot at its ingress stamp, or waits for one (R114). -/
def slotForUnit (u : Nat) : Prog :=
  .get fun s => match s.sal.units.get? u with
  | none => .skip
  | some f =>
    if s.slotsUsed < 4096 then
      takeSlot (fun s =>
        { blankSlot with
          unit := some u
          chan := f.chan
          moment := f.stampMoment
          order := stampKey f.stampMoment f.stampWord
          since := s.clock }) fun n => setUnit u fun f => { f with slot := some n, wantSlot := false }
    else setUnit u fun f => { f with wantSlot := true }

/-! ### Release (R115, R116) -/

/-- What a released slot performs: ENQ, the emitted units, then the messages (R115, R161). -/
def performRelease (n : Nat) (h : HSlot) : Prog :=
  .get fun s => match h.unit with
  | none => dropSlot n
  | some u => match s.sal.units.get? u with
    | none => dropSlot n
    | some f => .all [
        dropSlot n,
        setUnit u fun f => { f with slot := none },
        match h.enq with
        | some e => performEnq u 0xFFFF e
        | none => forgetUnit u,
        .each h.emitted (releaseEmitted f 0xFFFF),
        .each h.msgs sendMessage]

/-- Slots of the same channel with a smaller ordering key that are still held, in order (R115). -/
def State.earlierSlots (s : State) (n : Nat) (h : HSlot) : List (Nat × HSlot) :=
  sortBy (fun e => e.2.order) (s.grn.harvest.filter fun e =>
    e.1 != n && e.2.unit.isSome && !e.2.gap && e.2.chan == h.chan && decide (e.2.order < h.order))

def State.settled (s : State) (h : HSlot) : Bool := decide (h.moment + 16 ≤ s.moment)

/-- A slot that meets the conditions of R115 is released. -/
def execHarvestRelease (slot : Nat) (s : State) := s.does (.get fun s =>
  match s.grn.harvest.get? slot with
  | some h => .on (h.unit.isSome && !h.gap && h.retired && (s.earlierSlots slot h).isEmpty && s.settled h) (performRelease slot h)
  | none => .skip)

/-- An ORDERED unit's slot is released as a gap (R116). -/
def gapUnit (n : Nat) (h : HSlot) : Prog := .all [
  bump .HRV_GAPS_GAPS, logRec 0x05 0x0001 2 (some h.chan) (h.moment + bits h.order 31 0 * 2 ^ 64),
  .act (.grn fun g => { g with harvest := g.harvest.upd n fun x => { x with gap := true } })]

def State.slotOverdue (s : State) (h : HSlot) : Bool := decide (h.since + s.raw .HRV_CFG_TIMEOUT_US * us ≤ s.clock)

/-- An ORDERED unit's slot passes its timeout: a gap, or, once its thread has retired, gaps for the earlier slots that hold it back
and its own release (R116). -/
def timeoutUnit (n : Nat) (h : HSlot) : Prog :=
  .get fun s =>
    .on (s.slotOverdue h && !h.gap) (
      if h.retired then .all [
        .each (s.earlierSlots n h) fun e => if e.2.retired then performRelease e.1 e.2 else gapUnit e.1 e.2,
        .on (s.settled h) (performRelease n h)]
      else gapUnit n h)

/-! ### Berth ingress (R258 to R265) -/

/-- Flakes of units that wait at a berth. -/
def State.berthLoad (s : State) (b : Nat) : Nat :=
  s.sal.units.foldl (fun n e => match e.2.place with
    | .waiting _ => if e.2.berth = b then n + e.2.flakes else n
    | _ => n) 0

/-- The berth an arriving unit enters through (R258): none when the group has no berth ON. -/
def State.pickBerth (s : State) (group port : Nat) : Option Nat :=
  let on := s.onBerths group
  if group = gEth ∧ s.fld .SAL_SPREAD_MODE = 1 then
    (if on.contains (21 + port % 3) then some (21 + port % 3) else on.head?)
  else on.foldl (fun best b => match best with
    | none => some b
    | some p => if s.berthLoad b < s.berthLoad p then some b else some p) none

/-! ### The channel cache (R79 to R82) -/

/-- HOLD channels for pinning (R82). -/
def State.holdChans (s : State) : List Nat := s.chans.filter fun c => eHold (s.entry c) && eType (s.entry c) != 0

def State.pinned (s : State) (c : Nat) : Bool :=
  s.hostLoc && s.flag .CHN_CFG_ENABLE && s.fld .CHN_CACHE_CFG_PIN_HOLD == 1 && eHold (s.entry c) && eType (s.entry c) != 0

def State.cached (s : State) (c : Nat) : Bool := s.chn.cache.contains c || s.pinned c

/-- The list without its last element that satisfies `p`. -/
def dropLast (p : Nat → Bool) (l : List Nat) : List Nat :=
  let r := l.reverse
  (r.takeWhile (fun x => !p x) ++ (r.dropWhile fun x => !p x).drop 1).reverse

/-- A channel enters its set as the most recently used; the least recently used way that is not pinned leaves (R79). -/
def cacheIn (c : Nat) : Prog :=
  .get fun s =>
    let pins := (s.holdChans.filter fun x => s.pinned x && x % 128 == c % 128).length
    let ways := 16 - pins
    .on (!s.pinned c) (.act (.chn fun h =>
      let l := c :: h.cache.filter (· != c)
      let inSet (x : Nat) : Bool := x % 128 == c % 128
      { h with cache := if ways < (l.filter inSet).length then dropLast inSet l else l }))

/-- The PCI Express link that a table in host memory is read through is up. -/
def State.hostLinkUp (s : State) : Bool := s.flag .PCI_STATUS_LINK_UP (s.raw .CHN_CFG_HOST_CTRL)

/-- A unit is judged at berth ingress (R69): a channel that is not LIVE drops it; an ORDERED one takes its slot. -/
def judge (u : Nat) : Prog :=
  .get fun s => match s.sal.units.get? u with
  | none => .skip
  | some f =>
    if s.chanState f.chan ≠ csLive then dropUnit u
    else .on (eOrdered (s.entry f.chan)) (.all [.on (decide (4096 ≤ s.slotsUsed)) (bump .HRV_WAITS_WAITS), slotForUnit u])

/-- Units waiting at berths for a channel's entry. -/
def State.missing (s : State) (c : Nat) : List Nat :=
  (s.sal.units.filter fun e => e.2.chan == c && e.2.place == .waiting true).map (·.1)

/-- A miss to host memory fails (R80): its units are dropped, one record is written, nothing is cached. -/
def fetchFail (c cause : Nat) : Prog :=
  .get fun s => .all [
    .each (s.missing c) dropUnit,
    .act (.chn fun h => { h with misses := h.misses.filter (· != c) }),
    .act (.grn fun g => { g with harvest := g.harvest.filter fun e => !(e.2.unit.isNone && e.2.retired && e.2.chan == c) }),
    logRec 0x03 0x0006 2 (some c) cause]

/-- Look the channel up: a hit may dispatch, a miss waits for its entry; a new miss to a host whose link is down fails at once
(R79, R80). -/
def lookUp (u c : Nat) : Prog :=
  .get fun s =>
    if s.cached c then .all [bump .CHN_CACHE_HITS_HITS, cacheIn c, judge u]
    else .all [
      bump .CHN_CACHE_MISSES_MISSES,
      setUnit u fun f => { f with place := .waiting true },
      if s.hostLoc then
        (if !s.hostLinkUp then fetchFail c 1
         else .on (!s.chn.misses.contains c) (.all [
          .act (.chn fun h => { h with misses := c :: h.misses }),
          takeSlot (fun s =>
            { blankSlot with
              inst := s.raw .CHN_CFG_HOST_CTRL
              chan := c
              moment := s.moment
              since := s.clock
              retired := true }) fun _ => .skip,
          emitOut .host [s.raw .CHN_CFG_HOST_CTRL, s.raw .CHN_HOST_BASE_BASE * 2 ^ 23 + c * 64, 64]]))
      else .all [.act (.chn fun h => { h with misses := c :: h.misses.filter (· != c) }), judge u]]

/-- A unit enters through a berth (R19, R258 to R266, R69): admission, the ingress stamp, the look-up and the judgement. -/
def ingress (a : Arrival) : Prog :=
  .get fun s =>
    let c := a.chan % 2 ^ 17
    match s.pickBerth a.group a.port with
    | none => bump .SAL_BERTH_DROP_UNITS 0 ((s.berths a.group).headD 18)
    | some b =>
      let drop := bump .SAL_BERTH_DROP_UNITS 0 b
      let be := decide (a.group < 6) && !a.rsv
      let need := if be then s.fld .SAL_PAN_CFG_RESERVED_FLAKES else 1
      if s.raw .CHN_CFG_ENABLE = 0 then drop
      else if 32768 < a.bytes.length then .seq drop (logLim 0x19 0x0007 2 b ms (some c) (salDetail b 0 c))
      else if s.panFree < max need 1 then
        .on (decide (a.group < 9)) (.seq drop (logLim 0x19 0x0005 2 b ms (some c) (salDetail b 0 c)))
      else
        let m : Mark := { blankFlow.mark with
          chan := c
          kind := a.kind
          key := s.moment % 2 ^ 32
          entered := s.moment
          origin := a.link.map fun l => l.2.2
          passed := a.passed }
        passPoint (ptIngress b) 0 0 m fun w =>
        let fits := decide (ceilDiv a.bytes.length 128 ≤ s.panFree)
        newUnit
          { blankFlow with
            chan := c
            kind := a.kind
            group := a.group
            port := a.port
            berth := b
            stampMoment := s.moment
            stampWord := w
            bytes := if fits then a.bytes else a.bytes.take (128 * s.panFree)
            length := a.length
            whole := a.whole
            rxBad := a.bad
            bad := a.bad || !fits
            opened := a.opened
            be := be
            hops := a.link.map fun l => l.1
            cseq := (a.link.map fun l => l.2.1).getD 0
            origin := a.link.map fun l => l.2.2
            passed := (ptIngress b, s.moment) :: a.passed } fun u => .seq (withSoft (strike u b)) (lookUp u c)

def execUnitIngress (a : Arrival) (s : State) := s.does (whenFlowing (ingress a))

/-- The entry arrives (R79). From host memory it is taken as it is, but a reserved encoding faults the channel (R66). -/
def missComplete (c : Nat) (entry : List Byte) : Prog :=
  .get fun s =>
    .on (s.chn.misses.contains c) (.all [
      .act (.chn fun h =>
        { h with
          misses := h.misses.filter (· != c)
          hostTable := if s.hostLoc && entry.length == 64 then
            (if entry.all (· == 0) then h.hostTable.del c else h.hostTable.put c entry) else h.hostTable }),
      .act (.grn fun g => { g with harvest := g.harvest.filter fun e => !(e.2.unit.isNone && e.2.retired && e.2.chan == c) }),
      cacheIn c,
      .on (s.hostLoc && entryReserved entry) (.all [setChan c csFaulted, logRec 0x03 0x0003 3 (some c)]),
      .each (s.missing c) fun u => .all [
        setUnit u fun f => { f with place := .waiting false },
        .on s.hostLoc (judge u)]])

def execCacheMissComplete (chan : Nat) (entry : List Byte) (s : State) := s.does (whenAlive (missComplete (chan % 2 ^ 17) entry))

def execChnFetchFail (chan cause : Nat) (s : State) :=
  s.does (.get fun s => .on (s.chn.misses.contains (chan % 2 ^ 17)) (fetchFail (chan % 2 ^ 17) cause))

end Sys2Proof.Machine
end

