-- ==== Sys2Proof/Machine/Channels.lean ====
section
/-! DEFINITION. Channel commands, the transition of ENABLE, writes of the channel area and of the program pool, shadow slots
(R63 to R93, R111, R129). -/
namespace Sys2Proof.Machine

/-! ### Draining (R70) -/

/-- A draining channel with nothing in flight in any generation becomes IDLE (R70). -/
def execDrainComplete (chan : Nat) (s : State) := s.does (.get fun s =>
  let c := chan % 2 ^ 17
  .on (s.coreAlive && s.flag .CHN_CFG_ENABLE && s.chanState c == csDraining && s.flying c == 0) (setChan c csIdle))

/-! ### The transition of ENABLE (R66, R82) -/

/-- BUSY_REFUSED of a block instance (R53). -/
def refuse (blk : Nat) : Prog := setF .BLK_STATUS_BUSY_REFUSED 1 blk

/-- HOLD channels in a set of the cache. -/
def State.holdInSet (s : State) (k : Nat) : Nat := (s.holdChans.filter (· % 128 == k)).length

/-- The lowest set over its limit, 0xFF when only the total is passed; none within the limits (R82). -/
def State.pinFault (s : State) : Option Nat :=
  match (List.range 128).find? fun k => decide (12 < s.holdInSet k) with
  | some k => some k
  | none => if 1024 < s.holdChans.length then some 0xFF else none

/-- The table of host memory as the hub reads it: whole entries that are not all zero. -/
def hostEntries (l : List (Nat × List Byte)) : NMap (List Byte) :=
  l.foldl (fun t e => if e.1 < 2 ^ 17 ∧ e.2.length = 64 ∧ !e.2.all (· == 0) then t.put e.1 e.2 else t) []

def enableTable (host : List (Nat × List Byte)) : Prog :=
  .get fun s => .on (s.coreAlive && s.raw .CHN_CFG_ENABLE == 0) (.all [
    .on s.hostLoc (.act (.chn fun h => { h with hostTable := hostEntries host })),
    .get fun s =>
      match (if s.hostLoc then s.pinFault else none) with
      | some k => .all [refuse 0x03, logRec 0x03 0x0004 2 none k]
      | none => .all [
          setF .CHN_CFG_ENABLE 1,
          .each (s.chans.filter fun c => entryReserved (s.entry c)) fun c =>
            .all [setChan c csFaulted, logRec 0x03 0x0003 3 (some c)]]])

def execTableEnable (hostTable : List (Nat × List Byte)) (s : State) := s.does (enableTable hostTable)

/-! ### Writes of the channel area (R63 to R65) -/

/-- Regions of the channel area: first and end offset, and what a write does while ENABLE is 1: 0 refused, 1 the stage list,
2 accepted, 3 annexes, 4 ignored. -/
def areaRegions : List (Nat × Nat × Nat) :=
  [(0x0000_0000, 0x0080_0000, 0), (0x0080_0000, 0x00C0_0000, 0), (0x00C0_0000, 0x00E0_0000, 1), (0x00E0_0000, 0x0100_0000, 2),
   (0x0100_0000, 0x0140_0000, 0), (0x0140_0000, 0x0200_0000, 4), (0x0200_0000, 0x0400_0000, 3)]

/-- The part of a write that falls in [lo, hi). -/
def slice (off : Nat) (bs : List Byte) (lo hi : Nat) : Nat × List Byte :=
  let a := max off lo
  let b := min (off + bs.length) hi
  (a, (bs.drop (a - off)).take (b - a))

/-- Annexes: each channel's part on its own; those of a MULTI channel are refused (R65). -/
def annexWrite (off : Nat) (bs : List Byte) : Prog :=
  let first := (off - 0x0200_0000) / 256
  let n := (off + bs.length - 1 - 0x0200_0000) / 256 + 1 - first
  .each ((List.range n).map (first + ·)) fun c => .get fun s =>
    let p := slice off bs (0x0200_0000 + c * 256) (0x0200_0000 + c * 256 + 256)
    if eType (s.entry c) = tyMulti then logRec 0x03 0x0001 2 (some c) else store (s.area + p.1) p.2

/-- A write in one region. -/
def regionWrite (kind off : Nat) (bs : List Byte) : Prog :=
  .get fun s =>
    let enabled := s.raw .CHN_CFG_ENABLE == 1
    let put := store (s.area + off) bs
    let table := decide (off < 0x0080_0000)
    if bs.isEmpty || kind == 4 || (table && s.hostLoc) then .skip
    else if !enabled then put
    else if kind = 0 then logRec 0x03 0x0001 2 (if table then some (off / 64) else none)
    else if kind = 1 then (if s.raw .BLK_STATUS_COMMIT_PENDING 0x03 = 1 then logRec 0x03 0x0002 else put)
    else if kind = 3 then annexWrite off bs
    else put

/-- A write of bytes at an offset of the channel area by a control core, through BAR2 or by a mover. -/
def areaWrite (off : Nat) (bs : List Byte) : Prog :=
  .each areaRegions fun r => let p := slice off bs r.1 r.2.1; regionWrite r.2.2 p.1 p.2

def execChannelAreaWrite (offset : Nat) (data : List Byte) (s : State) := s.does (whenAlive (areaWrite offset data))

/-- Bytes read from the channel area; the table of host memory reads as zero there (R64). -/
def State.areaRead (s : State) (off n : Nat) : List Byte :=
  (List.range n).map fun i =>
    if (s.hostLoc && decide (off + i < 0x0080_0000)) || (decide (0x0140_0000 ≤ off + i) && decide (off + i < 0x0200_0000)) then 0
    else s.mem.read (s.area + off + i)

/-! ### The program pool (R127 to R130, R111) -/

/-- Directory slots that hold an image. -/
def State.images (s : State) : List Nat := (List.range 64).filter fun i => s.flag .GRN_IMG_DIR_VALID 0 i
def State.imageHas (s : State) (i w : Nat) : Bool :=
  decide (s.raw .GRN_IMG_DIR_BASE 0 i ≤ w) && decide (w < s.raw .GRN_IMG_DIR_BASE 0 i + s.raw .GRN_IMG_DIR_LENGTH 0 i)

/-- The registered image that holds a pool word. -/
def State.imageAt (s : State) (w : Nat) : Option Nat := s.images.find? fun i => s.imageHas i w

/-- A write of pool words: those of a registered image are refused and recorded once. -/
def poolWrite (word : Nat) (bs : List Byte) : Prog :=
  .get fun s =>
    let n := ceilDiv bs.length 4
    let locked (i : Nat) : Bool := (s.imageAt (word + i)).isSome
    .all [
      .on ((List.range n).any locked) (logRec 0x04 0x0008),
      .each ((List.range n).filter fun i => !locked i && decide (word + i < poolWords)) fun i =>
        .act (.mem (poolBase + 4 * (word + i)) ((bs.drop (4 * i)).take 4))]

def execPoolWrite (word : Nat) (data : List Byte) (s : State) := s.does (whenAlive (poolWrite word data))

/-- An uncorrectable pool error (R111): the image's channels count a window-bound fault, the record is written once a word. -/
def execGrnPoolEcc (word : Nat) (s : State) := s.does (whenAlive (.get fun s => .all [
  bump .GRN_ECC_COUNT_UNCORRECTED,
  match s.imageAt word with
  | some i => .each (s.chans.filter fun c => eLevel (s.entry c) == 1 && s.imageHas i (eOffset (s.entry c))) fun c => countFault c 2
  | none => .skip,
  .on (!s.grn.poolErrs.contains word) (.all [
    .act (.grn fun g => { g with poolErrs := word :: g.poolErrs }), logRec 0x04 0x0007 3 none word])]))

/-! ### Shadow slots (R76, R88) -/

/-- A superseded version whose last unit has retired releases its slot. -/
def execShadowRelease (slot : Nat) (s : State) := s.does (.get fun s =>
  match s.chn.shadows.get? slot with
  | some (c, ver) => .on (s.flyingVer c ver == 0) (.all [
      .act (.chn fun h => { h with shadows := h.shadows.del slot }), store (s.shadowAddr slot) (List.replicate 512 0)])
  | none => .skip)

end Sys2Proof.Machine
end

