-- ==== Sys2Proof/Machine/CommitOps.lean ====
section
/-! DEFINITION. How a block's shadows come into force or are rejected (R8, R53 to R57), apart from what each block checks. -/
namespace Sys2Proof.Machine

/-- Expert fields whose stored value is the hardware's own and stays when the level changes. -/
def RegId.ownValue (r : RegId) : Bool :=
  match r with
  | .LNK_TXEQ_CM2 | .LNK_TXEQ_CM1 | .LNK_TXEQ_CP1 | .PCI_MPS_MPS | .PCI_MPS_MRRS
  | .DSP_LINK_CFG_RATE | .DSP_LINK_CFG_LANES | .DSP_LINK_CFG_TX_SETTING
  | .ETH_SERDES_TX_PRE | .ETH_SERDES_TX_POST | .ETH_PTP_LAT_TX_LAT | .ETH_PTP_LAT_RX_LAT => true
  | _ => false

/-- Fields whose derived value follows other fields, with their instance and index, for a block. -/
def State.followers (s : State) (blk : Nat) : List (RegId × Nat × Nat) :=
  if blk = 0x03 then [(.CHN_CACHE_CFG_PIN_HOLD, 0, 0)]
  else if blk = 0x04 then
    [(.GRN_ENG_MASK_ENGINES, 0, 0), (.GRN_ENG_MASK_ENGINES, 0, 1), (.GRN_ENG_MASK_ENGINES, 0, 2),
     (.GRN_HOLD_MASK_ENGINES, 0, 0), (.GRN_HOLD_MASK_ENGINES, 0, 1), (.GRN_HOLD_MASK_ENGINES, 0, 2)]
  else if blk = 0x18 then [(.TUN_TIMERS_ALLOT_TIMEOUT_US, 0, 0)]
  else if blk = 0x19 then
    (s.regs.filter fun e => e.2.reg == .SAL_QCFG_LIMIT).map fun e => (.SAL_QCFG_PAN_LIMIT, 0, keyIdx e.1)
  else if 0x40 ≤ blk ∧ blk < 0x48 then [(.CAN_TDC_TDCO, blk - 0x40, 0), (.CAN_TDC_TDC_EN, blk - 0x40, 0)]
  else if blk = 0x48 then [(.DSP_FETCH_BUDGET_BUDGET, 0, 0)]
  else if blk = 0x50 then
    ((List.range 6).map fun p => (List.range 7).map (fun i => (RegId.CBL_SRC_PDO_PDO, p, i)) ++
      (List.range 4).map fun i => (RegId.CBL_SNK_PDO_PDO, p, i)).flatten
  else []

/-- The level of a block changes (R55): going to expert, its expert fields start from the derived values. -/
def setLevel (blk v : Nat) : Prog :=
  .get fun s =>
    .on (s.level blk != v) (.all [
      .on (v == 1) (.all [
        .act (.keepRegs fun r i _ => !(r.isExpert && r.owner i == blk) || r.ownValue),
        .each (s.followers blk) fun f => setF f.1 (s.derived f.1 f.2.1 f.2.2) f.2.1 f.2.2]),
      setF .BLK_STATUS_LEVEL_ACTIVE v blk, setF .BLK_CTRL_LEVEL v blk])

/-- Entries of a register file: field, instance, index, value. -/
def RegFile.list (f : RegFile) : List (RegId × Nat × Nat × Nat) :=
  f.map fun e => (e.2.reg, keyInst e.1, keyIdx e.1, e.2.val)

/-- Whether a field belongs to a block instance. -/
def ofBlk (blk : Nat) (r : RegId) (i _j : Nat) : Bool := r.owner i == blk

/-- What a commit took comes into force at once, where the test selects it: the level first, then every other field; an expert
field of a block that is then basic follows what the hub derives. -/
def applyTaken (p : RegId → Nat → Nat → Bool) : Prog :=
  .get fun s =>
    let l := (s.taken.chosen p).list
    .all [
      .each (l.filter fun e => e.1 == .BLK_CTRL_LEVEL) fun e => setLevel e.2.1 e.2.2.2,
      .get fun s => .each (l.filter fun e => e.1 != .BLK_CTRL_LEVEL && !(e.1.isExpert && s.level (e.1.owner e.2.1) == 0)) fun e =>
        setF e.1 e.2.2.2 e.2.1 e.2.2.1,
      .act (.settle p)]

/-- The shadows of a block as they stand come into force at once, without a commit in progress. -/
def applyShadows (blk : Nat) : Prog := .seq (.act (.take (ofBlk blk))) (applyTaken (ofBlk blk))

/-- RESULT DONE (R56 step 3). -/
def commitDone (blk : Nat) : Prog := .all [
  setF .BLK_STATUS_COMMIT_PENDING 0 blk, setF .BLK_STATUS_RESULT 1 blk, bump .BLK_COMMIT_COUNT_DONE_COUNT blk]

def applyCommit (blk : Nat) : Prog := .seq (applyTaken (ofBlk blk)) (commitDone blk)

/-- The whole previous configuration stays in force and the shadows as written; the record carries the result and the cause
(R56, R480). -/
def rejectCommit (blk result cause : Nat) : Prog := .all [
  .act (.untake (ofBlk blk)),
  setF .BLK_STATUS_COMMIT_PENDING 0 blk, setF .BLK_STATUS_RESULT result blk, bump .BLK_COMMIT_COUNT_REJECT_COUNT blk,
  logRec blk 0xF004 2 none (result + cause * 2 ^ 32)]

end Sys2Proof.Machine
end

