-- ==== Sys2Proof/Machine/Crc.lean ====
section
/-! DEFINITION. The checks of parcels, lane control blocks, program images and training words (R127, R174, R190, R216). -/
namespace Sys2Proof.Machine

def crc32Bit (c : Nat) : Nat := if c % 2 = 1 then (c / 2) ^^^ 0xEDB88320 else c / 2
def crc32Byte (c : Nat) (b : Byte) : Nat :=
  crc32Bit (crc32Bit (crc32Bit (crc32Bit (crc32Bit (crc32Bit (crc32Bit (crc32Bit (c ^^^ b.toNat))))))))

/-- CRC-32, polynomial 0x04C1_1DB7 reflected, initial value all ones, final complement (R216). -/
def crc32 (bs : List Byte) : Nat := (bs.foldl crc32Byte 0xFFFFFFFF) ^^^ 0xFFFFFFFF

def crc16Bit (c : Nat) : Nat := if 0x8000 ≤ c then ((c * 2) % 2 ^ 16) ^^^ 0x1021 else c * 2
def crc16Byte (c : Nat) (b : Byte) : Nat :=
  crc16Bit (crc16Bit (crc16Bit (crc16Bit (crc16Bit (crc16Bit (crc16Bit (crc16Bit (c ^^^ (b.toNat * 256)))))))))

/-- CRC-16, polynomial 0x1021, initial value 0xFFFF, not reflected (R174; log entry 40). -/
def crc16 (bs : List Byte) : Nat := bs.foldl crc16Byte 0xFFFF

/-- CRC-8, polynomial 0x07, initial value 0, over the low `n` bits of a number, bit 0 first (R190). -/
def crc8Bits (v : Nat) : Nat → Nat → Nat
  | 0, c => c
  | n + 1, c =>
    let top := (c / 128) % 2
    let c' := (c * 2) % 256
    crc8Bits (v / 2) n (if top ≠ v % 2 then c' ^^^ 0x07 else c')

/-- CHK of a control and a status word. -/
def trainChk (control status : Nat) : Nat := crc8Bits (control % 2 ^ 16 + (status % 2 ^ 16) * 2 ^ 16) 32 0

/-- The first 30 bytes of a block followed by their CRC-16. -/
def sealBlock (bs : List Byte) : List Byte :=
  let p := (bs ++ List.replicate 30 0).take 30
  p ++ leBytes 2 (crc16 p)

/-- A lane control block whose CRC checks. -/
def blockOk (b : List Byte) : Bool := b.length == 32 && crc16 (b.take 30) == leNat (b.drop 30)

end Sys2Proof.Machine
end

