-- ==== Sys2Proof/Machine/KeyOps.lean ====
section
/-! DEFINITION. The vault, the ledger, blobs and SESSION values (R442 to R453). -/
namespace Sys2Proof.Machine

/-- Life-cycle states (R433). -/
def lcBlank := 0
def lcManufacture := 1
def lcProvisioned := 2
def lcDeployed := 3
def lcReturned := 4
def lcScrapped := 5

/-- The device root is in use (R437). -/
def State.customer (s : State) : Bool := s.key.lifecycle == lcProvisioned || s.key.lifecycle == lcDeployed

/-! ### Nodes (R442) -/

def blankNode : Node := ⟨0, 0, false, 0, 0⟩
def State.node (s : State) (n : Nat) : Node := (s.key.nodes.get? n).getD blankNode

/-- Ancestors of a node from itself up to the root. -/
def State.lineage (s : State) (n : Nat) : List Nat :=
  let a := (s.node n).parent
  let b := (s.node a).parent
  match (s.node n).depth with
  | 0 => [n]
  | 1 => [n, a]
  | 2 => [n, a, b]
  | _ => [n, a, b, (s.node b).parent]

/-- Node `n` is `top` or lies below it. -/
def State.below (s : State) (n top : Nat) : Bool := (s.lineage n).contains top

/-! ### Ledger writes (R444, R445) -/

/-- Steps left (KEY_STATUS.LEDGER_LEFT). -/
def State.ledgerLeft (s : State) : Nat := 8192 - s.key.anchor

/-- KEY detail (R470): bytes 0–1 node, byte 2 slot, bytes 4–7 REQ_ID or channel. -/
def keyDetail (node slot id : Nat) : Nat := node % 2 ^ 16 + (slot % 256) * 2 ^ 16 + (id % 2 ^ 32) * 2 ^ 32

/-- One ledger write: one anchor step; below 64 left it is recorded once. -/
def ledgerWrite (f : KeyPart → KeyPart) : Prog := .all [
  .act (.key fun k => { f k with anchor := k.anchor + 1 }),
  .get fun s => .on (decide (s.ledgerLeft < 64) && !s.key.lowWritten)
    (.all [.act (.key fun k => { k with lowWritten := true }), logRec 0x58 0x0005])]

/-- A fresh SESSION value (R224, R445): 0 and no sealing once no block can be reserved. -/
def withSession (go : Nat → Prog) : Prog :=
  .get fun s =>
    if s.key.noSession then go 0
    else if s.key.sessions < 256 then
      .seq (.act (.key fun k => { k with sessions := k.sessions + 1 })) (go ((s.key.sessionHi + s.key.sessions) % 2 ^ 24))
    else if 16 ≤ s.ledgerLeft then
      .seq (ledgerWrite fun k => { k with sessionHi := (k.sessionHi + 256) % 2 ^ 24, sessions := 1 })
        (go ((s.key.sessionHi + 256) % 2 ^ 24))
    else .all [
      .act (.key fun k => { k with noSession := true, exhaustedWritten := true }),
      .on (!s.key.exhaustedWritten) (logRec 0x58 0x000D), go 0]

/-- DRBG output (CTR_DRBG): a fresh draw of `n` bytes. -/
def withDrbg (n : Nat) (go : List Byte → Prog) : Prog :=
  .get fun s => .seq (.act .draw) (go (sized n (Config.drbg s.drawn n)))

/-! ### Derivation and slots (R442, R446) -/

/-- The 6-byte context of a derivation. -/
def kdfContext (parent epoch child : Nat) : List Byte := leBytes 2 parent ++ leBytes 2 epoch ++ leBytes 2 child

/-- The key-wrapping key for a child of a node (R447). -/
def State.wrapKey (s : State) (parentKey : List Byte) (parent child : Nat) : List Byte :=
  Config.kdf parentKey (leBytes 2 child ++ [0x57, 0x52, 0x41, 0x50] ++ List.replicate 26 0)
    (kdfContext parent (s.node parent).epoch child)

/-- KCV of a key (R226), read little-endian. -/
def kcvOf (key : List Byte) : Nat := leNat ((Config.aes key (List.replicate 16 0xA5)).take 4)

def State.slot (s : State) (n : Nat) : Option VaultSlot := s.key.slots.get? n

/-- A key of a node placed in a slot. -/
def fillSlot (n node : Nat) (key : List Byte) (blob : Option Nat) : Prog :=
  .get fun s => .act (.key fun k => { k with
    slots := k.slots.put n ⟨key, node, (s.node node).depth, (s.node node).epoch, kcvOf key, blob, k.useCount, false⟩
    useCount := k.useCount + 1 })

def emptyVaultSlot (n : Nat) : Prog := .act (.key fun k => { k with slots := k.slots.del n })

/-- The slot that holds a node's key. -/
def State.slotOfNode (s : State) (node : Nat) : Option Nat :=
  (s.key.slots.find? fun e => e.2.node == node && !e.2.doomed).map (·.1)

/-! ### Blobs (R447, R448) -/

/-- A blob's fields: MAGIC, VERSION, DEPTH and zero fields check. -/
def blobShape (b : List Byte) : Bool :=
  b.length == 96 && fieldOf b 0 4 == 0x4B424C31 && fieldOf b 4 1 == 1 && (fieldOf b 5 1 == 2 || fieldOf b 5 1 == 3) &&
  decide (fieldOf b 16 2 < 8) && ((b.drop 18).take 14).all (· == 0) && ((b.drop 88).take 8).all (· == 0)

/-- EPOCHS agree with the ledger and the node is in use (check 2). -/
def State.blobFresh (s : State) (b : List Byte) : Bool :=
  let n := fieldOf b 6 2
  let l := (s.lineage n).reverse
  (s.node n).inUse && (s.node n).depth == fieldOf b 5 1 &&
  (List.range 4).all fun d => fieldOf b (8 + 2 * d) 2 == (match l[d]? with | some a => (s.node a).epoch | none => 0)

/-- The checks of R448 in order: the status, and the key when all pass. `busy` says that the target slot holds a key. -/
def State.openBlob (s : State) (b : List Byte) (busy : Bool) : Nat × List Byte :=
  let n := fieldOf b 6 2
  let parent := (s.node n).parent
  if !blobShape b then (6, [])
  else if !s.blobFresh b then (3, [])
  else match s.slotOfNode parent with
  | none => (1, [])
  | some p =>
    let pk := match s.slot p with | some v => v.key | none => []
    match Config.kwUnwrap (s.wrapKey pk parent n) ((b.drop 32).take 56) with
    | none => (4, [])
    | some k =>
      if k.drop 32 ≠ (Config.sha384 (b.take 32)).take 16 then (4, [])
      else if busy then (2, []) else (0, k.take 32)

/-- Bytes 0–31 of the blob of a node's key (R447). -/
def State.blobHead (s : State) (node : Nat) : List Byte :=
  let nd := s.node node
  let l := (s.lineage node).reverse
  let epochs := ((List.range 4).map fun d => leBytes 2 (match l[d]? with | some a => (s.node a).epoch | none => 0)).flatten
  leBytes 4 0x4B424C31 ++ [1, BitVec.ofNat 8 nd.depth] ++ leBytes 2 node ++ epochs ++ leBytes 2 nd.usage ++ List.replicate 14 0

/-- The blob of a node's key wrapped under its parent's key. -/
def State.blobUnder (s : State) (node : Nat) (key parentKey : List Byte) : List Byte :=
  let head := s.blobHead node
  head ++ sized 56 (Config.kwWrap (s.wrapKey parentKey (s.node node).parent node) (key ++ (Config.sha384 head).take 16)) ++ List.replicate 8 0

/-- The blob of a node's key when its parent is in the vault. -/
def State.makeBlob (s : State) (node : Nat) (key : List Byte) : Option (List Byte) :=
  ((s.slotOfNode (s.node node).parent).bind s.slot).map fun v => s.blobUnder node key v.key

/-! ### Signature blocks (R439, R440) -/

/-- The signer that a KIND needs in the state in force: 0 Moalvo, 1 the owner. -/
def State.signerFor (s : State) (kind : Nat) : Nat :=
  if kind = 3 then 0
  else if s.key.lifecycle = lcDeployed ∨ (s.key.lifecycle = lcProvisioned ∧ s.key.owner.isSome) then 1 else 0

/-- The rollback floor of a KIND; KIND 0 has none. -/
def State.floorOf (s : State) (kind : Nat) : Nat := if kind = 0 then 0 else s.key.floors.getD (kind - 1) 0

/-- An image with its signature block is authentic for a KIND (R440). -/
def State.signatureOk (s : State) (kind : Nat) (img sig : List Byte) : Bool :=
  sig.length == 3472 && fieldOf sig 0 4 == 0x53474E31 && fieldOf sig 4 1 == kind && fieldOf sig 5 1 == s.signerFor kind &&
  fieldOf sig 6 2 == 0 && fieldOf sig 3469 3 == 0 && fieldOf sig 12 4 == img.length && decide (s.floorOf kind ≤ fieldOf sig 8 4) &&
  (sig.drop 16).take 48 == Config.sha384 img && Config.verify (fieldOf sig 5 1) (sig.take 64) ((sig.drop 64).take 3405)

/-! ### Keys of channels (R67, R228, R449) -/

/-- The vault slot an entry's KEYREF resolves to now: the slot, or the pool slot that holds the blob. -/
def State.keySlot (s : State) (e : List Byte) : Option Nat :=
  if eKeyKind e = 0 then (if (s.slot (eKeyRef e % 256)).isSome then some (eKeyRef e % 256) else none)
  else (s.key.slots.find? fun x => x.2.blob == some (eKeyRef e)).map (·.1)

/-- The KEYREF names an orphaned key or an empty slot (R72, R86 check 6). -/
def State.keyOrphaned (s : State) (e : List Byte) : Bool :=
  if eKeyKind e = 0 then
    (match s.slot (eKeyRef e % 256) with
      | none => true
      | some v => v.doomed || !(s.node v.node).inUse || (s.node v.node).epoch != v.epoch)
  else !(let b := s.mem.reads (eKeyRef e) 96; blobShape b && s.blobFresh b)

/-- The key a sealing channel uses may seal: its node has SEAL (R450). -/
def State.maySeal (s : State) (n : Nat) : Bool :=
  match s.slot n with
  | some v => !v.doomed && bit (s.node v.node).usage 0
  | none => false

/-- Channels in force whose KEYREF names a slot, or the blob it was loaded from, move to SEALED (R70, R451 step 5). -/
def sealChannels (n : Nat) (blob : Option Nat) : Prog :=
  .get fun s => .each (s.chans.filter fun c =>
      let e := s.entry c
      eSealed e && (s.chanState c == csLive || s.chanState c == csHeld) &&
      ((eKeyKind e == 0 && eKeyRef e % 256 == n && blob.isNone) || (eKeyKind e == 1 && blob == some (eKeyRef e)))) fun c => setChan c csSealed

/-- Sealed channels whose key is orphaned (R452). -/
def sealOrphans : Prog :=
  .get fun s => .each (s.chans.filter fun c =>
      eSealed (s.entry c) && (s.chanState c == csLive || s.chanState c == csHeld) && s.keyOrphaned (s.entry c)) fun c => setChan c csSealed

/-- A slot is zeroised (R446, R451, R453). -/
def zeroSlot (n : Nat) : Prog :=
  .get fun s => match s.slot n with
  | none => .skip
  | some v => .all [emptyVaultSlot n, bump .KEY_ORPHANS_SLOTS, sealChannels n v.blob]

end Sys2Proof.Machine
end

