-- ==== Sys2Proof/Machine/Time.lean ====
section
/-! DEFINITION. The time keeper: 802.1AS time, the choice of the grandmaster, the servo (R35, R36, R243 to R246). -/
namespace Sys2Proof.Machine

/-! ### The time servo (R36, R243, R244, R246) -/

/-- 802.1AS time: the Moment plus the held correction. -/
def State.asTime (s : State) (moment : Nat) : Int := (moment : Int) + sgn 64 (s.raw .TMB_SYNC_OFFSET_OFFSET)

/-- clockClass that the hub advertises. PRESUMED: 248, the 802.1AS default (log entry 43). -/
def ownClass : Nat := 248

/-- The hub's own priority vector: priority 1, class, priority 2, identity, steps removed. -/
def State.ownVector (s : State) : List Nat := [s.fld .TMB_SYNC_CFG_PRIORITY1, ownClass, s.fld .TMB_SYNC_CFG_PRIORITY2, Config.clockId, 0]

/-- Lexicographic order of priority vectors. -/
def vectorLess : List Nat → List Nat → Bool
  | a :: t, b :: u => decide (a < b) || (a == b && vectorLess t u)
  | _, _ => false

/-- The best grandmaster heard, with its port. -/
def State.bestHeard (s : State) : Option (Nat × List Nat) :=
  s.tmb.heard.foldl (fun best e => match best with
    | none => some e
    | some b => if vectorLess e.2 b.2 then some e else some b) none

/-- The vector this hub sends on: the best grandmaster, one step further, or itself. -/
def State.gmVector (s : State) : List Nat :=
  match s.tmb.slave.bind fun p => s.tmb.heard.get? p with
  | some v => v.take 4 ++ [v.getD 4 0 + 1]
  | none => s.ownVector

/-- DISCIPLINED sets or clears; its loss is recorded (R481). -/
def setDisciplined (b : Bool) : Prog :=
  .get fun s => .all [
    .on (s.flag .TMB_STATUS_DISCIPLINED && !b) (logRec 0x02 0x0003 2), setB .TMB_STATUS_DISCIPLINED b]

/-- The best master clock algorithm chooses the slave port; a grandmaster hub is disciplined while its reference is locked. -/
def chooseMaster : Prog :=
  .get fun s =>
    let slave := match s.bestHeard with
      | some (p, v) => if vectorLess (v.take 4) (s.ownVector.take 4) then some p else none
      | none => none
    .all [
      .on (slave != s.tmb.slave) (.act (.tmb fun t => { t with slave := slave, lastSync := s.clock, locked := 0, outside := 0 })),
      setF .TMB_SYNC_ERR_SLAVE (slave.getD 0xFF),
      .get fun s => setF .TMB_GM_ID_ID ((s.gmVector.getD 3 0) % 2 ^ 64),
      .on slave.isNone (setDisciplined (s.raw .TMB_STATUS_REF_LOCK == 1))]

/-- A port no longer hears a master. -/
def forgetMaster (port : Nat) : Prog := .seq (.act (.tmb fun t => { t with heard := t.heard.del port })) chooseMaster

/-- The Moment steps forward (R36). -/
def stepMoment (n : Nat) : Prog :=
  .get fun s => .all [.act (.moment (s.moment + n)), setF .TMB_STATUS_STEPPED 1, logRec 0x02 0x0001 1 none n]

def clampRate (r : Int) : Int := max (-500000) (min 500000 r)

/-- The correction of an offset in ticks (R36, R244): a forward step at first and from 1 ms on, a negative correction beyond 10 ms held
in TMB_SYNC_OFFSET, any other a change of rate. -/
def correct (acquired : Bool) (offset : Int) : Prog :=
  .get fun s =>
    let integral := s.tmb.integral + offset
    let rate := clampRate (sgn 32 (s.raw .TMB_RATE_RATE_PPB) -
      (offset / (2 ^ s.fld .TMB_SERVO_KP_SHIFT : Nat) + integral / (2 ^ s.fld .TMB_SERVO_KI_SHIFT : Nat)))
    if offset < 0 ∧ (!acquired ∨ (ms : Int) ≤ -offset) then stepMoment (-offset).toNat
    else if (10 * ms : Nat) < offset then
      setF .TMB_SYNC_OFFSET_OFFSET (enc 64 (sgn 64 (s.raw .TMB_SYNC_OFFSET_OFFSET) - offset))
    else .seq (.act (.tmb fun t => { t with integral := integral })) (setF .TMB_RATE_RATE_PPB (enc 32 rate))

/-- One step of the servo with an offset in ticks (R36, R244). -/
def servo (offset : Int) : Prog :=
  .get fun s =>
    let lock := decide (offset.natAbs ≤ s.fld .TMB_SERVO_LOCK_TICKS)
    let t := s.tmb
    .all [
      setF .TMB_OFFSET_LAST_OFFSET (enc 64 offset),
      setF .TMB_SYNC_ERR_ERR_TICKS (min 0xFFFF (4 * s.gmVector.getD 4 0 + offset.natAbs)),
      .act (.tmb fun t => { t with
        lastSync := s.clock
        acquired := true
        locked := if lock then t.locked + 1 else 0
        outside := if lock then 0 else t.outside + 1 }),
      correct t.acquired offset,
      .on (lock && decide (16 ≤ t.locked + 1)) (setDisciplined true),
      .on (!lock && decide (16 ≤ t.outside + 1)) (setDisciplined false)]

end Sys2Proof.Machine
end

