-- ==== Sys2Proof/Machine/LinkOps.lean ====
section
/-! DEFINITION. Cable lanes: maps, lane states, codeword counts, training, retrains, the link's rise and fall (R168 to R203). -/
namespace Sys2Proof.Machine

def blankLane : Lane where
  since := 0
  ready := 0
  precodeReq := false
  precodeOn := false
  revCapable := false
  answers := [0, 0, 0]
  first := none
  locked := false
  bad := 0
  joinAt := none
  low := 0
  fails := 0
  slips := 0

def blankPort : LnkPort where
  phase := .down
  phaseAt := 0
  attempts := 0
  rateFrom := 0
  lanes := []
  nextSeq := 0
  rxSeq := 0
  rejecting := false
  held := []
  resend := none
  ackAt := 0
  fruitless := 0
  accepted := 0
  ackSent := 0
  blocks := []
  queue := []
  inbox := []
  cwc := 0
  cwcAt := 0
  rxCwc := 0
  rxCwcAt := 0
  txSleep := 0
  txSince := 0
  txEntry := none
  rxSleep := 0
  rxSince := 0
  rxEntry := none
  idleAt := 0
  change := none
  deadAt := none
  eyeAt := 0
  fwdSkew := none
  revSkew := none

def State.link (s : State) (p : Nat) : LnkPort := (s.lnk.get? p).getD blankPort
def LnkPort.lane (l : LnkPort) (k : Nat) : Lane := (l.lanes.get? k).getD blankLane

def setLink (p : Nat) (f : LnkPort → LnkPort) : Prog := .act (.lnk fun m => m.put p (f ((m.get? p).getD blankPort)))
def setLaneInfo (p k : Nat) (f : Lane → Lane) : Prog := setLink p fun l => { l with lanes := l.lanes.put k (f (l.lane k)) }

/-- A command of one cable port, while the hub is alive. -/
def onPort (p : Nat) (q : Prog) : Prog := .get fun s => .on (s.coreAlive && decide (p < 6)) q

/-! ### Lanes and maps (R168, R169, R420) -/

/-- Lane states of R188. -/
def lnDisabled := 0
def lnDetect := 1
def lnTrain := 2
def lnReverse := 3
def lnAlign := 4
def lnActive := 5
def lnRetrain := 6
def lnHalf := 7
def lnDeep := 8
def lnRaw := 9
def lnFail := 10

/-- The Avrath mode is entered and the multiplexer serves it (R421). -/
def State.avrath (s : State) (p : Nat) : Bool := [1, 6, 7].contains (s.raw .CBL_MUX_STATE p)
/-- Split states (R420): lanes 1 and 3 carry DisplayPort. -/
def State.split (s : State) (p : Nat) : Bool := [6, 7].contains (s.raw .CBL_MUX_STATE p)

def mapTx : Nat → List Nat
  | 0 => [0, 1]
  | 1 => [0, 1, 3]
  | _ => [0]
def mapRx : Nat → List Nat
  | 0 => [2, 3]
  | 1 => [2]
  | _ => [1, 2, 3]

/-- The map the peer holds beside ours. -/
def complement : Nat → Nat
  | 1 => 2
  | 2 => 1
  | m => m

def State.txLanes (s : State) (p : Nat) : List Nat :=
  if s.split p then [0] else mapTx (s.raw .LNK_STATUS_PAIRMAP_ACTIVE p)
def State.rxLanes (s : State) (p : Nat) : List Nat :=
  if s.split p then [2] else mapRx (s.raw .LNK_STATUS_PAIRMAP_ACTIVE p)
/-- Lanes that take part in training. -/
def State.trainLanes (s : State) (p : Nat) : List Nat := if s.split p then [0, 2] else [0, 1, 2, 3]

def State.laneState (s : State) (p k : Nat) : Nat := s.raw .LNK_LANE_STATE_STATE p k
/-- The lane carries blocks. -/
def State.carries (s : State) (p k : Nat) : Bool := [lnActive, lnHalf, lnDeep].contains (s.laneState p k)

def maskOf (l : List Nat) : Nat := (List.range 4).foldl (fun n k => if l.contains k then n + 2 ^ k else n) 0

/-- LNK_STATUS follows the lanes (R211); a direction without a lane able to carry blocks is timed (R203). -/
def refreshPort (p : Nat) : Prog :=
  .get fun s =>
    let dead := (s.txLanes p).all (fun k => !s.carries p k) || (s.rxLanes p).all (fun k => !s.carries p k)
    .all [
      setF .LNK_STATUS_LANE_OK (maskOf ((List.range 4).filter (s.carries p))) p,
      setF .LNK_STATUS_LANE_TX (if s.raw .LNK_STATUS_UP p = 1 then maskOf (s.txLanes p) else s.raw .LNK_STATUS_LANE_TX p) p,
      setLink p fun l => { l with deadAt := if dead then l.deadAt.or (some s.clock) else none }]

def setLane (p k st : Nat) : Prog := .get fun s => .all [
  setF .LNK_LANE_STATE_STATE st p k,
  setF .LNK_LANE_STATE_POWER (if st = lnHalf then 1 else if st = lnDeep then 2 else 0) p k,
  setLaneInfo p k fun l => { l with since := s.clock, bad := 0 },
  refreshPort p]

def setLanes (p : Nat) (ks : List Nat) (st : Nat) : Prog := .each ks fun k => setLane p k st

/-! ### Codeword counts (R170, R180) -/

/-- Codewords in a span of ticks at a rate: 51.2 ns, 102.4 ns or 204.8 ns each. -/
def codewords (rate ticks : Nat) : Nat := ticks * 5 / (1024 * 2 ^ rate)

def State.cwcTx (s : State) (p : Nat) : Nat :=
  ((s.link p).cwc + codewords (s.raw .LNK_STATUS_RATE p) (s.clock - (s.link p).cwcAt)) % 2 ^ 32
def State.cwcRx (s : State) (p : Nat) : Nat :=
  ((s.link p).rxCwc + codewords (s.raw .LNK_STATUS_RATE p) (s.clock - (s.link p).rxCwcAt)) % 2 ^ 32

/-- The count `b` has been reached when `a` stands (modulo 2^32). -/
def cwcPast (a b : Nat) : Bool := decide ((a + 2 ^ 32 - b) % 2 ^ 32 < 2 ^ 31)

/-! ### Lane control blocks (R174) -/

/-- A block waits to be sent between parcels; POWER and LANE blocks go out in three codewords. -/
def sendBlock (p : Nat) (copies : Nat) (bs : List Byte) : Prog :=
  setLink p fun l => { l with blocks := l.blocks ++ List.replicate copies (sealBlock bs) }

def sendLaneBlock (p op arg at_ : Nat) : Prog :=
  sendBlock p 3 ([0xFB, BitVec.ofNat 8 op, BitVec.ofNat 8 arg, 0] ++ leBytes 4 at_)

def sendAck (p : Nat) (nak : Bool) (seq : Nat) : Prog := .get fun s => .all [
  sendBlock p 1 ([0xF9, if nak then 1 else 0] ++ leBytes 2 seq),
  .on (!nak) (setLink p fun l => { l with accepted := 0, ackSent := s.clock })]

/-- A wake, join or periodic marker leaves on a lane (R181). -/
def markerBytes (s : State) (p k : Nat) (join : Bool) (cwc : Nat) : List Byte :=
  let tx := s.txLanes p
  let logical := (tx.takeWhile (· != k)).length
  let head : List Byte := [0xFF, 0x4D, 0x72, 0xB5,
    BitVec.ofNat 8 (k + logical * 4 + (tx.length - 1) * 16 + (if join then 64 else 0)),
    BitVec.ofNat 8 (s.raw .LNK_STATUS_RATE p + (if bit (s.raw .LNK_STATUS_PRECODE_TX p) k then 4 else 0) +
      s.raw .LNK_STATUS_PAIRMAP_ACTIVE p * 8)] ++ leBytes 4 cwc ++ [0, 0, 0, 0]
  sealBlock (head ++ head.map (fun b => ~~~b))

def sendMarker (p k : Nat) : Prog := .get fun s => emitOut .lcb [p, k] (markerBytes s p k true (s.cwcTx p))

/-! ### Training (R188 to R193) -/

/-- Rates this end offers: LNK_CFG.RATES reduced by the cable (R419). The USB Highest Speed values are USB PD's (log entry 41). -/
def State.offerRates (s : State) (p : Nat) : Nat :=
  let own := s.raw .LNK_CFG_RATES p
  if s.raw .CBL_PORT_CFG_CABLE_CHECK p = 0 then own
  else match s.raw .CBL_PORT_STATUS_CABLE p with
  | 2 => 0
  | 1 =>
    let v := s.raw .CBL_PORT_STATUS_CABLE_SPEED p
    own &&& ((if 4 ≤ v then 1 else 0) + (if 3 ≤ v then 2 else 0) + (if 2 ≤ v then 4 else 0))
  | _ => own &&& 4

def State.peerVdo (s : State) (p : Nat) : Nat := match s.cbl.ports.get? p with | some c => c.peerVdo | none => 0

/-- Rates that both ends' capabilities contain (R192). -/
def State.commonRates (s : State) (p : Nat) : Nat := s.offerRates p &&& bits (s.peerVdo p) 2 0

/-- The highest common rate from index `n` on: 0 L100, 1 L50, 2 L25. -/
def State.rateFrom (s : State) (p n : Nat) : Option Nat := (List.range 3).find? fun r => decide (n ≤ r) && bit (s.commonRates p) r

/-- A structured VDM answer or command: 0 request, 1 ACK, 2 NAK; the command; SVID; objects. -/
def vdm (p kind cmd svid : Nat) (vdos : List Nat := []) : Prog := emitOut .vdm (p :: kind :: cmd :: svid :: vdos)

/-- The Avrath mode VDO (R418). -/
def State.ownVdo (s : State) (p : Nat) : Nat :=
  let split := s.flag .CBL_PORT_CFG_SPLIT_EN p && s.flag .CBL_PORT_CFG_DP_EN p
  s.offerRates p + (if s.flag .LNK_CFG_REVERSIBLE p then 8 else 0) + (if split then 16 + 32 + 64 else 0) + 2 ^ 8

def avrathSvid : Nat := 0x3A7D
def dpSvid : Nat := 0xFF01

def presetTaps : Nat → Int × Int × Int × Int
  | 1 => (0, 0, 64, 0)
  | 2 => (0, -4, 56, -4)
  | 4 => (2, -10, 46, -6)
  | 5 => (0, 0, 52, -12)
  | _ => (0, -8, 48, -8)

def setTaps (p k : Nat) (t : Int × Int × Int × Int) : Prog := .all [
  setF .LNK_TXEQ_CM2 (enc 6 t.1) p k, setF .LNK_TXEQ_CM1 (enc 6 t.2.1) p k,
  setF .LNK_TXEQ_C0 (enc 7 t.2.2.1) p k, setF .LNK_TXEQ_CP1 (enc 6 t.2.2.2) p k]

def State.taps (s : State) (p k : Nat) : Int × Int × Int :=
  (s.raw .LNK_TXEQ_CM2 p k, sgn 6 (s.raw .LNK_TXEQ_CM1 p k), sgn 6 (s.raw .LNK_TXEQ_CP1 p k))

def enterPhase (p : Nat) (ph : Phase) : Prog := .get fun s => setLink p fun l => { l with phase := ph, phaseAt := s.clock }

/-- Every lane to DETECT for an attempt at a rate (R193). -/
def attempt (p rate : Nat) : Prog := .all [
  setF .LNK_STATUS_RATE rate p, setF .LNK_STATUS_PAIRMAP_ACTIVE 0 p, setF .LNK_STATUS_REV_READY 0 p,
  .get fun s => .each (List.range 4) fun k =>
    .all [setLane p k (if (s.trainLanes p).contains k then lnDetect else lnDisabled),
      setLaneInfo p k fun l => { blankLane with since := l.since, fails := l.fails, slips := l.slips }],
  enterPhase p .detect, emitOut .training [p, rate, 0]]

/-- A full training from DETECT, when ENABLE is 1 and the mode is entered (R192, R421). -/
def startTraining (p : Nat) : Prog :=
  .get fun s =>
    if s.flag .LNK_CFG_ENABLE p && !s.flag .BLK_CTRL_QUIESCE (0x10 + p) && s.avrath p && s.dev.st != .safe && s.raw .TMB_STATUS_REF_LOCK == 1 then
      (match s.rateFrom p 0 with
        | some r => .all [
            setLink p fun l => { l with attempts := 0, rateFrom := r },
            .each (List.range 4) fun k => setLaneInfo p k fun l => { l with fails := 0 },
            setF .LNK_STATUS_DEGRADED 0 p, bump .LNK_TRAINS_FULL p, attempt p r]
        | none => .all [setLanes p [0, 1, 2, 3] lnDisabled, enterPhase p .down])
    else .all [setLanes p [0, 1, 2, 3] lnDisabled, enterPhase p .down]

/-- LNK detail (R213): byte 0 the lane, 0xFF for the port. -/
def lnkRec (p code lane : Nat) : Prog := logRec (0x10 + p) code (severityOf (0x10 + p) code) none lane

/-- An attempt fails (R193): again, at the next lower rate after three, or FAIL after three at the lowest. -/
def failAttempt (p : Nat) : Prog :=
  .get fun s =>
    let l := s.link p
    let rate := s.raw .LNK_STATUS_RATE p
    if l.attempts + 1 < 3 then .all [setLink p fun l => { l with attempts := l.attempts + 1 }, attempt p rate]
    else match s.rateFrom p (rate + 1) with
    | some r => .all [lnkRec p 0x0002 0xFF, setLink p fun l => { l with attempts := 0, rateFrom := r }, attempt p r]
    | none => .all [setLanes p [0, 2] lnFail, enterPhase p .down, lnkRec p 0x0001 0xFF]

/-! ### Partial retrain (R198) -/

/-- A lane leaves its direction for a partial retrain. -/
def retrainLane (p k : Nat) : Prog := .all [
  setLane p k lnRetrain, setLaneInfo p k fun l => { l with locked := false, joinAt := none, answers := [0, 0, 0], ready := 0 },
  bump .LNK_TRAINS_PARTIAL p]

/-- The receiving end asks for a retrain of one of its lanes. -/
def askRetrain (p k : Nat) : Prog := .seq (retrainLane p k) (sendLaneBlock p 4 k 0)

/-- A lane fails for good until the next full training. -/
def failLane (p k : Nat) : Prog := .all [setLane p k lnFail, setF .LNK_STATUS_DEGRADED 1 p, lnkRec p 0x0004 k]

/-! ### Up and down (R203) -/

/-- The port's tunnel state when its link falls: an empty allotment, no peer (R224, R241). -/
def tunnelDown (p : Nat) : Prog := .get fun s => .all [
  .act (.tun fun t => { t with ports := t.ports.del p }),
  setF .TUN_STATUS_PEER_OK (s.raw .TUN_STATUS_PEER_OK &&& (63 - 2 ^ p)),
  setF .TUN_STATUS_HOLD_WAIT (s.raw .TUN_STATUS_HOLD_WAIT &&& (63 - 2 ^ p)),
  setF .TUN_PORT_STATUS_PEER_VALID 0 0 p, setF .TUN_PORT_STATUS_PEER_HOLD 0 0 p, setF .TUN_PORT_STATUS_OVER 0 0 p,
  setF .TUN_PORT_STATUS_ALLOT_PENDING 0 0 p, setF .TUN_RESV_TX_TOTAL 0 0 p, setF .TUN_RESV_RX_TOTAL 0 0 p,
  setF .TUN_RESV_RX_NEXT 0 0 p]

/-- A unit still arriving in parcels when the link falls becomes bad at its tail. -/
def endPartials (p : Nat) : Prog := .get fun s => match s.tun.ports.get? p with
  | none => .skip
  | some t => .each t.parts fun e => match e.2.unit with
    | some u => .all [markBad u, setUnit u fun f => { f with whole := true }]
    | none => .skip

/-- The link falls: replay buffer discarded, loss reported, and training again where it is still enabled. -/
def linkDown (p : Nat) : Prog :=
  .get fun s =>
    let wasUp := s.raw .LNK_STATUS_UP p == 1
    let lost := (s.link p).held.length
    .all [
      setF .LNK_STATUS_UP 0 p, setF .LNK_STATUS_LANE_CHANGE 0 p, setF .LNK_STATUS_REV_READY 0 p,
      .on wasUp (.all [lnkRec p 0x0005 0xFF,
        .on (decide (0 < lost)) (.all [bump .LNK_REPLAY_LOST_PARCELS p 0 lost, lnkRec p 0x0007 0xFF])]),
      endPartials p,
      setLink p fun l => { blankPort with lanes := l.lanes, eyeAt := l.eyeAt },
      .on wasUp (.seq (tunnelDown p) (forgetMaster p)), trackHold, startTraining p]

end Sys2Proof.Machine
end

