-- ==== Sys2Proof/Machine/TunnelOps.lean ====
section
/-! DEFINITION. What the tunnel layer sends (R214 to R245): link management parcels, establishment and allotment requests, HELLO,
and the time servo of the hub. -/
namespace Sys2Proof.Machine

def blankTun : TunPort where
  helloAt := 0
  sent := false
  hello := none
  session := 0
  token := 0
  parts := []
  ivcTx := []
  ivcRx := []
  est := []
  ver := 0
  shares := []
  credit := []
  deficit := []
  pending := none
  retry := false
  rxTotal := 0
  rxParity := 0
  rxNext := none
  rxEpoch := 0
  rxBytes := 0
  rxFlakes := 0
  syncSeq := 0
  pdelaySeq := 0
  t1 := 0
  t2 := 0
  t3 := 0
  t4 := 0
  prev := none
  delay := 0
  syncRx := none
  syncAt := 0
  pdelayAt := 0
  reported := none
  closed := false
  turn := (0, 0)

def State.tunPort (s : State) (p : Nat) : TunPort := (s.tun.ports.get? p).getD blankTun
def setTun (p : Nat) (f : TunPort → TunPort) : Prog :=
  .act (.tun fun t => { t with ports := t.ports.put p (f ((t.ports.get? p).getD blankTun)) })

/-- Both HELLOs have been exchanged on the port (R224). -/
def State.peerOk (s : State) (p : Nat) : Bool :=
  s.flag .LNK_STATUS_UP p && (s.tunPort p).sent && (s.tunPort p).hello.isSome

/-- TUN detail (R255): byte 0 the port, bytes 4–7 the channel. -/
def tunRec (code p : Nat) (chan : Option Nat := none) : Prog := logRec 0x18 code 2 chan (p + chan.getD 0 * 2 ^ 32)

/-! ### Parcels (R214, R215, R222) -/

/-- Header of a parcel: PTYPE, byte 1, byte 2, HOPS, DCHAN, LEN, CSEQ, OMOMENT. -/
def parcelHeader (ptype flags b2 hops dchan len cseq omoment : Nat) : List Byte :=
  [BitVec.ofNat 8 ptype, BitVec.ofNat 8 flags, BitVec.ofNat 8 b2, BitVec.ofNat 8 hops] ++ leBytes 4 dchan ++ leBytes 2 len ++
    leBytes 2 cseq ++ leBytes 4 omoment

/-- A payload padded with zeros to a multiple of 16 bytes. -/
def padded (bs : List Byte) : List Byte := bs ++ List.replicate (16 * ceilDiv bs.length 16 - bs.length) 0

def isLmp (q : OutParcel) : Bool := fieldOf q.bytes 0 1 == 2

/-- A link management parcel waits ahead of every unit's parcels (R302). -/
def sendLmp (p op token hops : Nat) (body : List Byte) : Prog :=
  let payload : List Byte := [BitVec.ofNat 8 op, 1] ++ leBytes 2 token ++ body
  let x : OutParcel := ⟨false, parcelHeader 2 6 0 hops 0 payload.length 0 0 ++ padded payload, none⟩
  setLink p fun l => { l with queue := l.queue.takeWhile isLmp ++ [x] ++ l.queue.dropWhile isLmp }

/-- A request of ours takes a new TOKEN. -/
def sendRequest (p op : Nat) (body : List Byte) : Prog :=
  .get fun s => .seq (setTun p fun t => { t with token := (t.token + 1) % 2 ^ 16 }) (sendLmp p op (s.tunPort p).token 0 body)

/-! ### HELLO (R223, R224, R245) -/

def notMeasured : Nat := 0x8000_0000

def skewWord : Option Int → Nat
  | some v => enc 32 v
  | none => notMeasured

def sendHello (p : Nat) : Prog :=
  .get fun s =>
    let t := s.tunPort p
    let flags := (if bit (s.raw .SYS_HOLD_CFG_UPSTREAM) p then 1 else 0) + (if s.dev.st == .hold then 2 else 0) + 4 +
      (if s.key.noSession then 0 else 8) + (if s.flag .TUN_CFG_CHAIN_ROOT then 16 else 0)
    .seq (setTun p fun t => { t with sent := true, helloAt := s.clock })
      (sendRequest p 0x01 (leBytes 2 (s.raw .SYS_IDENT_PART) ++
        [BitVec.ofNat 8 (s.raw .SYS_IDENT_REVISION), BitVec.ofNat 8 (s.raw .SYS_STATE_CHAIN_POS), BitVec.ofNat 8 p,
          BitVec.ofNat 8 flags, BitVec.ofNat 8 (s.raw .CHN_GEN_ACTIVE_GEN), 0] ++ leBytes 4 s.tun.bootId ++
        leBytes 4 t.session ++ leBytes 4 (skewWord (s.link p).fwdSkew) ++ leBytes 4 (skewWord (s.link p).revSkew)))

/-- The asymmetry in use on a port in ps and whether it was measured (R245). -/
def State.asym (s : State) (p : Nat) : Int × Bool :=
  let peer := match (s.tunPort p).hello with | some h => h.fwdSkew | none => notMeasured
  match (s.link p).revSkew with
  | some v => if s.flag .LNK_STATUS_REV_READY p && peer != notMeasured then (v - sgn 32 peer, true)
      else (sgn 32 (s.fld .TMB_ASYM_FIX_FIX_PS 0 p), false)
  | none => (sgn 32 (s.fld .TMB_ASYM_FIX_FIX_PS 0 p), false)

/-! ### Establishment (R225, R226) -/

/-- KCV of the key that an entry names; zero for an unsealed channel; none when the key cannot be had. -/
def State.entryKcv (s : State) (e : List Byte) : Option Nat :=
  if !eSealed e then some 0
  else match s.keySlot e with
  | some n => (s.slot n).map fun v => v.kcv
  | none =>
    if eKeyKind e = 0 then none
    else let r := s.openBlob (s.mem.reads (eKeyRef e) 96) false
      if r.1 = 0 then some (kcvOf r.2) else none

/-- EST_REQ for a channel on the port its entry names, once HELLOs are exchanged. -/
def sendEst (c : Nat) : Prog :=
  .get fun s =>
    let e := s.entry c
    let p := eLink e
    .on (decide (p < 6) && s.peerOk p && !(s.tunPort p).closed) (.seq
      (setTun p fun t => { t with est := t.est.put c s.clock })
      (sendRequest p 0x10 (leBytes 4 c ++ leBytes 4 (eRemote e) ++
        [BitVec.ofNat 8 (eType e), if eSealed e then 1 else 0, 0, 0] ++ leBytes 4 ((s.entryKcv e).getD 0))))

/-! ### Shares and allotment (R232 to R241) -/

def State.epoch (s : State) : Nat := s.moment / 2 ^ 16
/-- E1 is later than E2 (R232). -/
def laterEpoch (a b : Nat) : Bool := let d := (a + 2 ^ 32 - b % 2 ^ 32) % 2 ^ 32; decide (1 ≤ d) && decide (d < 2 ^ 31)

/-- One share in 1/256 byte (R233). -/
def shareOf : Nat → Nat
  | 0 => 25598
  | 1 => 12799
  | _ => 6399

/-- Limit of a direction of `n` lanes at a rate (R234). -/
def shareLimit (rate n : Nat) : Nat := if n = 3 ∧ rate = 0 then 5898 else 2048 * n

def State.txLimit (s : State) (p : Nat) : Nat := shareLimit (s.raw .LNK_STATUS_RATE p) (s.txLanes p).length
def State.rxLimit (s : State) (p : Nat) : Nat := shareLimit (s.raw .LNK_STATUS_RATE p) (s.rxLanes p).length

/-- What the channels of a port's transmit direction ask for (R237). -/
def State.wanted (s : State) (p : Nat) : NMap Nat :=
  (s.chans.filter fun c =>
    let e := s.entry c
    eLink e == p && [csArmed, csLive, csHeld].contains (s.chanState c) && eShares e != 0).foldl
      (fun m c => m.put c (eShares (s.entry c))) []

def total (m : NMap Nat) : Nat := m.foldl (fun n e => n + e.2) 0

/-- Start a re-allotment when the wanted allotment differs from the one in force, none is in progress and no lane change is (R237,
R238 step 1, R241). A wanted total above the limit is recorded once until it changes. -/
def allotStart (p : Nat) : Prog :=
  .get fun s =>
    let t := s.tunPort p
    let w := s.wanted p
    .on (s.peerOk p && !t.closed && t.pending.isNone && (s.link p).change.isNone) (
      if w == t.shares then .all [setF .TUN_PORT_STATUS_OVER 0 0 p, setTun p fun t => { t with retry := false }]
      else if s.txLimit p < total w then
        .on (!s.flag .TUN_PORT_STATUS_OVER 0 p) (.all [setF .TUN_PORT_STATUS_OVER 1 0 p, tunRec 0x0004 p])
      else
        let ver := (t.ver + 1) % 256
        let epoch := (s.epoch + s.fld .TUN_CFG_LEAD) % 2 ^ 32
        .all [
          setF .TUN_PORT_STATUS_OVER 0 0 p, setF .TUN_PORT_STATUS_ALLOT_PENDING 1 0 p, setF .TUN_SWITCH_EPOCH_EPOCH epoch 0 p,
          setTun p fun t => { t with ver := ver, retry := false, pending := some ⟨ver, total w, w, epoch, s.clock, false⟩ },
          sendRequest p 0x20 ([BitVec.ofNat 8 ver, BitVec.ofNat 8 (s.raw .LNK_STATUS_PAIRMAP_ACTIVE p)] ++
            leBytes 2 (total w) ++ leBytes 4 epoch)])

/-- The wanted allotment is looked at again on every port. -/
def allotAll : Prog := .each (List.range 6) fun p => .get fun s => .on (!(s.tunPort p).retry) (allotStart p)

/-- A channel has entered a state: establishment where R225 and R226 ask for it, and the allotments (R237). -/
def channelEntered (c : Nat) : Prog :=
  .get fun s => .seq
    (.on ((s.chanState c == csArmed || s.chanState c == csLive) && eLink (s.entry c) != 7) (sendEst c)) allotAll

/-! ### Lane changes asked for by this end (R200, R241) -/

/-- Ask the peer for a map: SWITCH lies at least 128 codewords ahead in the losing direction. -/
def requestMap (p map : Nat) : Prog :=
  .get fun s =>
    let cur := s.raw .LNK_STATUS_PAIRMAP_ACTIVE p
    let lane := if cur = 1 ∨ map = 1 then 3 else 1
    let at_ := ((if (mapTx map).contains lane then s.cwcRx p else s.cwcTx p) + 128) % 2 ^ 32
    .all [setLink p fun l => { l with change := some ⟨map, at_, true, false, none, s.clock⟩ },
      setF .LNK_STATUS_LANE_CHANGE 1 p, sendLaneBlock p 1 map at_]

/-! ### The link comes up (R192, R203, R224, R241) -/

/-- The link comes up after ALIGN: fresh sequences, PAIRMAP 0, a new SESSION, HELLO. -/
def linkUp (p : Nat) : Prog :=
  .get fun s => .all [
    setF .LNK_STATUS_UP 1 p, setF .LNK_STATUS_PAIRMAP_ACTIVE 0 p,
    setLink p fun l => { l with
      phase := .up
      phaseAt := s.clock
      nextSeq := 0
      rxSeq := 0
      rejecting := false
      ackAt := s.clock
      ackSent := s.clock
      idleAt := s.clock },
    refreshPort p, trackHold,
    withSession fun n => setTun p fun _ => { blankTun with session := n, helloAt := s.clock, syncAt := s.clock, pdelayAt := s.clock },
    sendHello p]

/-- What follows an LMP that has just left: times for PDELAY_REQ, PDELAY_FOLLOW after PDELAY_RESP, FOLLOW_UP after SYNC (R244). -/
def sentParcel (p : Nat) (b : List Byte) : Prog :=
  .get fun s =>
    let seq := (b.drop 20).take 2
    let time := leBytes 8 (enc 64 (s.asTime s.moment))
    let v := s.gmVector
    .on (fieldOf b 0 1 == 2) (
      match fieldOf b 16 1 with
      | 0x42 => setTun p fun t => { t with t1 := s.asTime s.moment }
      | 0x43 => sendLmp p 0x44 (fieldOf b 18 2) 0 (seq ++ [0, 0] ++ time)
      | 0x40 => sendRequest p 0x41 (seq ++ [BitVec.ofNat 8 (v.getD 4 0), 0] ++ time ++ leBytes 8 (v.getD 3 0) ++
          [BitVec.ofNat 8 (v.getD 0 0), BitVec.ofNat 8 (v.getD 2 0), BitVec.ofNat 8 (v.getD 1 0)])
      | _ => .skip)

end Sys2Proof.Machine
end

