-- ==== Sys2Proof/Machine/ChannelCmds.lean ====
section
/-! DEFINITION. CHN_CMD (R70, R71, R77, R78). -/
namespace Sys2Proof.Machine

/-! ### CHN_CMD (R70, R71, R77, R78) -/

/-- The state after a command: none when R70 lists no such transition. -/
def cmdTarget (op ty st : Nat) : Option Nat :=
  match op with
  | 1 => if st = csIdle ∧ ty ≠ tyFree then some csArmed else none
  | 2 => if st = csArmed then some csLive else none
  | 3 => if st = csIdle ∨ st = csDraining ∨ csFaulted < st then none else some csDraining
  | 4 => if st = csHeld then some csLive else none
  | 5 => if st = csSealed ∨ st = csFaulted then some csArmed else none
  | 6 => some st
  | _ => none

/-- CHN_CMD_STATUS after a command. -/
def cmdStatus (c result st : Nat) : Prog := .all [
  setF .CHN_CMD_STATUS_RESULT result, setF .CHN_CMD_STATUS_STATE st, setF .CHN_CMD_STATUS_CHANNEL c]

def chnCmd (op chan : Nat) : Prog :=
  .get fun s =>
    let c := chan % 2 ^ 17
    let st := s.chanState c
    .on s.coreAlive (
      if s.raw .CHN_CFG_ENABLE = 0 then cmdStatus c 2 (eState (s.entry c))
      else match cmdTarget op (eType (s.entry c)) st with
      | none => cmdStatus c 2 st
      | some st' => .all [
          .on (op != 6) (setChan c st'),
          .on (op == 1 || op == 2 || op == 5) (channelEntered c),
          .on (op == 3) allotAll,
          .on (op == 5) (store (s.statsAddr c + 20) [0, 0]),
          .on (op == 6) (store (s.statsAddr c) (List.replicate 32 0)),
          cmdStatus c 1 st'])

def execArm (chan : Nat) (s : State) := s.does (chnCmd 1 chan)
def execGo (chan : Nat) (s : State) := s.does (chnCmd 2 chan)
def execDrain (chan : Nat) (s : State) := s.does (chnCmd 3 chan)
def execResume (chan : Nat) (s : State) := s.does (chnCmd 4 chan)
def execClearFault (chan : Nat) (s : State) := s.does (chnCmd 5 chan)
def execClearStats (chan : Nat) (s : State) := s.does (chnCmd 6 chan)

end Sys2Proof.Machine
end

