-- ==== Sys2Proof/Machine/Link.lean ====
section
/-! DEFINITION. The commands of the cable lanes (R171 to R208): parcels and replay, lane control blocks, markers, training,
sleep, lane changes, eye scans. -/
namespace Sys2Proof.Machine

/-! ### Sending (R171 to R173, R183 to R186, R219) -/

/-- Link cost of a parcel in bytes (R214): 32 per block. -/
def linkCost (parcel : List Byte) : Nat := 32 * ceilDiv parcel.length 32

/-- Bytes held in the replay buffer (LNK_REPLAY_FILL). -/
def LnkPort.fill (l : LnkPort) : Nat := l.held.foldl (fun n h => n + linkCost h.bytes) 0

/-- A parcel's trailer (R216) around its link sequence. -/
def closeParcel (body : List Byte) (seq : Nat) (void : Bool) : List Byte :=
  let p := body ++ leBytes 2 seq ++ [if void then 1 else 0, 0]
  p ++ leBytes 4 (crc32 p)

/-- A filler parcel (R219) of one block. -/
def fillerParcel (seq : Nat) : List Byte := closeParcel (List.replicate 16 0) seq false

/-- The direction is awake and some transmit lane is ACTIVE. -/
def State.canSend (s : State) (p : Nat) : Bool :=
  s.flag .LNK_STATUS_UP p && (s.link p).txSleep == 0 && (s.txLanes p).any fun k => s.laneState p k == lnActive

/-- The transmitter starts what waits: a lane control block, else a parcel to be resent, else a new parcel while the buffer
has room, else a filler. -/
def parcelSend (p : Nat) : Prog :=
  .get fun s =>
    let l := s.link p
    .on (s.canSend p) (
      match l.blocks with
      | b :: t => .seq (setLink p fun l => { l with blocks := t }) (emitOut .lcb [p] b)
      | [] =>
        match l.resend.bind fun i => l.held[i]? with
        | some h => .seq
            (setLink p fun l => { l with
              resend := l.resend.bind fun i => if i + 1 < l.held.length then some (i + 1) else none
              idleAt := s.clock })
            (emitOut .parcel [p] h.bytes)
        | none =>
          match l.queue with
          | q :: t =>
            let bytes := closeParcel q.bytes l.nextSeq q.void
            if l.fill + linkCost bytes ≤ 2 ^ 18 then
              .all [
                setLink p fun l => { l with
                  queue := t
                  held := l.held ++ [⟨l.nextSeq, bytes⟩]
                  ackAt := if l.held.isEmpty then s.clock else l.ackAt
                  nextSeq := (l.nextSeq + 1) % 2 ^ 16
                  idleAt := s.clock },
                match q.mark with
                | some m => passPoint (ptLnkTx p) 2 p m fun _ => emitOut .parcel [p] bytes
                | none => withStamp (ptLnkTx p) fun _ => emitOut .parcel [p] bytes,
                sentParcel p q.bytes]
            else emitOut .parcel [p] (fillerParcel l.nextSeq)
          | [] => emitOut .parcel [p] (fillerParcel l.nextSeq))

def execParcelSend (port : Nat) (s : State) := s.does (onPort port (parcelSend port))

/-! ### Receiving (R184, R185) -/

def parcelSeq (b : List Byte) : Nat := leNat ((b.drop (b.length - 8)).take 2)
def parcelVoid (b : List Byte) : Bool := bit (leNat ((b.drop (b.length - 6)).take 1)) 0
def parcelCrcOk (b : List Byte) : Bool := decide (24 ≤ b.length) && crc32 (b.take (b.length - 4)) == leNat (b.drop (b.length - 4))

/-- A received parcel at its line point: selected by its DCHAN, with its CSEQ and OMOMENT (R484). -/
def parcelMark (b : List Byte) : Mark :=
  { blankFlow.mark with
    chan := bits (fieldOf b 4 4) 16 0
    kind := bits (fieldOf b 2 1) 3 0
    key := fieldOf b 12 4
    cseq := fieldOf b 10 2
    origin := some (fieldOf b 12 4) }

/-- An accepted parcel's stamp at the line; the first of a unit passes the point for that unit. -/
def atLine (p : Nat) (b : List Byte) (q : Prog) : Prog :=
  if fieldOf b 0 1 = 1 ∧ bit (fieldOf b 1 1) 1 then passPoint (ptLnkRx p) 1 p (parcelMark b) fun _ => q
  else withStamp (ptLnkRx p) fun _ => q

/-- A filler is checked and discarded without effect (R219). -/
def isFiller (b : List Byte) : Bool := leNat (b.take 1) == 0

def parcelReceive (p : Nat) (b : List Byte) (clean : Bool) : Prog :=
  .get fun s =>
    let l := s.link p
    .on (s.flag .LNK_STATUS_UP p) (.all [
      .on (!clean) (bump .LNK_FEC_UNCORR_CODEWORDS p),
      .on (!isFiller b || !clean) (
        if clean && parcelCrcOk b && parcelSeq b == l.rxSeq then
          atLine p b (.all [
            setLink p fun l => { l with
              rxSeq := (l.rxSeq + 1) % 2 ^ 16
              rejecting := false
              accepted := l.accepted + 1
              inbox := l.inbox ++ [(s.moment, b)] },
            .on (decide (256 ≤ l.accepted + 1)) (sendAck p false l.rxSeq)])
        else .on (!l.rejecting) (.all [
          setLink p fun l => { l with rejecting := true }, sendAck p true ((l.rxSeq + 2 ^ 16 - 1) % 2 ^ 16)]))])

def execParcelReceive (port : Nat) (parcel : List Byte) (clean : Bool) (s : State) :=
  s.does (onPort port (parcelReceive port parcel clean))

/-- While parcels arrive, an ACK at least every 1 µs (R185). -/
def execAckInterval (port : Nat) (s : State) := s.does (onPort port (.get fun s =>
  let l := s.link port
  .on (s.flag .LNK_STATUS_UP port && decide (0 < l.accepted) && decide (l.ackSent + us ≤ s.clock))
    (sendAck port false ((l.rxSeq + 2 ^ 16 - 1) % 2 ^ 16))))

/-! ### Lane control blocks received (R174) -/

/-- Act on a block of the expected kind whose CRC checks, while the link is up. -/
def onBlock (p kind : Nat) (b : List Byte) (q : Prog) : Prog :=
  onPort p (.get fun s => .on (s.flag .LNK_STATUS_UP p && blockOk b && fieldOf b 0 1 == kind) q)

/-- FILLER: discarded. -/
def execFiller (port : Nat) (block : List Byte) (s : State) := s.does (onBlock port 0xF8 block .skip)

/-- Parcels held up to and with a link sequence. -/
def freed (seq : Nat) : List Held → Nat
  | [] => 0
  | h :: t => if h.seq = seq then 1 else match freed seq t with | 0 => 0 | n => n + 1

def execAck (port : Nat) (block : List Byte) (s : State) := s.does (onBlock port 0xF9 block (.get fun s =>
  let n := freed (fieldOf block 2 2) (s.link port).held
  .on (fieldOf block 1 1 % 2 == 0 && decide (0 < n)) (setLink port fun l =>
    { l with
      held := l.held.drop n
      resend := l.resend.bind fun i => if n ≤ i then some (i - n) else if n < l.held.length then some 0 else none
      ackAt := s.clock
      fruitless := 0 })))

/-- Replay of held parcels from a position on (R186). -/
def replayFrom (p i : Nat) (byNak : Bool) : Prog := .get fun s => .all [
  if byNak then bump .LNK_REPLAY_REPLAYS p else bump .LNK_REPLAY_TIMEOUTS p,
  setLink p fun l => { l with
    resend := if i < l.held.length then some i else none
    fruitless := l.fruitless + 1
    ackAt := s.clock }]

def execNak (port : Nat) (block : List Byte) (s : State) := s.does (onBlock port 0xF9 block (.get fun s =>
  .on (fieldOf block 1 1 % 2 == 1) (replayFrom port (freed (fieldOf block 2 2) (s.link port).held) true)))

def execAckTimeout (port : Nat) (s : State) := s.does (onPort port (.get fun s =>
  let l := s.link port
  .on (s.flag .LNK_STATUS_UP port && !l.held.isEmpty &&
      decide (l.ackAt + s.fld .LNK_THRESH_ACK_TIMEOUT_US port * us ≤ s.clock)) (replayFrom port 0 false)))

/-- REPLAY_LIMIT replays that free nothing: a partial retrain of every lane; the buffer is kept (R186). -/
def execLnkReplayLimit (port : Nat) (s : State) := s.does (onPort port (.get fun s =>
  .on (s.flag .LNK_STATUS_UP port && decide (s.fld .LNK_THRESH_REPLAY_LIMIT port ≤ (s.link port).fruitless)) (.all [
    lnkRec port 0x0006 0xFF,
    .each (s.txLanes port) fun k => retrainLane port k,
    .each (s.rxLanes port) fun k => askRetrain port k,
    setLink port fun l => { l with fruitless := 0, resend := if l.held.isEmpty then none else some 0 }])))

/-! ### Sleep (R195 to R197) -/

def execPowerHalf (port : Nat) (block : List Byte) (s : State) := s.does (onBlock port 0xFA block (
  .on (fieldOf block 1 1 == 1) (setLink port fun l => { l with rxEntry := some (1, fieldOf block 4 4) })))
def execPowerDeep (port : Nat) (block : List Byte) (s : State) := s.does (onBlock port 0xFA block (
  .on (fieldOf block 1 1 == 2) (setLink port fun l => { l with rxEntry := some (2, fieldOf block 4 4) })))

def sendPower (p kind : Nat) : Prog := .get fun s =>
  let entry := (s.cwcTx p + 8) % 2 ^ 32
  .all [sendBlock p 3 ([0xFA, BitVec.ofNat 8 kind, 0, 0] ++ leBytes 4 entry),
    setLink p fun l => { l with txEntry := some (kind, entry) }]

/-- A lane change or a retrain is in progress on the port. -/
def State.portBusy (s : State) (p : Nat) : Bool :=
  (s.link p).change.isSome || (List.range 4).any fun k => s.laneState p k == lnRetrain

def execHalfIdleTimeout (port : Nat) (s : State) := s.does (onPort port (.get fun s =>
  let l := s.link port
  let h := s.raw .LNK_PWR_HALF_US port
  .on (s.canSend port && h != 0 && s.raw .LNK_PWR_ALLOW port != 0 && l.held.isEmpty && l.queue.isEmpty && l.txEntry.isNone &&
      !s.portBusy port && decide (l.idleAt + h * us ≤ s.clock)) (sendPower port 1)))

/-- The transmit direction wakes: lanes driven, wake marker, filler; after more than 100 ms deep every lane retrains (R196, R197). -/
def wakeTx (p : Nat) : Prog := .get fun s =>
  let l := s.link p
  .on (l.txSleep != 0) (.all [
    .each (s.txLanes p) fun k =>
      .on (s.laneState p k == lnHalf || s.laneState p k == lnDeep) (.seq (setLane p k lnActive) (sendMarker p k)),
    setLink p fun l => { l with txSleep := 0, txSince := s.clock, txEntry := none, idleAt := s.clock },
    emitOut .parcel [p] (fillerParcel l.nextSeq),
    .on (l.txSleep == 2 && decide (l.txSince + 100 * ms < s.clock)) (.each (s.txLanes p) fun k => retrainLane p k)])

def execDeepIdleTimeout (port : Nat) (s : State) := s.does (onPort port (.get fun s =>
  let l := s.link port
  let d := s.raw .LNK_PWR_DEEP_MS port
  .on (s.flag .LNK_STATUS_UP port && l.txSleep == 1 && d != 0 && s.raw .LNK_PWR_ALLOW port == 2 &&
      decide (l.txSince + d * ms ≤ s.clock)) (.seq (wakeTx port) (sendPower port 2))))

/-- At codeword ENTRY the lanes of a direction sleep. -/
def execSleepEntry (port : Nat) (tx : Bool) (s : State) := s.does (onPort port (.get fun s =>
  let l := s.link port
  let enter (kind : Nat) (lanes : List Nat) : Prog :=
    .each lanes fun k => .on (s.carries port k) (setLane port k (if kind = 2 then lnDeep else lnHalf))
  .on (s.flag .LNK_STATUS_UP port) (
    if tx then
      (match l.txEntry with
        | some (kind, at_) => .on (cwcPast (s.cwcTx port) at_) (.all [enter kind (s.txLanes port),
            setLink port fun l => { l with txSleep := kind, txSince := s.clock, txEntry := none }])
        | none => .skip)
    else
      (match l.rxEntry with
        | some (kind, at_) => .on (cwcPast (s.cwcRx port) at_) (.all [enter kind (s.rxLanes port),
            setLink port fun l => { l with rxSleep := kind, rxSince := s.clock, rxEntry := none }])
        | none => .skip))))

/-- A sleeping direction with something to send wakes (R195). -/
def execDirectionWake (port : Nat) (s : State) := s.does (onPort port (.get fun s =>
  let l := s.link port
  .on (s.flag .LNK_STATUS_UP port && (!l.blocks.isEmpty || !l.queue.isEmpty || l.resend.isSome)) (wakeTx port)))

/-! ### Lane changes (R200 to R202) -/

/-- Lanes 1 and 3 reverse one at a time: the map change is one between 2+2 and a 3+1 map. -/
def oneLane (a b : Nat) : Bool := (a == 0 && (b == 1 || b == 2)) || (b == 0 && (a == 1 || a == 2))
/-- The reversible lane that a change moves: lane 3 towards transmit, lane 1 towards receive. -/
def movedLane (a b : Nat) : Nat := if a = 1 ∨ b = 1 then 3 else 1
/-- This end transmits on the moved lane after the change. -/
def gainsTx (_a b : Nat) (lane : Nat) : Bool := (mapTx b).contains lane

/-- A LNK commit is applied; a new RATES value goes to the peer in an Attention while the mode is entered (R418). -/
def applyLnk (p : Nat) : Prog := .get fun s => .seq (applyCommit (0x10 + p)) (.get fun s' =>
  .on (s'.raw .LNK_CFG_RATES p != s.raw .LNK_CFG_RATES p && [1, 4, 5].contains (s.raw .CBL_PORT_STATUS_MODE p))
    (vdm p 0 6 avrathSvid [s'.ownVdo p]))

/-- A request of ours ends refused (R201): the commit is rejected with COMBO_REJECT. -/
def changeRefused (p : Nat) : Prog := .get fun s => .all [
  setLink p fun l => { l with change := none }, setF .LNK_STATUS_LANE_CHANGE 0 p,
  .on (s.flag .BLK_STATUS_COMMIT_PENDING (0x10 + p)) (rejectCommit (0x10 + p) 3 8), lnkRec p 0x0008 0xFF]

def execLaneReq (port : Nat) (block : List Byte) (s : State) := s.does (onBlock port 0xFB block (.get fun s =>
  let own := match (s.link port).change with | some c => c.own && !c.granted | none => false
  let source := s.flag .CBL_PORT_STATUS_POWER_ROLE port
  let map := complement (fieldOf block 2 1 % 4)
  let at_ := fieldOf block 4 4
  let cur := s.raw .LNK_STATUS_PAIRMAP_ACTIVE port
  .on (fieldOf block 1 1 == 1 && !(own && source)) (.all [
    .on own (changeRefused port),
    .get fun s =>
      if s.flag .LNK_STATUS_REV_READY port && !s.portBusy port && oneLane cur map && !s.split port then .all [
        setLink port fun l => { l with change := some ⟨map, at_, false, true, none, s.clock⟩ },
        setF .LNK_STATUS_LANE_CHANGE 1 port, sendLaneBlock port 2 (fieldOf block 2 1) at_]
      else sendLaneBlock port 3 (fieldOf block 2 1) at_])))

/-- A GRANT completes the commit of the new map (R201 step 2). -/
def execLaneGrant (port : Nat) (block : List Byte) (s : State) := s.does (onBlock port 0xFB block (.get fun s =>
  match (s.link port).change with
  | some c => .on (fieldOf block 1 1 == 2 && c.own && !c.granted && fieldOf block 4 4 == c.switchAt) (.all [
      setLink port fun l => { l with change := some { c with granted := true } },
      .on (s.flag .BLK_STATUS_COMMIT_PENDING (0x10 + port)) (applyLnk port)])
  | none => .skip))

def execLaneRefuse (port : Nat) (block : List Byte) (s : State) := s.does (onBlock port 0xFB block (.get fun s =>
  match (s.link port).change with
  | some c => .on (fieldOf block 1 1 == 3 && c.own && !c.granted) (changeRefused port)
  | none => .skip))

def execLaneChangeTimeout (port : Nat) (s : State) := s.does (onPort port (.get fun s =>
  match (s.link port).change with
  | some c => .on (c.own && !c.granted && decide (c.reqAt + 10 * us ≤ s.clock)) (changeRefused port)
  | none => .skip))

/-- At SWITCH the losing direction stops using the lane: the transmitter stops dealing to it, or the receiver stops expecting it. -/
def execLaneSwitch (port : Nat) (s : State) := s.does (onPort port (.get fun s =>
  match (s.link port).change with
  | some c =>
    let cur := s.raw .LNK_STATUS_PAIRMAP_ACTIVE port
    let k := movedLane cur c.map
    let lost := if gainsTx cur c.map k then s.cwcRx port else s.cwcTx port
    .on (c.granted && c.switched.isNone && cwcPast lost c.switchAt) (.all [
      setLane port k lnRetrain, bump .LNK_TRAINS_PARTIAL port,
      setLink port fun l => { l with change := some { c with switched := some s.clock } }])
  | none => .skip))

/-- 1 µs after SWITCH the gaining transmitter drives the lane and trains it from its stored taps. -/
def execLaneDrive (port : Nat) (s : State) := s.does (onPort port (.get fun s =>
  match (s.link port).change with
  | some c =>
    let k := movedLane (s.raw .LNK_STATUS_PAIRMAP_ACTIVE port) c.map
    .on (gainsTx 0 c.map k && (match c.switched with | some t => decide (t + us ≤ s.clock) | none => false))
      (emitOut .training [port, k, 1])
  | none => .skip))

/-- The moved lane has joined: the new map is in force (R201 step 4). -/
def changeDone (p : Nat) : Prog := .get fun s => match (s.link p).change with
  | some c => .on c.switched.isSome (.all [
      setF .LNK_STATUS_PAIRMAP_ACTIVE c.map p, setF .LNK_STATUS_LANE_CHANGE 0 p,
      setLink p fun l => { l with change := none }, refreshPort p])
  | none => .skip

/-! ### Partial retrains (R198) -/

/-- RETRAIN_REQ: the transmitter takes the lane that the peer receives on out of its direction. -/
def execRetrainReq (port : Nat) (block : List Byte) (s : State) := s.does (onBlock port 0xFB block (
  let k := (fieldOf block 2 1 % 4) ^^^ 2
  .get fun s => .on (fieldOf block 1 1 == 4 && (s.txLanes port).contains k && s.laneState port k != lnFail)
    (.seq (retrainLane port k) (emitOut .training [port, k, 1]))))

/-- JOIN: the lane we receive on rejoins at the named codeword. -/
def execJoin (port : Nat) (block : List Byte) (s : State) := s.does (onBlock port 0xFB block (
  let k := (fieldOf block 2 1 % 4) ^^^ 2
  .on (fieldOf block 1 1 == 5) (setLaneInfo port k fun l => { l with joinAt := some (fieldOf block 4 4) })))

/-- The transmitter has RX_READY for a lane in retrain: JOIN, join marker, filler; the lane carries blocks again (log entry 42). -/
def joinLane (p k : Nat) : Prog := .get fun s => .all [
  sendLaneBlock p 5 k ((s.cwcTx p + 16) % 2 ^ 32), sendMarker p k, setLane p k lnActive, changeDone p]

/-- One tap request of R190 against its limits (R191): the new tap and the answer. -/
def tapStep (req : Nat) (cur other lo hi : Int) : Int × Nat :=
  let next := if req = 1 then cur + 1 else cur - 1
  if lo ≤ next ∧ next ≤ hi ∧ 40 ≤ 64 - (next.natAbs : Int) - other then (next, 1) else (cur, 2)

/-- Control and status received for a transmit lane (R190): requests are answered once each until the requester holds. -/
def trainingWords (p k control status : Nat) : Prog :=
  .get fun s =>
    .on (bits status 23 16 == trainChk control status && decide (bits control 8 6 < 6)) (
      let l := (s.link p).lane k
      let a := s.taps p k
      let abs (i : Int) : Int := i.natAbs
      let answer (n : Nat) := l.answers.getD n 0
      let step (n req : Nat) (cur other lo hi : Int) : Int × Nat :=
        if req = 0 then (cur, 0) else if answer n ≠ 0 ∨ req = 3 then (cur, answer n) else tapStep req cur other lo hi
      let r2 := step 0 (bits control 1 0) a.1 (abs a.2.1 + abs a.2.2) 0 6
      let r1 := step 1 (bits control 3 2) a.2.1 (abs r2.1 + abs a.2.2) (-16) 0
      let rp := step 2 (bits control 5 4) a.2.2 (abs r2.1 + abs r1.1) (-16) 0
      let taps := if bits control 8 6 = 0 then (r2.1, r1.1, 64 - abs r2.1 - abs r1.1 - abs rp.1, rp.1)
        else presetTaps (bits control 8 6)
      .all [
        setTaps p k taps,
        setLaneInfo p k fun l => { l with
          answers := [r2.2, r1.2, rp.2]
          precodeReq := bit control 9
          precodeOn := bit status 7
          revCapable := bit status 11
          ready := if bit status 6 then l.ready + 1 else 0 },
        emitOut .training [p, k, 2, r2.2 + r1.2 * 4 + rp.2 * 16]])

/-- A training frame on a receive lane carries the words for its paired transmit lane (R189). -/
def execTrainingFrame (port lane control status : Nat) (s : State) := s.does (onPort port (.get fun s =>
  .on (lane < 4 && [lnTrain, lnReverse, lnRetrain].contains (s.laneState port lane)) (
    trainingWords port (lane ^^^ 2) control status)))

/-- TRAIN_CTL carries the same words during a partial retrain; RX_READY lets the lane join (R198). -/
def execTrainCtl (port : Nat) (block : List Byte) (s : State) := s.does (onBlock port 0xFC block (
  let k := (fieldOf block 1 1 % 4) ^^^ 2
  .get fun s => .on (s.laneState port k == lnRetrain) (.all [
    trainingWords port k (fieldOf block 2 2) (fieldOf block 4 3),
    .get fun s => .on (decide (0 < ((s.link port).lane k).ready)) (joinLane port k)])))

def execRetrainTimeout (port lane : Nat) (s : State) := s.does (onPort port (.get fun s =>
  .on (s.laneState port lane == lnRetrain && decide (((s.link port).lane lane).since + 80 * us ≤ s.clock)) (failLane port lane)))

/-! ### Markers (R180 to R182, R202) -/

/-- A marker is valid: bytes 0 to 3, the complement, the CRC. -/
def markerValid (b : List Byte) : Bool :=
  b.take 4 == [0xFF, 0x4D, 0x72, 0xB5] && (b.drop 14).take 14 == (b.take 14).map (fun x => ~~~x) && blockOk b

/-- The maps of the two ends do not complement each other: 2+2 again with the buffer kept, then LNK_CFG.PAIRMAP (R202). -/
def mapMismatch (p : Nat) : Prog := .get fun s => .all [
  setF .LNK_STATUS_PAIRMAP_ACTIVE 0 p, setLink p fun l => { l with change := none }, setF .LNK_STATUS_LANE_CHANGE 0 p,
  .each (s.txLanes p) fun k => retrainLane p k, .each (s.rxLanes p) fun k => askRetrain p k,
  .on (s.raw .LNK_CFG_PAIRMAP p != 0) (setLink p fun l => { l with change := none })]

def markerReceive (p k : Nat) (b : List Byte) : Prog :=
  .get fun s =>
    let l := s.link p
    let lane := l.lane k
    let cwc := fieldOf b 6 4
    let st := s.laneState p k
    if markerValid b then .all [
      setF .LNK_CWC_RX_CWC cwc p,
      setLink p fun l => { l with rxCwc := cwc, rxCwcAt := s.clock },
      setLaneInfo p k fun x => { x with
        bad := 0
        first := if st = lnAlign ∧ !x.locked then some cwc else x.first
        locked := x.locked || (st == lnAlign && lane.first == some ((cwc + 2 ^ 32 - 1024) % 2 ^ 32)) },
      .on (bit (fieldOf b 4 1) 6) (.all [
        .on (st == lnHalf || st == lnDeep) (.all [
          .on (st == lnDeep && decide (lane.since + 100 * ms < s.clock)) (askRetrain p k),
          .on (!(st == lnDeep && decide (lane.since + 100 * ms < s.clock))) (setLane p k lnActive),
          setLink p fun l => { l with rxSleep := 0, rxSince := s.clock }]),
        .on (st == lnRetrain && (match lane.joinAt with | some c => cwcPast cwc c | none => false))
          (.all [setLane p k lnActive, setLaneInfo p k fun x => { x with locked := true, joinAt := none }, changeDone p])]),
      .on (s.flag .LNK_STATUS_UP p && l.change.isNone && st == lnActive &&
          bits (fieldOf b 5 1) 4 3 != complement (s.raw .LNK_STATUS_PAIRMAP_ACTIVE p)) (mapMismatch p)]
    else setLaneInfo p k fun x => { x with bad := x.bad + 1 }

def execMarker (port lane : Nat) (block : List Byte) (s : State) := s.does (onPort port (.get fun s =>
  .on (decide (lane < 4) && (s.rxLanes port).contains lane || (s.link port).change.isSome) (markerReceive port lane block)))

def execLnkLockLost (port lane : Nat) (s : State) := s.does (onPort port (.get fun s =>
  .on (s.carries port lane && (s.rxLanes port).contains lane && decide (4 ≤ ((s.link port).lane lane).bad))
    (.seq (lnkRec port 0x0003 lane) (askRetrain port lane))))

/-! ### Training phases (R192, R193) -/

/-- Start ALIGN: codewords with markers from CWC 0; precoding by PRECODE and the requests (R192, R180). -/
def startAlign (p : Nat) : Prog := .get fun s =>
  let l := s.link p
  let use := (s.trainLanes p).filter fun k => s.laneState p k != lnFail
  let cfg := s.raw .LNK_CFG_PRECODE p
  let on (k : Nat) : Bool := s.raw .LNK_STATUS_RATE p != 2 && (cfg == 2 || (cfg == 0 && (l.lane k).precodeReq))
  .all [
    setLanes p use lnAlign, enterPhase p .align,
    setF .LNK_STATUS_PRECODE_TX (maskOf ((s.txLanes p).filter on)) p,
    setF .LNK_STATUS_PRECODE_RX (maskOf ((s.rxLanes p).filter fun k => (l.lane (k ^^^ 2)).precodeOn)) p,
    setLink p fun l => { l with cwc := 0, cwcAt := s.clock, rxCwc := 0, rxCwcAt := s.clock }]

def execDetectComplete (port : Nat) (s : State) := s.does (onPort port (.get fun s =>
  .on ((s.link port).phase == .detect && decide ((s.link port).phaseAt + 10 * us ≤ s.clock)) (.all [
    setLanes port (s.trainLanes port) lnTrain, .each (s.trainLanes port) fun k => setTaps port k (presetTaps 3),
    enterPhase port .train, emitOut .training [port, s.raw .LNK_STATUS_RATE port, 1]])))

/-- Lanes of an attempt that trained: this end's RX_READY is set on them (`own`) and theirs came in three consecutive frames. -/
def State.trained (s : State) (p own k : Nat) : Bool := bit own (k ^^^ 2) && decide (3 ≤ ((s.link p).lane k).ready)

/-- TRAIN ends (R192): lanes 0 and 2, and 1 and 3 unless they have failed; REVERSE follows where both ends offer it. -/
def execTrainComplete (port own : Nat) (s : State) := s.does (onPort port (.get fun s =>
  let l := s.link port
  let need := (s.trainLanes port).filter fun k => s.laneState port k != lnFail
  let rev := s.flag .LNK_CFG_REVERSIBLE port && s.raw .LNK_STATUS_RATE port != 2 && !s.split port &&
    need.length == 4 && (l.lane 0).revCapable
  .on (l.phase == .train && need.all fun k => s.trained port own k || s.trained port own (k ^^^ 2)) (.all [
    .each need fun k => setLaneInfo port k fun x => { x with fails := 0, ready := 0 },
    if rev then .all [setLanes port [1, 3] lnReverse, enterPhase port .reverse] else startAlign port])))

def execReverseComplete (port : Nat) (skew : Option Int) (s : State) := s.does (onPort port (.get fun s =>
  .on ((s.link port).phase == .reverse) (.all [
    setF .LNK_STATUS_REV_READY 1 port, setLink port fun l => { l with revSkew := skew }, startAlign port])))

/-- ALIGN ends: lanes locked and deskewed are ACTIVE; one beyond the skew limit is left out (R182, R192). -/
def execAlignComplete (port : Nat) (skew : Option Int) (skewed : Nat) (s : State) := s.does (onPort port (.get fun s =>
  let use := (s.trainLanes port).filter fun k => s.laneState port k == lnAlign
  let out := (s.rxLanes port).filter fun k => bit skewed k
  let locked := (s.rxLanes port).all fun k => ((s.link port).lane k).locked || bit skewed k || s.laneState port k == lnFail
  .on ((s.link port).phase == .align && locked && out.length < (s.rxLanes port).length) (.all [
    .each use fun k => setLane port k (if out.contains k then lnFail else lnActive),
    .each out fun k => .all [lnkRec port 0x000A k, setF .LNK_STATUS_DEGRADED 1 port],
    setLink port fun l => { l with fwdSkew := if out.isEmpty then skew else none, attempts := 0 }, linkUp port])))

/-- A phase passes its limit (R192, R193). `good` marks the lanes that trained in TRAIN. -/
def execTrainPhaseTimeout (port good : Nat) (s : State) := s.does (onPort port (.get fun s =>
  let l := s.link port
  let past (t : Nat) : Bool := decide (l.phaseAt + t ≤ s.clock)
  let train := s.fld .LNK_THRESH_TRAIN_MS port * ms
  let bad := [1, 3].filter fun k => (s.trainLanes port).contains k && !bit good k && s.laneState port k != lnFail
  match l.phase with
  | .detect => .on (past (100 * ms)) (failAttempt port)
  | .align => .on (past ms) (failAttempt port)
  | .reverse => .on (past train) (.seq (setF .LNK_STATUS_REV_READY 0 port) (startAlign port))
  | .train => .on (past train) (
      if bit good 0 && bit good 2 && !bad.isEmpty && bad.all fun k => decide (1 ≤ (l.lane k).fails) then .all [
        .each bad fun k => failLane port k, startAlign port]
      else .all [
        .on (bit good 0 && bit good 2) (.each bad fun k => setLaneInfo port k fun x => { x with fails := x.fails + 1 }),
        .on (!(bit good 0 && bit good 2)) (.each [1, 3] fun k => setLaneInfo port k fun x => { x with fails := 0 }),
        failAttempt port])
  | _ => .skip))

/-! ### Eye (R206 to R208), loss of the link (R203) -/

/-- Every 1 ms: heights of the receive lanes; three below the minimum in a row start a retrain (R198). -/
def execEyeMonUpdate (port : Nat) (heights : List Nat) (s : State) := s.does (onPort port (.get fun s =>
  .on (decide ((s.link port).eyeAt + ms ≤ s.clock)) (.all [
    setLink port fun l => { l with eyeAt := s.clock },
    .each ((s.rxLanes port).filter fun k => s.carries port k) fun k =>
      let h := min 255 (heights.getD k 0)
      let low := decide (h < s.fld .LNK_THRESH_EYE_MIN_MV port)
      let n := if low then ((s.link port).lane k).low + 1 else 0
      .all [setF .LNK_EYE_MON_HEIGHT h port k, setLaneInfo port k fun x => { x with low := if 3 ≤ n then 0 else n },
        .on (decide (3 ≤ n)) (.seq (lnkRec port 0x0009 k) (askRetrain port k))]])))

/-- The link falls (R203): ENABLE is 0, the mode is left, or a direction has carried nothing for 200 µs. -/
def execLnkDown (port : Nat) (s : State) := s.does (onPort port (.get fun s =>
  let dead := match (s.link port).deadAt with | some t => decide (t + 200 * us ≤ s.clock) | none => false
  .on (s.flag .LNK_STATUS_UP port && (!s.flag .LNK_CFG_ENABLE port || !s.avrath port || dead)) (linkDown port)))

/-- A write to LNK_SLIP (R206); whether the checker is aligned afterwards is a free value (log entry 2). -/
def slip (p k : Nat) : Prog := .all [
  setLaneInfo p k fun l => { l with slips := l.slips + 1 }, withFree 2 fun v => setF .LNK_PRBS_ERR_LOCKED v p k]

def execSlip (port lane : Nat) (s : State) := s.does (onPort port (slip port (lane % 4)))

/-- Eyes that EYE selects: 0 lower, 1 middle, 2 upper, 3 all. -/
def eyesOf (eye : Nat) : List Nat := if eye = 3 then [0, 1, 2] else [eye]

/-- START of an eye scan; ignored while BUSY (R207). -/
def eyeStart (p : Nat) : Prog := .get fun s =>
  .on (!s.flag .LNK_EYE_CTRL_BUSY p) (.all [
    setF .LNK_EYE_CTRL_BUSY 1 p, .each (eyesOf (s.raw .LNK_EYE_CTRL_EYE p)) fun e => setF .LNK_EYE_RESULT_VALID 0 p e])

def execEyeScanStart (port : Nat) (s : State) := s.does (onPort port (eyeStart port))

/-- The scan ends; VALID only if its lane stayed in ACTIVE or RAW. -/
def execEyeScanComplete (port : Nat) (heights widths : List Nat) (s : State) := s.does (onPort port (.get fun s =>
  let k := s.raw .LNK_EYE_CTRL_LANE port
  let ok := s.laneState port k == lnActive || s.laneState port k == lnRaw
  .on (s.flag .LNK_EYE_CTRL_BUSY port) (.all [
    setF .LNK_EYE_CTRL_BUSY 0 port,
    .each (eyesOf (s.raw .LNK_EYE_CTRL_EYE port)) fun e => .all [
      setF .LNK_EYE_RESULT_HEIGHT_MV (min 4095 (heights.getD e 0)) port e,
      setF .LNK_EYE_RESULT_WIDTH (min 255 (widths.getD e 0)) port e,
      setB .LNK_EYE_RESULT_VALID ok port e]])))

end Sys2Proof.Machine
end

