-- ==== Sys2Proof/Machine/Tunnel.lean ====
section
/-! DEFINITION. Tunnels (R217 to R251): units in parcels both ways, link management parcels received, allotment, time over the
link, leaving hold-over. -/
namespace Sys2Proof.Machine

/-! ### Keys for parcels (R228, R229, R445, R449) -/

/-- Pipes of a port that are in service (R228, R466). -/
def State.pipes (s : State) (p : Nat) : Nat := ((List.range 4).filter fun i => !s.key.pipesOut.contains (4 * p + i)).length

/-- A channel waits for its blob to be loaded into the pool (R449). -/
def waitPool (c : Nat) (e : List Byte) : Prog := .get fun s =>
  .on (!(s.key.poolWaits.any fun w => w.1 == c)) (.act (.key fun k => { k with poolWaits := k.poolWaits ++ [(c, eKeyRef e, s.clock)] }))

/-- A key the seal pipes refuse moves its channel to SEALED (R450). -/
def refuseKey (c slot : Nat) : Prog := .get fun s => .all [
  .on (s.chanState c == csLive || s.chanState c == csHeld) (setChan c csSealed),
  logRec 0x58 0x000C 2 (some c) (keyDetail (match s.slot slot with | some v => v.node | none => 0) slot c)]

/-- The 12-byte IV (R229): sender's position and port, its SESSION, IVC big-endian. -/
def sealIv (pos port session ivc : Nat) : List Byte :=
  [BitVec.ofNat 8 (pos % 8 + port % 8 * 8)] ++ leBytes 3 session ++ (leBytes 8 ivc).reverse

/-! ### Units leaving in parcels (R217, R229, R235, R248, R270) -/

/-- The part of a unit that parcel `i` carries, and whether it is the last. -/
def fragment (bs : List Byte) (whole : Bool) (i : Nat) : Option (List Byte × Bool) :=
  let rest := bs.drop (2048 * i)
  if whole then (if i = 0 ∨ !rest.isEmpty then some (rest.take 2048, decide (rest.length ≤ 2048)) else some ([], true))
  else if 2048 ≤ rest.length then some (rest.take 2048, false) else none

/-- Link cost of a payload (R214). -/
def payloadCost (n : Nat) (sealed : Bool) : Nat := 32 * ceilDiv (24 + 16 * ceilDiv n 16 + (if sealed then 24 else 0)) 32

def Flow.mustSeal (f : Flow) : Bool := eSealed f.entry || f.sealReq

/-- Set what the queue keeps of the unit at the head of a slot. -/
def setHead (q : Nat) (f : Queued → Queued) : Prog := setQueue q fun l => match l with | [] => [] | x :: t => f x :: t

/-- The next parcel of the head unit of slot `q` on port `p` waits to be sent: RSV while the channel's credit lasts, sealed
where it must be. -/
def sendFragment (p q : Nat) (x : Queued) (f : Flow) (payload : List Byte) (last rsv : Bool) : Prog :=
  .get fun s =>
    let t := s.tunPort p
    let sealed := f.mustSeal
    let flags := (if sealed then 1 else 0) + (if x.sent = 0 then 2 else 0) + (if last then 4 else 0) + (if rsv then 8 else 0) +
      (if (s.raw .TUN_PORT_STATUS_ALLOT_VER 0 p) % 2 = 1 then 16 else 0)
    let hops := match f.hops with | some h => h - 1 | none => 3
    let key := f.origin.getD (f.stampMoment % 2 ^ 32)
    let cseq := if x.sent = 0 then (s.tun.cseq.get? f.chan).getD 0 else x.cseq
    let header := parcelHeader 1 flags (f.kind % 16 + (x.sent % 16) * 16) hops (eRemote f.entry) payload.length cseq key
    let slot := (s.keySlot f.entry).getD 0
    let ivc := (t.ivcTx.get? slot).getD 0
    let sealedBody :=
      let r := Config.gcmSeal (match s.slot slot with | some v => v.key | none => [])
        (sealIv (s.raw .SYS_STATE_CHAIN_POS) p t.session ivc) header (padded payload)
      leBytes 8 ivc ++ sized (padded payload).length r.1 ++ sized 16 r.2
    let body := if sealed then sealedBody else padded payload
    .all [
      setHead q fun y => { y with started := true, sent := x.sent + 1, cseq := cseq, ended := last },
      .on (x.sent == 0) (.act (.tun fun t => { t with cseq := t.cseq.put f.chan ((cseq + 1) % 2 ^ 16) })),
      .on sealed (.seq (setTun p fun t => { t with ivcTx := t.ivcTx.put slot (ivc + 1) })
        (.act (.key fun k => { k with slots := k.slots.upd slot fun v => { v with used := k.useCount }, useCount := k.useCount + 1 }))),
      .on rsv (setTun p fun t => { t with credit := t.credit.put f.chan ((t.credit.get? f.chan).getD 0 -
        (256 * payloadCost payload.length sealed : Nat)) }),
      setLink p fun l => { l with queue := l.queue ++ [⟨f.bad, header ++ body,
        if x.sent = 0 then some { f.mark with key := key, cseq := cseq } else none⟩] }]

/-- Why the head unit of a slot may not leave on port `p` as it is: 1 no HOPS left, 2 its channel is SEALED or its seal is not to
be had, 3 too long, 4 the link carries no tunnels; 0 when it may; 5 while its key is being loaded. -/
def State.leaveCheck (s : State) (p : Nat) (f : Flow) : Nat :=
  if f.hops = some 0 then 1
  else if 32768 < f.leaving.length then 3
  else if (s.tunPort p).closed then 4
  else if f.mustSeal then
    if s.chanState f.chan = csSealed ∨ s.key.noSession ∨ s.pipes p = 0 then 2
    else match s.keySlot f.entry with
    | some n => if s.maySeal n then 0 else 2
    | none => if eKeyKind f.entry = 1 ∧ !s.keyOrphaned f.entry then 5 else 2
  else 0

/-! ### DATA parcels received (R218, R220, R221, R240) -/

def hBad (b : List Byte) : Bool :=
  (fieldOf b 0 1 != 1) || bits (fieldOf b 1 1) 7 5 != 0 || bits (fieldOf b 3 1) 7 2 != 0 || bits (fieldOf b 4 4) 31 17 != 0 ||
  bits (fieldOf b 8 2) 15 12 != 0 || decide (2048 < fieldOf b 8 2) || decide (5 < fieldOf b 2 1 % 16)

/-- RSV as the parcel is judged: cleared when it would take the epoch's count above the allotment (R240). -/
def judgeRsv (p : Nat) (b : List Byte) (go : Bool → Prog) : Prog :=
  .get fun s =>
    let av := bits (fieldOf b 1 1) 4 4
    .seq (setTun p fun t =>
        let t := match t.rxNext with
          | some (n, par, _) => if par = av then { t with rxTotal := n, rxParity := av, rxNext := none } else t
          | none => t
        if t.rxEpoch = s.epoch then t else { t with rxEpoch := s.epoch, rxBytes := 0, rxFlakes := 0 })
      (.get fun s =>
        let t := s.tunPort p
        let cost := linkCost b
        let flakes := max 1 (ceilDiv (fieldOf b 8 2) 128)
        let beyond := t.rxTotal * shareOf (s.raw .LNK_STATUS_RATE p) + 256 * s.fld .TUN_RSV_SLACK_BYTES < 256 * (t.rxBytes + cost) ∨
          4608 + s.fld .TUN_RSV_SLACK_FLAKES < t.rxFlakes + flakes
        .all [
          setF .TUN_RESV_RX_TOTAL t.rxTotal 0 p, .on t.rxNext.isNone (setF .TUN_RESV_RX_NEXT 0 0 p),
          if !bit (fieldOf b 1 1) 3 then go false
          else if beyond then .all [bump .TUN_RSV_EXCESS_PARCELS 0 p,
            logLim 0x18 0x000D 2 p ms none (p + bits (fieldOf b 4 4) 16 0 * 2 ^ 32), go false]
          else .seq (setTun p fun t => { t with rxBytes := t.rxBytes + cost, rxFlakes := t.rxFlakes + flakes }) (go true)])

/-- Drop the unit that the parcel belongs to: a part already passed on is marked bad at its tail, what is still to come is
discarded. -/
def dropPart (p : Nat) (b : List Byte) : Prog :=
  .get fun s =>
    let d := bits (fieldOf b 4 4) 16 0
    let last := bit (fieldOf b 1 1) 2
    .all [
      match (s.tunPort p).parts.get? d with
      | some ⟨some u, _⟩ => .seq (markBad u) (setUnit u fun f => { f with whole := true })
      | _ => .skip,
      setTun p fun t => { t with parts := if last then t.parts.del d else t.parts.put d ⟨none, bits (fieldOf b 2 1) 7 4 + 1⟩ }]

/-- More bytes of a unit in hand arrive. -/
def growUnit (u : Nat) (bs : List Byte) (last void : Bool) : Prog :=
  .get fun s => match s.sal.units.get? u with
  | none => .skip
  | some f =>
    let more := ceilDiv (f.bytes.length + bs.length) 128 - f.flakes
    let fits := decide (more ≤ s.panFree)
    .all [
      setUnit u fun f => { f with bytes := if fits then f.bytes ++ bs else f.bytes, whole := f.whole || last },
      .on (void || !fits) (markBad u),
      match f.place with
      | .queued q => .on fits (setQueue q fun l => l.map fun x => if x.unit == u then { x with flakes := x.flakes + more } else x)
      | _ => .skip]

/-- Checks 3 to 6 passed: the payload goes on to berth ingress, as a new unit or as more of one (R218). -/
def acceptPart (p line : Nat) (b payload : List Byte) (sealed rsv : Bool) : Prog :=
  .get fun s =>
    let d := bits (fieldOf b 4 4) 16 0
    let first := bit (fieldOf b 1 1) 1
    let last := bit (fieldOf b 1 1) 2
    let void := parcelVoid b
    let next := bits (fieldOf b 2 1) 7 4 + 1
    if first then .seq
      (ingress {
        group := p
        port := 0
        chan := d
        kind := fieldOf b 2 1 % 16
        bytes := payload
        length := payload.length
        whole := last
        bad := void
        opened := sealed
        rsv := rsv
        link := some (fieldOf b 3 1 % 4, fieldOf b 10 2, fieldOf b 12 4)
        passed := [(ptLnkRx p, line)] })
      (.get fun s' => .on (!last) (setTun p fun t => { t with
        parts := t.parts.put d ⟨if s.sal.nextUnit < s'.sal.nextUnit then some s.sal.nextUnit else none, next⟩ }))
    else .all [
      match (s.tunPort p).parts.get? d with
      | some ⟨some u, _⟩ => growUnit u payload last void
      | _ => .skip,
      setTun p fun t => { t with parts := if last then t.parts.del d else t.parts.upd d fun x => { x with next := next } }]

/-- Checks 4 to 6 of R220: SEALED, IVC, the tag. -/
def openPart (p line : Nat) (b : List Byte) (rsv : Bool) : Prog :=
  .get fun s =>
    let d := bits (fieldOf b 4 4) 16 0
    let e := s.entry d
    let t := s.tunPort p
    let len := fieldOf b 8 2
    let g := 16 * ceilDiv len 16
    if !bit (fieldOf b 1 1) 0 then acceptPart p line b ((b.drop 16).take len) false rsv
    else match s.keySlot e with
    | none => .seq (countDrop d) (dropPart p b)
    | some n =>
      let ivc := fieldOf b 16 8
      let stale := match t.ivcRx.get? n with | some v => decide (ivc ≤ v) | none => false
      if !s.maySeal n then .all [countDrop d, dropPart p b, refuseKey d n]
      else if s.flag .TUN_SEAL_CFG_IVC_CHECK && stale then .all [countDrop d, dropPart p b, tunRec 0x0007 p (some d)]
      else
        let hello := t.hello.getD ⟨0, 0, 0, 0, 0, 0, 0, 0⟩
        match Config.gcmOpen (match s.slot n with | some v => v.key | none => [])
            (sealIv hello.pos hello.port hello.session ivc) (b.take 16) ((b.drop 24).take g) ((b.drop (24 + g)).take 16) with
        | none => .all [countDrop d, dropPart p b, bump .TUN_TAG_FAIL_UNITS 0 p, logLim 0x18 0x0005 2 p ms (some d) (p + d * 2 ^ 32)]
        | some plain => .all [
            setTun p fun t => { t with ivcRx := t.ivcRx.put n ivc },
            .act (.key fun k => { k with slots := k.slots.upd n fun v => { v with used := k.useCount }, useCount := k.useCount + 1 }),
            acceptPart p line b (sized len plain) true rsv]

/-- The checks of R220 in order. -/
def dataParcel (p line : Nat) (b : List Byte) : Prog :=
  .get fun s =>
    let d := bits (fieldOf b 4 4) 16 0
    let frag := bits (fieldOf b 2 1) 7 4
    let first := bit (fieldOf b 1 1) 1
    let last := bit (fieldOf b 1 1) 2
    let sealed := bit (fieldOf b 1 1) 0
    let part := (s.tunPort p).parts.get? d
    let inHand := match part with | some x => x.unit.isSome | none => false
    let order := if first then frag == 0 && !inHand else (match part with | some x => x.next == frag | none => false)
    if hBad b then tunRec 0x0008 p (some d)
    else if !order || (!last && fieldOf b 8 2 != 2048) then .seq (dropPart p b) (tunRec 0x0009 p (some d))
    else if !first && !inHand then dropPart p b
    else judgeRsv p b fun rsv => .get fun s =>
      if first ∧ s.chanState d ≠ csLive then .seq (countDrop d) (dropPart p b)
      else if sealed != eSealed (s.entry d) then .all [countDrop d, dropPart p b, tunRec 0x0006 p (some d)]
      else if sealed && s.key.noSession then .seq (countDrop d) (dropPart p b)
      else openPart p line b rsv

/-- Take the parcel at the front of the inbox. -/
def popInbox (p : Nat) : Prog := setLink p fun l => { l with inbox := l.inbox.tail }

/-- A parcel of an established peer is at the front of the inbox. -/
def onInbox (p : Nat) (k : Nat → List Byte → Prog) : Prog :=
  onPort p (.get fun s => match (s.link p).inbox with
    | [] => .skip
    | (line, b) :: _ => k line b)

/-- A sealed parcel whose key is still being loaded waits at the seal pipe (R449). -/
def State.partWaits (s : State) (b : List Byte) : Bool :=
  let e := s.entry (bits (fieldOf b 4 4) 16 0)
  bit (fieldOf b 1 1) 0 && !hBad b && eSealed e && eKeyKind e == 1 && (s.keySlot e).isNone &&
    s.chanState (bits (fieldOf b 4 4) 16 0) == csLive && !s.key.noSession

def execDataParcel (port : Nat) (s : State) := s.does (onInbox port fun line b => .get fun s =>
  let c := bits (fieldOf b 4 4) 16 0
  .on (fieldOf b 0 1 != 2) (
    if s.partWaits b then waitPool c (s.entry c)
    else .all [popInbox port, .on (s.flowing && s.peerOk port && !(s.tunPort port).closed) (dataParcel port line b)]))

/-- A filler parcel: its CRC is checked and it is discarded, either way without effect (R219). -/
def execFillerParcel (port : Nat) (parcel : List Byte) (s : State) :=
  s.does (onPort port (.on (isFiller parcel && parcelCrcOk parcel) .skip))

/-! ### Link management parcels received (R222) -/

def lmpOps : List Nat := [0x01, 0x10, 0x11, 0x12, 0x20, 0x21, 0x22, 0x30, 0x31, 0x40, 0x41, 0x42, 0x43, 0x44, 0x50]

/-- The header fields and OP and VERSION are as R222 asks. -/
def lmpOk (b : List Byte) : Bool :=
  fieldOf b 1 1 == 6 && fieldOf b 2 1 == 0 && (if fieldOf b 16 1 = 0x50 then bits (fieldOf b 3 1) 7 2 == 0 else fieldOf b 3 1 == 0) &&
  fieldOf b 4 4 == 0 && fieldOf b 10 2 == 0 && fieldOf b 12 4 == 0 && decide (fieldOf b 8 2 ≤ 2048) &&
  lmpOps.contains (fieldOf b 16 1) && fieldOf b 17 1 == 1

/-- The LMP at the front of the inbox, when it is of one kind; one that is malformed is discarded and recorded. Before the peer's
HELLO only a HELLO has effect. -/
def onLmp (p op : Nat) (k : Nat → List Byte → Nat → Prog) : Prog :=
  onInbox p fun line b => .get fun s =>
    .on (fieldOf b 0 1 == 2) (
      if !lmpOk b then .seq (popInbox p) (tunRec 0x0008 p)
      else .on (fieldOf b 16 1 == op) (.seq (popInbox p)
        (.on (op == 1 || s.peerOk p) (k line ((b.drop 16).take (fieldOf b 8 2)) (fieldOf b 18 2)))))

/-! ### HELLO (R224, R245, R247, R249) -/

def setBitF (r : RegId) (i : Nat) (v : Bool) : Prog := .get fun s =>
  let n := s.raw r
  setF r (if v then (if bit n i then n else n + 2 ^ i) else if bit n i then n - 2 ^ i else n)

/-- The position that a peer's HELLO gives, and whether the link may carry tunnels (R247). -/
def chainStep (p : Nat) (h : Hello) : Prog :=
  .get fun s =>
    let up := bit (s.raw .SYS_HOLD_CFG_UPSTREAM) p
    let peerUp := bit h.flags 0
    let second := (List.range 6).any fun q => q != p && !bit (s.raw .SYS_HOLD_CFG_UPSTREAM) q && s.peerOk q && !(s.tunPort q).closed
    let closed := (up && peerUp) || (up && h.pos == 4) || (!up && second)
    .all [
      setTun p fun t => { t with closed := closed },
      .on closed (tunRec 0x000B p),
      .on (up && !closed && decide (h.pos < 4)) (setF .SYS_STATE_CHAIN_POS (if s.flag .TUN_CFG_CHAIN_ROOT then 0 else h.pos + 1))]

/-- Every HELD channel of the hub moves to LIVE. -/
def resumeAll : Prog := .get fun s => .each (s.chans.filter fun c => s.chanState c == csHeld) fun c => setChan c csLive

/-- A HOLD_REPORT record (R223). -/
def reportRecord (s : State) (c : Nat) : List Byte :=
  let e := s.entry c
  leBytes 8 (c + eRemote e * 2 ^ 17 + eGen e * 2 ^ 34 + s.chanState c * 2 ^ 42 + (if eHold e then 2 ^ 46 else 0))

def chunks {α : Type} (n : Nat) : Nat → List α → List (List α)
  | 0, _ => []
  | k + 1, l => if l.length ≤ n then [l] else l.take n :: chunks n k (l.drop n)

/-- HOLD_REPORT parcels in channel order (R249 step 1). -/
def holdReport (p : Nat) : Prog :=
  .get fun s =>
    let cs := sortBy id (s.chans.filter fun c =>
      let st := s.chanState c
      st == csHeld || (st == csLive && eLink (s.entry c) == p))
    let parts := chunks 255 (cs.length / 255 + 1) cs
    .all [
      setTun p fun t => { t with reported := some (s.raw .CHN_GEN_ACTIVE_GEN) },
      .each (parts.zip (List.range parts.length)) fun x =>
        sendRequest p 0x30 (leBytes 2 x.1.length ++ [if x.2 + 1 = parts.length then 1 else 0, BitVec.ofNat 8 (s.raw .CHN_GEN_ACTIVE_GEN)] ++
          (x.1.map (reportRecord s)).flatten)]

/-- Leave hold-over over a port, or act at once as if ALL and END had come (R249). -/
def beginResume (p : Nat) (h : Hello) : Prog :=
  .get fun s =>
    .on (s.dev.st == .hold && bit (s.raw .SYS_HOLD_CFG_UPSTREAM) p) (
      if !bit h.flags 2 || s.flag .TUN_CFG_AUTO_RESUME then .seq resumeAll holdExit else holdReport p)

def helloReceived (p : Nat) (b : List Byte) : Prog :=
  let h : Hello := ⟨fieldOf b 7 1, fieldOf b 9 1, fieldOf b 10 1, fieldOf b 12 4, fieldOf b 16 3, fieldOf b 20 4, fieldOf b 24 4,
    fieldOf b 8 1 % 8⟩
  .all [
    setTun p fun t => { t with hello := some h },
    setBitF .TUN_STATUS_PEER_OK p true, setBitF .TUN_STATUS_HOLD_WAIT p (bit h.flags 1),
    setF .TUN_PORT_STATUS_PEER_POS (h.pos % 8) 0 p, setF .TUN_PORT_STATUS_PEER_VALID 1 0 p,
    setB .TUN_PORT_STATUS_PEER_HOLD (bit h.flags 1) 0 p, setF .TUN_PEER_BOOT_BOOT_ID h.bootId 0 p,
    chainStep p h,
    .get fun s =>
      let map := s.raw .LNK_CFG_PAIRMAP p
      .on (s.flag .LNK_STATUS_REV_READY p && map != 0 && (s.link p).change.isNone &&
          s.raw .LNK_STATUS_PAIRMAP_ACTIVE p == 0) (requestMap p map),
    .get fun s => .each (s.chans.filter fun c => s.chanState c == csArmed && eLink (s.entry c) == p) sendEst,
    allotStart p,
    beginResume p h]

def execHello (port : Nat) (s : State) := s.does (onLmp port 0x01 fun _ b _ => helloReceived port b)

/-- Until the peer's HELLO arrives, one every HELLO_MS. -/
def execHelloTimer (port : Nat) (s : State) := s.does (onPort port (.get fun s =>
  let t := s.tunPort port
  .on (s.flag .LNK_STATUS_UP port && t.hello.isNone && decide (t.helloAt + s.fld .TUN_TIMERS_HELLO_MS * ms ≤ s.clock))
    (sendHello port)))

/-! ### Establishment (R225, R226) -/

/-- The first reason of R226 that holds, 0 when none does. -/
def State.estReason (s : State) (r ty : Nat) (sealed : Bool) (kcv : Nat) : Nat :=
  let e := s.entry r
  let st := s.chanState r
  if eType e = 0 ∨ st = csIdle then 1
  else if eType e ≠ ty ∧ eType e ≠ tyMulti ∧ ty ≠ tyMulti then 2
  else if eSealed e != sealed || (sealed && (s.key.noSession || s.entryKcv e != some kcv)) then 3
  else if st = csDraining ∨ st = csSealed ∨ st = csFaulted then 4
  else 0

def execEstReq (port : Nat) (s : State) := s.does (onLmp port 0x10 fun _ b token => .get fun s =>
  let r := bits (fieldOf b 8 4) 16 0
  let reason := s.estReason r (fieldOf b 12 1) (bit (fieldOf b 13 1) 0) (fieldOf b 16 4)
  if reason = 0 then .all [
    sendLmp port 0x11 token 0 ((b.drop 4).take 16),
    .on (s.chanState r == csArmed) (setChan r csLive)]
  else sendLmp port 0x12 token 0 ((b.drop 4).take 16 ++ [BitVec.ofNat 8 reason]))

def execEstAck (port : Nat) (s : State) := s.does (onLmp port 0x11 fun _ b _ => .get fun s =>
  let c := bits (fieldOf b 4 4) 16 0
  .all [
    setTun port fun t => { t with est := t.est.del c },
    .on (s.chanState c == csArmed && eLink (s.entry c) == port) (setChan c csLive)])

def execEstNak (port : Nat) (s : State) := s.does (onLmp port 0x12 fun _ b _ =>
  .seq (bump .TUN_EST_NAKS 0 port) (tunRec 0x0001 port (some (bits (fieldOf b 4 4) 16 0))))

def execEstRetry (port chan : Nat) (s : State) := s.does (onPort port (.get fun s =>
  let c := chan % 2 ^ 17
  let due := match (s.tunPort port).est.get? c with
    | some t => decide (t + s.fld .TUN_CFG_EST_RETRY_MS * ms ≤ s.clock)
    | none => true
  .on (s.peerOk port && s.chanState c == csArmed && eLink (s.entry c) == port && due) (sendEst c)))

/-! ### Allotment (R235 to R241) -/

def execAllotReq (port : Nat) (s : State) := s.does (onLmp port 0x20 fun _ b token => .get fun s =>
  let t := s.tunPort port
  let ver := fieldOf b 4 1
  let tot := fieldOf b 6 2
  let epoch := fieldOf b 8 4
  let tail := leBytes 4 epoch
  let nak (reason : Nat) := sendLmp port 0x22 token 0 ([BitVec.ofNat 8 ver, BitVec.ofNat 8 reason, 0, 0] ++ tail)
  if !laterEpoch epoch (s.epoch + 1) then nak 2
  else if s.flag .LNK_STATUS_LANE_CHANGE port || t.rxNext.isSome then nak 1
  else if s.rxLimit port < tot then nak 3
  else .all [
    setTun port fun t => { t with rxNext := some (tot, ver % 2, epoch) },
    setF .TUN_RESV_RX_NEXT tot 0 port,
    sendLmp port 0x21 token 0 ([BitVec.ofNat 8 ver, 0, 0, 0] ++ tail)])

/-- The request in progress is abandoned; it is repeated at the next epoch boundary (R238 step 4). -/
def abandonAllot (p code : Nat) : Prog := .all [
  setTun p fun t => { t with pending := none, retry := true },
  setF .TUN_PORT_STATUS_ALLOT_PENDING 0 0 p, tunRec code p]

/-- The answer came in time (R238 step 3). -/
def State.allotTimely (s : State) (r : AllotReq) : Bool :=
  laterEpoch r.epoch (s.epoch + 1) && decide (s.clock ≤ r.sentAt + s.fld .TUN_TIMERS_ALLOT_TIMEOUT_US * us)

def execAllotAck (port : Nat) (s : State) := s.does (onLmp port 0x21 fun _ b _ => .get fun s =>
  match (s.tunPort port).pending with
  | some r => .on (r.ver == fieldOf b 4 1 && r.epoch == fieldOf b 8 4 && !r.acked) (
      if s.allotTimely r then setTun port fun t => { t with pending := some { r with acked := true } }
      else abandonAllot port 0x0002)
  | none => .skip)

def execAllotNak (port : Nat) (s : State) := s.does (onLmp port 0x22 fun _ b _ => .get fun s =>
  match (s.tunPort port).pending with
  | some r => .on (r.ver == fieldOf b 4 1 && r.epoch == fieldOf b 8 4 && !r.acked) (abandonAllot port 0x0003)
  | none => .skip)

def execAllotTimeout (port : Nat) (s : State) := s.does (onPort port (.get fun s =>
  match (s.tunPort port).pending with
  | some r => .on (!r.acked && !s.allotTimely r) (abandonAllot port 0x0002)
  | none => .skip))

/-- At the agreed epoch the allotment in force changes (R239 step 4). -/
def switchAllot (p : Nat) : Prog :=
  .get fun s => match (s.tunPort p).pending with
  | some r => .on (r.acked && !laterEpoch r.epoch s.epoch) (.all [
      setTun p fun t => { t with pending := none, shares := r.shares, credit := t.credit.filter fun e => (r.shares.get? e.1).isSome },
      setF .TUN_PORT_STATUS_ALLOT_PENDING 0 0 p, setF .TUN_PORT_STATUS_ALLOT_VER r.ver 0 p, setF .TUN_RESV_TX_TOTAL r.total 0 p])
  | none => .skip

/-- Reserved credits of an epoch: a debt is carried over, a positive credit is not (R235). -/
def newCredits (p : Nat) : Prog :=
  .get fun s => setTun p fun t => { t with
    credit := t.shares.foldl (fun m e =>
      m.put e.1 (min 0 ((t.credit.get? e.1).getD 0) + (e.2 * shareOf (s.raw .LNK_STATUS_RATE p) : Nat))) t.credit }

/-- An epoch starts, at each Moment that is a multiple of 2^16 ticks (R232). -/
def epochStart : Prog :=
  .each (List.range 6) fun p => .get fun s =>
    .on (s.peerOk p) (.all [switchAllot p, newCredits p, allotStart p])

def execEpochStart (s : State) := s.does (whenAlive (.get fun s => .on (s.moment % 2 ^ 16 == 0) epochStart))

/-! ### Leaving hold-over (R249) -/

def State.ringSize (s : State) : Nat := 2 ^ s.raw .TUN_REPORT_CFG_LOG2_RECORDS

/-- One record of a report goes to the ring; a full ring takes none. -/
def reportIn (p : Nat) (last : Bool) (gen : Nat) (r : List Byte) : Prog :=
  .get fun s =>
    let h := s.raw .TUN_REPORT_HEAD_HEAD
    if s.ringFull 2 then tunRec 0x000E p
    else .all [
      store (s.raw .TUN_REPORT_BASE_BASE * 16 + 16 * (h % s.ringSize))
        (r ++ [BitVec.ofNat 8 p, if last then 1 else 0, BitVec.ofNat 8 gen, 0, 0, 0, 0, 0]),
      setF .TUN_REPORT_HEAD_HEAD ((h + 1) % s.ringSize),
      .on ((h + 1) % s.ringSize == s.raw .TUN_REPORT_TAIL_TAIL % s.ringSize) (fillRing 2)]

/-- 8-byte records of an LMP body. -/
def records (b : List Byte) (n : Nat) : List (List Byte) := (List.range n).map fun i => (b.drop (8 + 8 * i)).take 8

def execHoldReport (port : Nat) (s : State) := s.does (onLmp port 0x30 fun _ b _ => .all [
  let rs := records b (fieldOf b 4 2)
  .each (rs.zip (List.range rs.length)) fun x =>
    reportIn port (bit (fieldOf b 6 1) 0 && x.2 + 1 == rs.length) (fieldOf b 7 1) x.1,
  raiseIrq 0x18])

/-- HOLD_CONFIRM (R249 steps 3 and 4). -/
def holdConfirm (p : Nat) (b : List Byte) : Prog :=
  .get fun s =>
    .on (s.dev.st == .hold) (
      if fieldOf b 7 1 ≠ s.raw .CHN_GEN_ACTIVE_GEN then .seq (tunRec 0x000C p) (holdReport p)
      else .all [
        .each (records b (fieldOf b 4 2)) fun r =>
          let c := bits (leNat r) 16 0
          .get fun s =>
            if bits (leNat r) 24 17 ≠ eGen (s.entry c) then tunRec 0x000C p (some c)
            else .on (s.chanState c == csHeld) (setChan c csLive),
        .on (bit (fieldOf b 6 1) 1) resumeAll,
        .on (bit (fieldOf b 6 1) 0) holdExit])

def execHoldConfirm (port : Nat) (s : State) := s.does (onLmp port 0x31 fun _ b _ => holdConfirm port b)

/-- TUN_CMD CONFIRM (R249 step 2): the records at TUN_CONFIRM_BASE go out in parcels of 255. -/
def tunConfirm (p : Nat) (last all : Bool) (gen : Nat) : Prog :=
  .get fun s =>
    if p < 6 ∧ s.peerOk p then
      let n := s.raw .TUN_CONFIRM_COUNT_COUNT
      let base := s.raw .TUN_CONFIRM_BASE_BASE * 8
      let parts := chunks 255 (n / 255 + 1) (List.range n)
      .all [
        .each (parts.zip (List.range parts.length)) fun x =>
          sendRequest p 0x31 (leBytes 2 x.1.length ++
            [(if last && x.2 + 1 == parts.length then 1 else 0) + (if all then 2 else 0), BitVec.ofNat 8 gen] ++
            (x.1.map fun i => s.mem.reads (base + 8 * i) 8).flatten),
        setF .TUN_CMD_STATUS_RESULT 1]
    else setF .TUN_CMD_STATUS_RESULT 2

def execConfirm (port : Nat) (last all : Bool) (gen : Nat) (s : State) := s.does (whenAlive (tunConfirm port last all gen))

/-- TUN_CMD LOCAL_END: the hub's own firmware completes the handshake; with ALL the HELD channels resume. -/
def localEnd (all : Bool) : Prog :=
  .get fun s => .all [.on (s.dev.st == .hold) (.seq (.on all resumeAll) holdExit), setF .TUN_CMD_STATUS_RESULT 1]

def execLocalEnd (all : Bool) (s : State) := s.does (whenAlive (localEnd all))

/-! ### Time over the link (R243, R244) -/

def seconds2 (log : Int) : Nat := if 0 ≤ log then sec * 2 ^ log.toNat else sec / 2 ^ (-log).toNat
def State.syncEvery (s : State) : Nat := seconds2 (sgn 8 (s.fld .TMB_SYNC_CFG_LOG_SYNC))
def State.pdelayEvery (s : State) : Nat := seconds2 (sgn 8 (s.fld .TMB_SYNC_CFG_LOG_PDELAY))

/-- A SYNC waits for its FOLLOW_UP with its time of receipt. -/
def execSync (port : Nat) (s : State) := s.does (onLmp port 0x40 fun line b _ => .get fun s =>
  setTun port fun t => { t with syncRx := some (fieldOf b 4 2, s.asTime line) })

def execFollowUp (port : Nat) (s : State) := s.does (onLmp port 0x41 fun _ b _ => .get fun s =>
  let t := s.tunPort port
  match t.syncRx with
  | some (seq, t2s) => .on (seq == fieldOf b 4 2) (.all [
      setTun port fun t => { t with syncRx := none },
      .act (.tmb fun m => { m with
        heard := m.heard.put port [fieldOf b 24 1, fieldOf b 26 1, fieldOf b 25 1, fieldOf b 16 8, fieldOf b 6 1] }),
      chooseMaster,
      .get fun s => .on (s.tmb.slave == some port)
        (servo (t2s - (sgn 64 (fieldOf b 8 8) + (t.delay - (s.asym port).1 / 500))))])
  | none => .skip)

/-- PDELAY_REQ is answered within 2 µs with the time of its receipt. -/
def execPdelayReq (port : Nat) (s : State) := s.does (onLmp port 0x42 fun line b token => .get fun s =>
  sendLmp port 0x43 token 0 ((b.drop 4).take 2 ++ [0, 0] ++ leBytes 8 (enc 64 (s.asTime line))))

def execPdelayResp (port : Nat) (s : State) := s.does (onLmp port 0x43 fun line b _ => .get fun s =>
  .on (fieldOf b 4 2 == ((s.tunPort port).pdelaySeq + 2 ^ 16 - 1) % 2 ^ 16)
    (setTun port fun t => { t with t2 := sgn 64 (fieldOf b 8 8), t4 := s.asTime line }))

/-- The mean delay from one exchange and the one before it (R244). Quotients are rounded down (log entry 44). -/
def meanDelay (t1 t2 t3 t4 : Int) (prev : Option (Int × Int)) : Int :=
  let back := match prev with
    | some (p3, p4) => if t3 = p3 then t3 - t2 else (t3 - t2) * (t4 - p4) / (t3 - p3)
    | none => t3 - t2
  ((t4 - t1) - back) / 2

def execPdelayFollow (port : Nat) (s : State) := s.does (onLmp port 0x44 fun _ b _ => .get fun s =>
  .on (fieldOf b 4 2 == ((s.tunPort port).pdelaySeq + 2 ^ 16 - 1) % 2 ^ 16)
    (setTun port fun t =>
      let t3 := sgn 64 (fieldOf b 8 8)
      { t with
        t3 := t3
        delay := meanDelay t.t1 t.t2 t3 t.t4 t.prev
        prev := some (t3, t.t4) }))

/-- A master port sends SYNC; its FOLLOW_UP follows once it has left. -/
def syncInterval (port : Nat) : Prog := onPort port (.get fun s =>
  let t := s.tunPort port
  .on (s.peerOk port && s.tmb.slave != some port && decide (t.syncAt + s.syncEvery ≤ s.clock)) (.all [
    setTun port fun t => { t with syncSeq := (t.syncSeq + 1) % 2 ^ 16, syncAt := s.clock },
    sendRequest port 0x40 (leBytes 2 t.syncSeq ++ [BitVec.ofNat 8 (s.fld .TMB_SYNC_CFG_LOG_SYNC)])]))

def pdelayInterval (port : Nat) : Prog := onPort port (.get fun s =>
  let t := s.tunPort port
  .on (s.peerOk port && decide (t.pdelayAt + s.pdelayEvery ≤ s.clock)) (.all [
    setTun port fun t => { t with pdelaySeq := (t.pdelaySeq + 1) % 2 ^ 16, pdelayAt := s.clock },
    sendRequest port 0x42 (leBytes 2 t.pdelaySeq)]))

/-- No SYNC on the slave port for 16 intervals (R244). -/
def execSyncReceiptTimeout (s : State) := s.does (whenAlive (.get fun s =>
  .on (s.tmb.slave.isSome && decide (s.tmb.lastSync + 16 * s.syncEvery ≤ s.clock)) (setDisciplined false)))

end Sys2Proof.Machine
end

