-- ==== Sys2Proof/Machine/CableOps.lean ====
section
/-! DEFINITION. Cable ports: power path, contracts, modes and the multiplexer, Hard Reset (R406 to R427). -/
namespace Sys2Proof.Machine

def blankCbl : CblPort where
  gsrc := false
  gsnk := false
  discharge := false
  attachPower := 0
  attachData := 0
  nego := none
  trips := []
  latched := false
  vconnOc := false
  ra := false
  req := none
  peerVdo := 0
  peerDp := 0
  offers := 0
  safeAt := none
  ceilingAt := none
  ams := 0
  refusedAt := none

def State.cblPort (s : State) (p : Nat) : CblPort := (s.cbl.ports.get? p).getD blankCbl
def setCbl (p : Nat) (f : CblPort → CblPort) : Prog :=
  .act (.cbl fun c => { c with ports := c.ports.put p (f ((c.ports.get? p).getD blankCbl)) })

/-- A command of one cable port, while the AON domain is alive. -/
def onCable (p : Nat) (q : Prog) : Prog := .get fun s => .on (s.aonAlive && decide (p < 6)) q

/-- A command of an attached port. -/
def onAttached (p : Nat) (q : Prog) : Prog := onCable p (.get fun s => .on (s.flag .CBL_PORT_STATUS_ATTACHED p) q)

def cblRec (code p : Nat) (detail : Nat := 0) : Prog := logRec 0x50 code (severityOf 0x50 code) none (p + detail * 2 ^ 8)

/-! ### Messages: control messages and, from 32, data messages by their USB PD type -/

def pdAccept := 3
def pdReject := 4
def pdPsRdy := 6
def pdDrSwap := 9
def pdPrSwap := 10
def pdVconnSwap := 11
def pdWait := 12
def pdSoftReset := 13
def pdSourceCaps := 33
def pdRequest := 34
def pdEprMode := 42
def pdEprAck := 46
def pdHardReset := 64

def pd (p ty : Nat) (args : List Nat := []) : Prog := emitOut .pd (p :: ty :: args)
/-- The cable core is down (R417). -/
def State.coreDown (s : State) : Bool := (s.core 8).halted

/-- A message that needs a policy answer: Wait while the cable core is down (R417). -/
def policy (p : Nat) (q : Prog) : Prog := .get fun s => if s.coreDown then pd p pdWait else q

/-! ### Gates (R409) -/

/-- Both gates open and VBUS discharges. -/
def openGates (p : Nat) : Prog := .all [
  setCbl p fun c => { c with gsrc := false, gsnk := false, discharge := true }, emitOut .gates [p, 0, 0, 1]]

/-- Close one gate; the other one is open by then and VBUS below 0.8 V where the direction changed. -/
def closeGate (p : Nat) (source : Bool) : Prog := .all [
  setCbl p fun c => { c with gsrc := source, gsnk := !source, discharge := false },
  emitOut .gates [p, source.toNat, (!source).toNat, 0]]

/-! ### Source capabilities (R410, R412, R426) -/

/-- The PDOs a source port offers: by level the derived ones or the registers'; vSafe5V alone in SAFE. -/
def State.sourcePdos (s : State) (p : Nat) : List (Nat × Nat) :=
  let l := if s.level 0x50 = 0 then s.offers p
    else (((List.range 7).map fun i => s.raw .CBL_SRC_PDO_PDO p i).takeWhile (· != 0)).map fun v =>
      (bits v 19 10 * 50, bits v 9 0 * 10)
  if s.dev.st = .safe then l.take 1 else l

def State.isSource (s : State) (p : Nat) : Bool := s.flag .CBL_PORT_STATUS_ATTACHED p && s.flag .CBL_PORT_STATUS_POWER_ROLE p
def State.isSink (s : State) (p : Nat) : Bool := s.flag .CBL_PORT_STATUS_ATTACHED p && !s.flag .CBL_PORT_STATUS_POWER_ROLE p

/-- CBL_CEILING_REFUSED, at most once per port per second (R410, R431). -/
def ceilingRefused (p : Nat) : Prog := logLim 0x50 0x0002 2 p sec none p

/-- A source sends its capabilities; the PD hardware refuses a PDO above the ceiling (R410). -/
def sendCaps (p : Nat) : Prog :=
  .get fun s =>
    let l := s.sourcePdos p
    .on (s.isSource p && !(s.cblPort p).latched) (
      if l.any fun o => decide (s.raw .CBL_CEILING_SRC_MV p < o.1) || decide (s.raw .CBL_CEILING_SRC_MA p < o.2) then ceilingRefused p
      else pd p pdSourceCaps (l.map fun o => fixedPdo o.1 o.2))

/-- CBL_SRC_USE follows the contracts (R412). -/
def refreshUse : Prog := .get fun s =>
  setF .CBL_SRC_USE_WATTS (((List.range 6).foldl (fun n p => n + s.pooled p) 0) / 1000000 % 2 ^ 16)

/-- Every source port whose derived PDOs a change has moved, and a port that it made a source, sends its capabilities (R412). -/
def watchOffers (q : Prog) : Prog :=
  .get fun s => .all [q, refreshUse,
    .get fun s' => .each ((List.range 6).filter fun p => s'.isSource p && (!s.isSource p || s'.sourcePdos p != s.sourcePdos p)) sendCaps]

/-! ### Contracts -/

/-- A sink contract enough for the main rails (R413, R515). -/
def State.enoughPower (s : State) (p : Nat) : Bool :=
  s.isSink p && s.flag .CBL_PORT_STATUS_CONTRACT p &&
    decide (Config.dbMinW * 1000000 ≤ s.raw .CBL_CONTRACT_MV p * s.raw .CBL_CONTRACT_MA p)

/-- Supplied through sink ports only, the hub keeps its rails while one contract is enough (R515). -/
def supplyCheck : Prog := .get fun s => .on (!s.dev.vin && !(List.range 6).any s.enoughPower) (removeRails false)

def setContract (p mv ma : Nat) : Prog := .all [
  setF .CBL_PORT_STATUS_CONTRACT 1 p, setF .CBL_CONTRACT_MV mv p, setF .CBL_CONTRACT_MA ma p,
  setCbl p fun c => { c with nego := none, safeAt := none, ams := 0 }]

def clearContract (p : Nat) : Prog := .all [
  setF .CBL_PORT_STATUS_CONTRACT 0 p, setF .CBL_CONTRACT_MV 0 p, setF .CBL_CONTRACT_MA 0 p, setF .CBL_PORT_STATUS_EPR 0 p,
  setCbl p fun c => { c with nego := none, ceilingAt := none }]

/-- The contract exceeds the port's ceilings (R461). -/
def State.overCeiling (s : State) (p : Nat) : Bool :=
  s.flag .CBL_PORT_STATUS_CONTRACT p &&
  if s.flag .CBL_PORT_STATUS_POWER_ROLE p then
    decide (s.raw .CBL_CEILING_SRC_MV p < s.raw .CBL_CONTRACT_MV p) || decide (s.raw .CBL_CEILING_SRC_MA p < s.raw .CBL_CONTRACT_MA p)
  else decide (s.raw .CBL_CEILING_SNK_MV p < s.raw .CBL_CONTRACT_MV p) || decide (s.raw .CBL_CEILING_SNK_MA p < s.raw .CBL_CONTRACT_MA p)

/-- A sink asks for the highest-power fixed PDO within its ceiling; none within it is refused (R410, R413). -/
def requestBest (p : Nat) (pdos : List Nat) : Prog :=
  .get fun s =>
    let all := (pdos.zip (List.range pdos.length)).filter fun x => bits x.1 31 30 == 0 && x.1 != 0
    let fit := (all.map fun x => (x.2 + 1, bits x.1 19 10 * 50, min (bits x.1 9 0 * 10) (s.raw .CBL_CEILING_SNK_MA p))).filter
      fun x => decide (x.2.1 ≤ s.raw .CBL_CEILING_SNK_MV p)
    let best := fit.foldl (fun b x => match b with
      | none => some x
      | some y => if y.2.1 * y.2.2 < x.2.1 * x.2.2 then some x else some y) none
    match best with
    | some x => .all [pd p pdRequest [x.1, x.2.2 / 10], setCbl p fun c => { c with nego := some (x.2.1, x.2.2), ams := 1 }]
    | none => ceilingRefused p

/-- Enable the rail groups one by one from group 1 (R514, R525). -/
def railsOn : Prog := .get fun s =>
  .on (s.dev.st == .aon && s.boot.groups == 0 && decide (s.boot.faults < 3)) (.all [
    .act (.boot fun b => { b with groups := 1, railAt := s.clock, standby := false }), emitOut .rails [1]])

/-! ### Modes and the multiplexer (R418 to R422) -/

/-- Multiplexer state of a mode and pin assignment (R420). -/
def muxOf (mode pin : Nat) : Nat :=
  match mode with
  | 1 => 1
  | 2 => if pin = 2 then 5 else 3
  | 3 => if pin = 2 then 4 else 2
  | 4 => 7
  | 5 => 6
  | _ => 0

/-- The multiplexer moves: entering a state that serves Avrath starts training where it is enabled, leaving one takes the link
down (R203, R421). -/
def setMux (p state : Nat) : Prog :=
  .get fun s =>
    let was := s.avrath p
    .all [setF .CBL_MUX_STATE state p,
      .on s.coreAlive (.get fun s' =>
        if s'.avrath p && !was then startTraining p else if was && !s'.avrath p then linkDown p else .skip)]

/-- A mode is entered; with MUX_POLICY 0 the multiplexer follows, with 1 it stays in SAFE (R421). -/
def enterMode (p mode pin : Nat) : Prog :=
  .get fun s => .all [
    setF .CBL_PORT_STATUS_MODE mode p, setF .CBL_PORT_STATUS_PIN pin p,
    .on (!s.flag .CBL_PORT_CFG_MUX_POLICY p) (setMux p (muxOf mode pin))]

def exitModes (p : Nat) : Prog := .all [
  setF .CBL_PORT_STATUS_MODE 0 p, setF .CBL_PORT_STATUS_PIN 0 p, setMux p 0,
  setCbl p fun c => { c with peerDp := 0 }]

/-- The answer to an Avrath Enter Mode: none is NAK, some mode is ACK. `initiator` says whose VDO this is. -/
def State.avrathMode (s : State) (p vdo : Nat) (initiator : Bool) : Option Nat :=
  if !s.flag .CBL_PORT_CFG_AVRATH_EN p || (s.offerRates p &&& bits vdo 2 0) == 0 then none
  else if bit vdo 4 then
    (if !(s.flag .CBL_PORT_CFG_SPLIT_EN p && s.flag .CBL_PORT_CFG_DP_EN p) || bit vdo 5 == bit vdo 6 then none
     else if bit vdo 5 == initiator then some 5 else some 4)
  else some 1

/-- This end enters the Avrath mode as DFP; `ack` is the peer's answer. -/
def enterAvrath (p vdo : Nat) (ack : Bool) : Prog :=
  .get fun s => match s.avrathMode p vdo true with
  | some mode => .seq (vdm p 0 4 avrathSvid [vdo]) (if ack then enterMode p mode 0 else cblRec 0x0008 p)
  | none => cblRec 0x0008 p

/-- This end enters DisplayPort as DFP: DP_SRC 1 makes it DFP_D. -/
def enterDp (p pin : Nat) (src ack : Bool) : Prog :=
  .seq (vdm p 0 4 dpSvid [pin, src.toNat]) (if ack then enterMode p (if src then 3 else 2) pin else cblRec 0x0008 p)

/-- After a contract the cable core discovers the peer's modes and, as DFP under MUX_POLICY 0, enters one (R421). `offers` holds the
peer's answers: bit 0 Avrath with its VDO, bit 1 DisplayPort. -/
def discoverModes (p offers vdo : Nat) : Prog :=
  .get fun s =>
    let av := s.flag .CBL_PORT_CFG_AVRATH_EN p && bit offers 0
    let dp := s.flag .CBL_PORT_CFG_DP_EN p && bit offers 1
    let tryAv := enterAvrath p (s.ownVdo p &&& 0xFFFFFF8F) true
    let tryDp := enterDp p 1 true true
    .all [
      setCbl p fun c => { c with offers := offers, peerVdo := vdo },
      .on (s.flag .CBL_PORT_STATUS_DATA_ROLE p && !s.flag .CBL_PORT_CFG_MUX_POLICY p && s.raw .CBL_PORT_STATUS_MODE p == 0 &&
          s.dev.st != .safe && !s.flag .CBL_IMG_STATUS_ROM) (
        if s.flag .CBL_PORT_CFG_DP_FIRST p then (if dp then tryDp else .on av tryAv)
        else if av then tryAv else .on dp tryDp)]

/-! ### Swaps (R423, R424) -/

/-- End of a CBL_CMD request: its status. -/
def endReq (p result : Nat) : Prog :=
  .get fun s => match (s.cblPort p).req with
  | some r => .all [setCbl p fun c => { c with req := none, ams := 0 }, .on r.own (setF .CBL_CMD_STATUS_RESULT result p)]
  | none => .skip

/-- The power roles change: one gate opens, VBUS falls, the other closes (R409, R423). Contract and modes stay. -/
def swapPower (p : Nat) : Prog :=
  .get fun s =>
    let source := !s.flag .CBL_PORT_STATUS_POWER_ROLE p
    .all [openGates p, setB .CBL_PORT_STATUS_POWER_ROLE source p, closeGate p source, bump .CBL_COUNTS_SWAPS p]

def swapData (p : Nat) : Prog :=
  .get fun s => .all [setB .CBL_PORT_STATUS_DATA_ROLE (!s.flag .CBL_PORT_STATUS_DATA_ROLE p) p, bump .CBL_COUNTS_SWAPS p]

def swapVconn (p : Nat) : Prog :=
  .get fun s => .all [setB .CBL_PORT_STATUS_VCONN_ON (!s.flag .CBL_PORT_STATUS_VCONN_ON p) p, bump .CBL_COUNTS_SWAPS p]

/-- The swap of an operation takes effect: 1 PR, 2 DR, 3 VCONN. -/
def doSwap (p op : Nat) : Prog :=
  match op with
  | 1 => swapPower p
  | 2 => swapData p
  | _ => swapVconn p

/-- What a change of the power roles moves follows it: CBL_SRC_USE, and Source_Capabilities after PS_RDY (R412). -/
def swapWatch (op : Nat) (q : Prog) : Prog := if op = 1 then watchOffers q else q

/-- The role an operation asks for, and whether it is in force. -/
def State.roleOf (s : State) (p op : Nat) : Nat :=
  match op with
  | 1 => s.raw .CBL_PORT_STATUS_POWER_ROLE p
  | 2 => s.raw .CBL_PORT_STATUS_DATA_ROLE p
  | _ => s.raw .CBL_PORT_STATUS_VCONN_ON p

def swapMessage : Nat → Nat
  | 1 => pdPrSwap
  | 2 => pdDrSwap
  | _ => pdVconnSwap

/-- A received swap request would be accepted (R423, R414). -/
def State.acceptSwap (s : State) (p op : Nat) : Bool :=
  match op with
  | 1 => s.flag .CBL_PORT_CFG_ACCEPT_PR p &&
      (if s.flag .CBL_PORT_STATUS_POWER_ROLE p then s.raw .CBL_CEILING_SNK_MV p else s.raw .CBL_CEILING_SRC_MV p) != 0
  | 2 => s.flag .CBL_PORT_CFG_ACCEPT_DR p && s.raw .CBL_PORT_STATUS_MODE p == 0
  | _ => s.flag .CBL_PORT_CFG_ACCEPT_VCONN p &&
      (s.flag .CBL_PORT_STATUS_VCONN_ON p || (s.flag .CBL_PORT_CFG_VCONN_EN p && !(s.cblPort p).vconnOc))

def answerSwap (p op : Nat) : Prog :=
  .get fun s => if s.acceptSwap p op then swapWatch op (.all [pd p pdAccept, doSwap p op, pd p pdPsRdy]) else pd p pdReject

/-- The retry of a collided request falls due after a delay drawn from the bounds of CBL_SWAP_CFG (R424). -/
def scheduleRetry (p : Nat) : Prog :=
  .get fun s =>
    let lo := s.fld .CBL_SWAP_CFG_RETRY_MIN_MS p
    let hi := s.fld .CBL_SWAP_CFG_RETRY_MAX_MS p
    withFree (hi + 1 - lo) fun d => setCbl p fun c => { c with
      req := c.req.map fun r => { r with retryAt := some (s.clock + (lo + d) * ms), accepted := false } }

/-- A swap request arrives while ours is outstanding or not (R424). -/
def swapReceived (p op : Nat) : Prog :=
  policy p (.get fun s =>
    match (s.cblPort p).req with
    | none => answerSwap p op
    | some r =>
      if s.flag .CBL_PORT_STATUS_POWER_ROLE p then pd p pdWait
      else .all [
        cblRec 0x0007 p,
        .on r.own (setF .CBL_CMD_STATUS_RESULT 5 p),
        answerSwap p op,
        .get fun s' =>
          if s'.roleOf p r.op = r.arg ∨ r.retries = 0 then setCbl p fun c => { c with req := none, ams := 0 } else scheduleRetry p])

/-- CBL_CMD of a swap: refused while another runs, in the wrong state, or with a mode entered (R423). -/
def startSwap (p op : Nat) : Prog :=
  .get fun s => .all [
    setF .CBL_CMD_STATUS_OP op p,
    if (s.cblPort p).req.isSome || (s.cblPort p).ams != 0 then setF .CBL_CMD_STATUS_RESULT 2 p
    else if !s.flag .CBL_PORT_STATUS_ATTACHED p || (op == 2 && s.raw .CBL_PORT_STATUS_MODE p != 0) then setF .CBL_CMD_STATUS_RESULT 4 p
    else .all [
      setF .CBL_CMD_STATUS_RESULT 0 p,
      setCbl p fun c => { c with
        req := some ⟨op, 1 - s.roleOf p op, s.clock, s.fld .CBL_SWAP_CFG_RETRIES p, none, false, true⟩
        ams := op + 1 },
      pd p (swapMessage op)]]

/-! ### Attach, detach, Hard Reset (R409, R425) -/

/-- VCONN goes on at attach as Source, on the other CC pin when it shows Ra (R414). -/
def vconnAtAttach (p : Nat) (ra : Bool) : Prog := .get fun s =>
  setB .CBL_PORT_STATUS_VCONN_ON (ra && s.flag .CBL_PORT_CFG_VCONN_EN p && s.flag .CBL_PORT_STATUS_POWER_ROLE p) p

/-- VBUS of the port has risen since its peer came: before a contract a Source applies vSafe5V (log entry 45). -/
def State.vsafe5 (s : State) (p : Nat) : Bool := bit s.dev.vbus p

/-- The port's VBUS is gone. -/
def vbusFalls (p : Nat) : Prog := .act (.dev fun d => { d with vbus := if bit d.vbus p then d.vbus - 2 ^ p else d.vbus })

/-- The port has lost its peer: gates open, VBUS discharged, roles and modes gone. -/
def detach (p : Nat) : Prog := watchOffers (.all [
  openGates p, vbusFalls p, clearContract p, supplyCheck, exitModes p,
  setF .CBL_PORT_STATUS_ATTACHED 0 p, setF .CBL_PORT_STATUS_ORIENT 0 p, setF .CBL_PORT_STATUS_POWER_ROLE 0 p,
  setF .CBL_PORT_STATUS_DATA_ROLE 0 p, setF .CBL_PORT_STATUS_VCONN_ON 0 p, setF .CBL_PORT_STATUS_DEAD_BATTERY 0 p,
  setF .CBL_PORT_STATUS_CABLE 0 p, setF .CBL_PORT_STATUS_CABLE_SPEED 0 p, setF .CBL_PORT_STATUS_CABLE_5A 0 p,
  setF .CBL_PORT_STATUS_CABLE_EPR 0 p,
  endReq p 6,
  setCbl p fun c => { blankCbl with discharge := c.discharge, trips := c.trips, latched := c.latched },
  trackHold])

/-- A Hard Reset sent or received on a port (R425). Causes of the record: 1 received, 2 CBL_CMD, 3 trip, 4 no Request in SAFE,
5 contract above a lowered ceiling (log entry 46). -/
def hardReset (p cause : Nat) : Prog :=
  .get fun s =>
    let c := s.cblPort p
    watchOffers (.all [
      cblRec 0x0004 p (cause + c.ams * 2 ^ 8), bump .CBL_COUNTS_HARD_RESETS p,
      .on (cause != 1) (pd p pdHardReset),
      endReq p 6, openGates p, clearContract p, supplyCheck,
      setF .CBL_PORT_STATUS_POWER_ROLE c.attachPower p, setF .CBL_PORT_STATUS_DATA_ROLE c.attachData p,
      setB .CBL_PORT_STATUS_VCONN_ON (c.attachPower == 1 && s.flag .CBL_PORT_CFG_VCONN_EN p && !c.vconnOc && c.ra) p,
      exitModes p,
      setCbl p fun c => { c with ams := 0, safeAt := none, nego := none },
      trackHold,
      .on (!c.latched) (.seq (closeGate p (c.attachPower == 1)) (.on (s.isSource p) (sendCaps p)))])

end Sys2Proof.Machine
end

