-- ==== Sys2Proof/Machine/Cable.lean ====
section
/-! DEFINITION. The commands of the cable ports and of the cable core (R409 to R427). -/
namespace Sys2Proof.Machine

/-! ### Attach and supply -/

/-- A Type-C attach, as the CC pins show it: orientation, our role, Ra, and the cable's e-marker as read over SOP′ (0 none, 1
passive, 2 active; its speed field; 5 A; EPR). A role that ROLE does not allow does not attach (R407). -/
def execCcAttach (port orient : Nat) (source ra : Bool) (cable speed : Nat) (fiveA epr : Bool) (s : State) :=
  s.does (onCable port (.get fun s =>
    let role := s.raw .CBL_PORT_CFG_ROLE port
    .on (!s.flag .CBL_PORT_STATUS_ATTACHED port && !(s.cblPort port).latched && (role == 2 || role == source.toNat)) (watchOffers (.all [
      setF .CBL_PORT_STATUS_ATTACHED 1 port, setF .CBL_PORT_STATUS_ORIENT (orient % 2) port,
      setB .CBL_PORT_STATUS_POWER_ROLE source port, setB .CBL_PORT_STATUS_DATA_ROLE source port,
      setF .CBL_PORT_STATUS_CABLE (cable % 4) port, setF .CBL_PORT_STATUS_CABLE_SPEED (speed % 8) port,
      setB .CBL_PORT_STATUS_CABLE_5A fiveA port, setB .CBL_PORT_STATUS_CABLE_EPR epr port,
      setCbl port fun c => { c with attachPower := source.toNat, attachData := source.toNat, vconnOc := false, ra := ra },
      vconnAtAttach port ra,
      .on (source || s.vsafe5 port) (closeGate port source),
      .act (.boot fun b => { b with faults := 0 }), railsOn]))))

def execCcDetach (port : Nat) (s : State) := s.does (onAttached port (detach port))

/-- The AON domain starts (R413 step 1, R525 step 1): the cable core runs the ROM policy. -/
def aonUp : Prog := .get fun s =>
  .on (s.dev.st == .off && !s.dev.thermalHold) (.all [
    .act (.dev fun d => { d with st := .aon }), setCore 8 fun _ => Core.reset, setF .CBL_IMG_STATUS_ROM 1])

/-- VBUS of a port reaches 4.5 V. Unpowered, the dead-battery start as a Sink (R413 steps 1 to 3); a Sink that has no contract yet
closes its gate (R409). -/
def execVbusRise (port : Nat) (s : State) := s.does (.get fun s => .on (decide (port < 6)) (.seq
  (.act (.dev fun d => { d with vbus := if bit d.vbus port then d.vbus else d.vbus + 2 ^ port }))
  (if s.dev.st != .off then .on (s.aonAlive && s.isSink port && !s.flag .CBL_PORT_STATUS_CONTRACT port && !(s.cblPort port).gsnk &&
      !(s.cblPort port).latched) (closeGate port false)
  else .on (!s.dev.thermalHold) (.all [
    aonUp,
    setF .CBL_PORT_STATUS_ATTACHED 1 port, setF .CBL_PORT_STATUS_POWER_ROLE 0 port, setF .CBL_PORT_STATUS_DATA_ROLE 0 port,
    setCbl port fun c => { c with attachPower := 0, attachData := 0 },
    closeGate port false]))))

/-! ### Contracts (R410 to R413) -/

def execPdSourceCapabilities (port : Nat) (pdos : List Nat) (s : State) := s.does (onAttached port (.get fun s =>
  .on (s.isSink port && !(s.cblPort port).latched) (policy port (.seq
    (.on (s.vsafe5 port && !(s.cblPort port).gsnk) (closeGate port false)) (requestBest port pdos)))))

/-- A Request for an object of our capabilities; `offers` and `vdo` are what the peer answers to discovery (R421). -/
def execPdRequest (port object ma offers vdo : Nat) (s : State) := s.does (onAttached port (.get fun s =>
  let pdos := s.sourcePdos port
  let spr := pdos.filter fun o => o.1 ≤ 20000
  let pick := if object = 8 then (pdos.filter fun o => decide (20000 < o.1) && s.flag .CBL_PORT_STATUS_EPR port).head?
    else if object = 0 then none else spr[object - 1]?
  .on (s.isSource port && !(s.cblPort port).latched) (policy port (
    match pick with
    | none => pd port pdReject
    | some o =>
      if s.raw .CBL_CEILING_SRC_MV port < o.1 ∨ s.raw .CBL_CEILING_SRC_MA port < ma then .seq (pd port pdReject) (ceilingRefused port)
      else if o.2 < ma then pd port pdReject
      else watchOffers (.all [
        pd port pdAccept, .on (!(s.cblPort port).gsrc) (closeGate port true), setContract port o.1 (ma % 2 ^ 16), pd port pdPsRdy,
        setCbl port fun c => { c with ceilingAt := none },
        trackHold, discoverModes port offers vdo])))))

/-- PS_RDY puts a sink's contract in force (R413 steps 6 and 7). -/
def execPdPsRdy (port offers vdo : Nat) (s : State) := s.does (onAttached port (.get fun s =>
  match (s.cblPort port).nego with
  | some (mv, ma) => .on (s.isSink port) (.all [
      .on (!(s.cblPort port).gsnk) (closeGate port false),
      setContract port (mv % 2 ^ 16) (ma % 2 ^ 16), supplyCheck, setCbl port fun c => { c with ceilingAt := none },
      .on (s.dev.st == .aon && !s.dev.vin) (setF .CBL_PORT_STATUS_DEAD_BATTERY 1 port),
      trackHold,
      .get fun s => .on (s.dev.st == .aon && s.enoughPower port && !s.boot.standby) railsOn,
      discoverModes port offers vdo])
  | none => .skip))

/-- 30 ms after entry to SAFE a Source without a Request issues Hard Reset (R426). -/
def execSafeSourceTimeout (port : Nat) (s : State) := s.does (onAttached port (.get fun s =>
  match (s.cblPort port).safeAt with
  | some t => .on (decide (t + 30 * ms ≤ s.clock)) (hardReset port 4)
  | none => .skip))

def execCeilingTimeout (port : Nat) (s : State) := s.does (onAttached port (.get fun s =>
  match (s.cblPort port).ceilingAt with
  | some t => .on (decide (t + 30 * ms ≤ s.clock)) (.seq (setCbl port fun c => { c with ceilingAt := none })
      (.on (s.overCeiling port) (hardReset port 5)))
  | none => .skip))

/-- The comparators trip on VBUS or current (R411): gates open, Hard Reset; a third trip within 10 s latches the port. -/
def execCblTrip (port mv ma : Nat) (s : State) := s.does (onAttached port (.get fun s =>
  let source := s.flag .CBL_PORT_STATUS_POWER_ROLE port
  let maxV := if source then s.raw .CBL_CEILING_SRC_MV port else s.raw .CBL_CEILING_SNK_MV port
  let maxA := if source then s.raw .CBL_CEILING_SRC_MA port else s.raw .CBL_CEILING_SNK_MA port
  let trips := s.clock :: (s.cblPort port).trips.filter fun t => decide (s.clock ≤ t + 10 * sec)
  .on (decide (105 * maxV < 100 * mv) || decide (110 * maxA < 100 * ma)) (.all [
    openGates port, bump .CBL_COUNTS_TRIPS port, cblRec 0x0001 port,
    setCbl port fun c => { c with trips := trips, latched := decide (3 ≤ trips.length) },
    hardReset port 3,
    .on (decide (3 ≤ trips.length)) (detach port)])))

/-- A VCONN load above 320 mA for 1 ms (R414). -/
def execCblVconnOc (port : Nat) (s : State) := s.does (onAttached port (.get fun s =>
  .on (s.flag .CBL_PORT_STATUS_VCONN_ON port) (.all [
    setF .CBL_PORT_STATUS_VCONN_ON 0 port, setCbl port fun c => { c with vconnOc := true }, cblRec 0x0003 port])))

/-- CBL_CMD RECAPS (R411): a latched port is released, and the port negotiates again. -/
def recaps (p : Nat) : Prog := .get fun s => .all [
  setCbl p fun c => { c with latched := false, trips := [] }, sendCaps p,
  .on (s.isSink p) (pd p 7), setF .CBL_CMD_STATUS_OP 8 p, setF .CBL_CMD_STATUS_RESULT 1 p]

def execRecaps (port : Nat) (s : State) := s.does (onCable port (recaps port))

/-! ### Swaps (R423, R424) -/

def execPdPrSwap (port : Nat) (s : State) := s.does (onAttached port (swapReceived port 1))
def execPdDrSwap (port : Nat) (s : State) := s.does (onAttached port (swapReceived port 2))
def execPdVconnSwap (port : Nat) (s : State) := s.does (onAttached port (swapReceived port 3))
def execSwapPr (port : Nat) (s : State) := s.does (onCable port (startSwap port 1))
def execSwapDr (port : Nat) (s : State) := s.does (onCable port (startSwap port 2))
def execSwapVconn (port : Nat) (s : State) := s.does (onCable port (startSwap port 3))

/-- The peer accepts our swap: it takes effect. An Accept of a supply request changes nothing before PS_RDY. -/
def execPdAccept (port : Nat) (s : State) := s.does (onAttached port (.get fun s =>
  match (s.cblPort port).req with
  | some r => .on r.retryAt.isNone (swapWatch r.op (.seq (doSwap port r.op) (endReq port 1)))
  | none => .skip))

def execPdReject (port : Nat) (s : State) := s.does (onAttached port (.get fun s =>
  match (s.cblPort port).req with
  | some r => .on r.retryAt.isNone (endReq port 3)
  | none => setCbl port fun c => { c with nego := none, ams := 0 }))

/-- Wait: our swap is sent again after the delay of CBL_SWAP_CFG, our supply request at the next Source_Capabilities. -/
def execPdWait (port : Nat) (s : State) := s.does (onAttached port (.get fun s =>
  match (s.cblPort port).req with
  | some r => .on r.retryAt.isNone (scheduleRetry port)
  | none => setCbl port fun c => { c with nego := none, ams := 0 }))

/-- The delay of a collided swap is over: it is sent again, up to RETRIES times (R424). -/
def execSwapRetry (port : Nat) (s : State) := s.does (onAttached port (.get fun s =>
  match (s.cblPort port).req with
  | some r => (match r.retryAt with
    | some t => .on (decide (t ≤ s.clock)) (
        if s.roleOf port r.op = r.arg ∨ r.retries = 0 then setCbl port fun c => { c with req := none, ams := 0 }
        else .seq (setCbl port fun c => { c with req := some { r with retries := r.retries - 1, retryAt := none, sentAt := s.clock } })
          (pd port (swapMessage r.op)))
    | none => .skip)
  | none => .skip))

/-- USB PD's response time passes with no answer: TIMEOUT. -/
def execSwapTimeout (port : Nat) (s : State) := s.does (onAttached port (.get fun s =>
  match (s.cblPort port).req with
  | some r => .on r.retryAt.isNone (endReq port 6)
  | none => .skip))

def execPdSoftReset (port : Nat) (s : State) := s.does (onAttached port (policy port (.all [
  endReq port 6, setCbl port fun c => { c with nego := none, ams := 0 }, pd port pdAccept])))

def execPdHardReset (port : Nat) (s : State) := s.does (onAttached port (hardReset port 1))

def hardResetCmd (p : Nat) : Prog := .all [setF .CBL_CMD_STATUS_OP 7 p, .get fun s =>
  if s.flag .CBL_PORT_STATUS_ATTACHED p then .seq (hardReset p 2) (setF .CBL_CMD_STATUS_RESULT 1 p)
  else setF .CBL_CMD_STATUS_RESULT 4 p]

def execHardReset (port : Nat) (s : State) := s.does (onCable port (hardResetCmd port))

/-! ### EPR (R407, R417) -/

def execPdEprKeepalive (port : Nat) (s : State) := s.does (onAttached port (pd port pdEprAck))

/-- EPR entry is accepted only with EPR enabled and an EPR 5 A cable; exit always. -/
def execPdEprMode (port : Nat) (enter : Bool) (s : State) := s.does (onAttached port (policy port (.get fun s =>
  if !enter then .seq (setF .CBL_PORT_STATUS_EPR 0 port) (pd port pdEprMode [5])
  else if s.flag .CBL_PORT_CFG_EPR_EN port && s.flag .CBL_PORT_STATUS_CABLE_EPR port && s.flag .CBL_PORT_STATUS_CABLE_5A port &&
      s.dev.st != .safe then .seq (setF .CBL_PORT_STATUS_EPR 1 port) (pd port pdEprMode [3])
  else pd port pdReject)))

/-! ### Structured VDMs (R418, R421, R422) -/

/-- Discover Identity: ACK. The identity's objects are the product's own and no rule gives them. -/
def execPdDiscoverIdentity (port : Nat) (s : State) := s.does (onAttached port (policy port (vdm port 1 1 0xFF00)))

def execPdDiscoverSvids (port : Nat) (s : State) := s.does (onAttached port (policy port (.get fun s =>
  let l := (if s.flag .CBL_PORT_CFG_AVRATH_EN port then [avrathSvid] else []) ++ (if s.flag .CBL_PORT_CFG_DP_EN port then [dpSvid] else [])
  vdm port (if l.isEmpty then 2 else 1) 2 0xFF00 l)))

/-- The mode VDO of an SVID: Avrath's of R418; DisplayPort's says UFP_D and DFP_D with pin assignments C and D (R422). -/
def execPdDiscoverModes (port svid : Nat) (s : State) := s.does (onAttached port (policy port (.get fun s =>
  if svid = avrathSvid ∧ s.flag .CBL_PORT_CFG_AVRATH_EN port then vdm port 1 3 svid [s.ownVdo port]
  else if svid = dpSvid ∧ s.flag .CBL_PORT_CFG_DP_EN port then vdm port 1 3 svid [0x000C0C07]
  else vdm port 2 3 svid)))

/-- A received Enter Mode (R418, R421). In DisplayPort the hub as UFP_U becomes UFP_D until DP Configure says otherwise. -/
def execPdEnterMode (port svid vdo : Nat) (s : State) := s.does (onAttached port (policy port (.get fun s =>
  let nak := .seq (vdm port 2 4 svid) (cblRec 0x0008 port)
  if s.raw .CBL_PORT_STATUS_MODE port ≠ 0 ∨ s.dev.st = .safe ∨ s.flag .CBL_IMG_STATUS_ROM then nak
  else if svid = avrathSvid then
    (match s.avrathMode port vdo false with
      | some mode => .all [setCbl port fun c => { c with peerVdo := vdo }, vdm port 1 4 svid, enterMode port mode 0]
      | none => nak)
  else if svid = dpSvid ∧ s.flag .CBL_PORT_CFG_DP_EN port then .seq (vdm port 1 4 svid) (enterMode port 2 1)
  else nak)))

def execPdExitMode (port : Nat) (s : State) := s.does (onAttached port (policy port (.get fun s =>
  .seq (vdm port 1 5 (if s.avrath port || [1, 4, 5].contains (s.raw .CBL_PORT_STATUS_MODE port) then avrathSvid else dpSvid))
    (exitModes port))))

/-- Attention: in the Avrath mode the peer's latest RATES count from the next full training; in DisplayPort it carries DP Status. -/
def execPdAttention (port svid vdo : Nat) (s : State) := s.does (onAttached port (
  if svid = avrathSvid then setCbl port fun c => { c with peerVdo := vdo }
  else if svid = dpSvid then setCbl port fun c => { c with peerDp := vdo }
  else .skip))

/-- The target of a UFP_D stream is LIVE and its link up: what HPD in DP Status tells (R422). -/
def State.streamUp (s : State) (p : Nat) : Bool :=
  s.chans.any fun c =>
    let e := s.entry c
    eType e == tyStream && bits (eParam e 32 1) 2 0 == p && s.chanState c == csLive &&
      (let g := s.groupOf (eBerth e); s.portUp g 0)

/-- DP Status Update: both ends' status; ours reports HPD in bit 7 as UFP_D (R422). -/
def execPdDpStatusUpdate (port status : Nat) (s : State) := s.does (onAttached port (policy port (.get fun s => .seq
  (setCbl port fun c => { c with peerDp := status })
  (vdm port 1 16 dpSvid [(if s.raw .CBL_PORT_STATUS_MODE port = 2 then 2 else 1) + 8 + (if s.streamUp port then 128 else 0)]))))

/-- DP Configure: bits 1:0 say what the responder becomes (1 DFP_D, 2 UFP_D), bits 15:8 the pin assignment (4 C, 8 D). -/
def execPdDpConfigure (port config : Nat) (s : State) := s.does (onAttached port (policy port (.get fun s =>
  let pin := if bit config 10 then 1 else if bit config 11 then 2 else 0
  let mode := if bits config 1 0 = 1 then 3 else 2
  let cur := s.raw .CBL_PORT_STATUS_MODE port
  if (cur = 2 ∨ cur = 3) ∧ pin ≠ 0 ∧ bits config 1 0 ≠ 0 then .seq (vdm port 1 17 dpSvid) (enterMode port mode pin)
  else vdm port 2 17 dpSvid)))

/-! ### CBL_CMD of modes, CBL_MUX (R421) -/

/-- A mode command ends with its status. -/
def modeCmd (p op : Nat) (ok : State → Bool) (q : Prog) : Prog := .all [
  setF .CBL_CMD_STATUS_OP op p,
  .get fun s =>
    if (s.cblPort p).req.isSome || (s.cblPort p).ams != 0 then setF .CBL_CMD_STATUS_RESULT 2 p
    else if !s.flag .CBL_PORT_STATUS_CONTRACT p || s.dev.st == .safe || !ok s then setF .CBL_CMD_STATUS_RESULT 4 p
    else .seq q (.get fun s' => setF .CBL_CMD_STATUS_RESULT (
      if op = 6 then 1 else if s'.raw .CBL_PORT_STATUS_MODE p = 0 then 3 else 1) p)]

/-- ENTER_AVRATH as DFP; `peer` is the peer's mode VDO, `ack` its answer. With SPLIT the direction is DP_SRC's. -/
def enterAvrathCmd (p : Nat) (split src : Bool) (peer : Nat) (ack : Bool) : Prog :=
  modeCmd p 4 (fun s => s.flag .CBL_PORT_STATUS_DATA_ROLE p && s.raw .CBL_PORT_STATUS_MODE p == 0 && s.flag .CBL_PORT_CFG_AVRATH_EN p)
    (.seq (setCbl p fun c => { c with peerVdo := peer })
      (.get fun s => enterAvrath p ((s.ownVdo p &&& 0xFFFFFF8F) + (if split then 16 + (if src then 32 else 64) else 0)) ack))

def execEnterAvrath (port : Nat) (split src : Bool) (peer : Nat) (ack : Bool) (s : State) :=
  s.does (onCable port (enterAvrathCmd port split src peer ack))

def enterDpCmd (p pin : Nat) (src ack : Bool) : Prog :=
  modeCmd p 5 (fun s => s.flag .CBL_PORT_STATUS_DATA_ROLE p && s.raw .CBL_PORT_STATUS_MODE p == 0 && s.flag .CBL_PORT_CFG_DP_EN p &&
    (pin == 1 || pin == 2)) (enterDp p pin src ack)

def execEnterDp (port pin : Nat) (src ack : Bool) (s : State) := s.does (onCable port (enterDpCmd port pin src ack))

def exitModeCmd (p : Nat) : Prog :=
  modeCmd p 6 (fun s => s.raw .CBL_PORT_STATUS_MODE p != 0) (.seq (vdm p 0 5 avrathSvid) (exitModes p))

def execExitMode (port : Nat) (s : State) := s.does (onCable port (exitModeCmd port))

/-- A write of CBL_MUX: only under MUX_POLICY 1 and only the state that matches the mode and pin assignment entered. -/
def muxWrite (p state : Nat) : Prog := .get fun s =>
  if s.flag .CBL_PORT_CFG_MUX_POLICY p && state == muxOf (s.raw .CBL_PORT_STATUS_MODE p) (s.raw .CBL_PORT_STATUS_PIN p) then setMux p state
  else refuse 0x50

def execCblMuxWrite (port state : Nat) (s : State) := s.does (onCable port (muxWrite port (state % 8)))

/-! ### The cable core and its policy image (R415 to R417) -/

/-- Key of a byte of the cable core's AON RAM in hub memory's map. -/
def aonBase : Nat := 2 ^ 50

/-- The policy block checks (R415, R127): PROFILE 1, MAGIC, LOAD and length within AON RAM, ROM_MIN, FLAGS, zeros, CRC. -/
def policyOk (img : List Byte) : Bool :=
  let load := fieldOf img 40 4
  let len := fieldOf img 12 4
  fieldOf img 0 4 == 0x47524E31 && fieldOf img 4 1 == 1 && fieldOf img 5 1 == 1 && len == img.length && decide (64 ≤ fieldOf img 8 4) &&
  decide (fieldOf img 8 4 + 8 + 16 * fieldOf img 6 2 ≤ len) && decide (1 ≤ fieldOf img 6 2) &&
  crc32 (img.take 28 ++ [0, 0, 0, 0] ++ img.drop 32) == fieldOf img 28 4 &&
  fieldOf img 32 4 == 0x43424C31 && decide (0x10000 ≤ load) && load % 4096 == 0 && decide (load + len ≤ 0x50000) &&
  decide (fieldOf img 44 2 ≤ Config.aonRomVersion) && fieldOf img 46 2 == 1 && ((img.drop 48).take 16).all (· == 0)

/-- Start address: entry record 0's word offset within the loaded image. -/
def policyStart (img : List Byte) : Nat := fieldOf img 40 4 + 4 * (fieldOf img (fieldOf img 8 4 + 8) 4)

/-- Epmas has authenticated the image of a slot, `image` with its signature block; no PD message sequence is in progress: the core
leaves the ROM policy or the previous image and starts it. The PD hardware keeps contracts, roles, modes and multiplexers. -/
def execPolicyHandover (slot : Nat) (image sig : List Byte) (s : State) := s.does (whenAon (.get fun s =>
  let svn := fieldOf image 36 4
  let hash := Config.sha384 image
  let trial := hash != s.cbl.confirmed
  .on (s.coreAlive && policyOk image && s.signatureOk 2 image sig && (List.range 6).all fun p => (s.cblPort p).ams == 0 && (s.cblPort p).req.isNone) (.all [
    .act (.memClear (aonBase + fieldOf image 40 4) (aonBase + fieldOf image 40 4 + image.length)),
    .act (.mem (aonBase + fieldOf image 40 4) image),
    .act (.cbl fun c => { c with
      svn := svn
      hash := hash
      start := policyStart image
      waiting := none
      trialAt := if trial then some s.clock else none }),
    setF .CBL_IMG_STATUS_SLOT (slot % 2), setB .CBL_IMG_STATUS_TRIAL trial, setF .CBL_IMG_STATUS_ROM 0,
    setF .CBL_IMG_STATUS_SVN (svn % 2 ^ 16),
    setCore 8 fun _ => { Core.reset with pc := policyStart image }])))

/-- The image on trial is to be replaced by the other slot's, at the next handover (R416 step 4). -/
def revert : Prog := .get fun s => .all [
  cblRec 0x0006 0xFF, setF .CBL_IMG_STATUS_TRIAL 0, setF .CBL_IMG_STATUS_SLOT (1 - s.raw .CBL_IMG_STATUS_SLOT),
  .act (.cbl fun c => { c with trialAt := none, waiting := some (1 - s.raw .CBL_IMG_STATUS_SLOT) })]

/-- CONFIRM of an image on trial: Epmas raises the rollback floor of policy images to its SVN (R416, R440). -/
def execPolicyConfirm (s : State) := s.does (whenAon (.get fun s =>
  .on (s.flag .CBL_IMG_STATUS_TRIAL) (.all [
    setF .CBL_IMG_STATUS_TRIAL 0, .act (.cbl fun c => { c with trialAt := none, confirmed := c.hash }),
    .on (decide (s.key.floors.getD 1 0 < s.cbl.svn)) (ledgerWrite fun k => { k with
      floors := [k.floors.getD 0 0, s.cbl.svn, k.floors.getD 2 0] })])))

def execTrialTimeout (s : State) := s.does (whenAon (.get fun s =>
  match s.cbl.trialAt with
  | some t => .on (s.flag .CBL_IMG_STATUS_TRIAL && decide (t + 5 * sec ≤ s.clock)) revert
  | none => .skip))

/-- CBL_IMG_CMD REVERT, for an image that has not confirmed. -/
def imgRevert : Prog := .get fun s => .on (s.flag .CBL_IMG_STATUS_TRIAL) revert

def execImgRevert (s : State) := s.does (whenAon imgRevert)

/-- After a double trap: an image on trial is replaced; any other restarts and replaces nothing (R416, R417). -/
def execCableCoreRestart (s : State) := s.does (whenAon (.get fun s =>
  match s.cbl.restartAt with
  | none => .skip
  | some _ => .all [
      cblRec 0x0005 0xFF, .act (.cbl fun c => { c with restartAt := none }),
      if s.flag .CBL_IMG_STATUS_TRIAL then revert
      else .seq (setCore 8 fun _ => { Core.reset with pc := s.cbl.start })
        (.each (List.range 6) fun p => .on ((s.cblPort p).req.isSome) (.seq (pd p pdSoftReset) (endReq p 6)))]))

end Sys2Proof.Machine
end

