-- ==== Sys2Proof/Machine/Operands.lean ====
section
/-! DEFINITION. The computations of grainer instructions on register values: arithmetic, bit fields, SCALE and FCVT
(R140 to R147). -/
namespace Sys2Proof.Machine

def divU (a b : Word) : Word := if b = 0 then BitVec.allOnes 64 else BitVec.udiv a b
def remU (a b : Word) : Word := if b = 0 then a else BitVec.umod a b
/-- Truncated toward zero; −1 for a zero divisor; −2^63 / −1 wraps to −2^63 (R140). -/
def divS (a b : Word) : Word := if b = 0 then BitVec.allOnes 64 else BitVec.ofInt 64 (a.toInt.tdiv b.toInt)
def remS (a b : Word) : Word := if b = 0 then a else BitVec.ofInt 64 (a.toInt.tmod b.toInt)

def shiftBy (kind : Nat) (a : Word) (n : Nat) : Word :=
  match kind with
  | 0 => a <<< n
  | 1 => a >>> n
  | 2 => a.sshiftRight n
  | _ => a.rotateRight n

/-- Shift amounts are rs2[5:0]. -/
def amount (b : Word) : Nat := b.toNat % 64

def bitLen : Nat → Nat → Nat
  | 0, _ => 0
  | f + 1, n => if n = 0 then 0 else 1 + bitLen f (n / 2)

def countLead (a : Word) : Word := BitVec.ofNat 64 (64 - bitLen 64 a.toNat)
def popCount (a : Word) : Word := BitVec.ofNat 64 ((List.range 64).filter fun i => a.toNat.testBit i).length

/-- Byte reversal of the low `n` bytes, zero-extended (R142). -/
def swapBytes (n : Nat) (a : Word) : Word := BitVec.ofNat 64 (leNat (leBytes n a.toNat).reverse)

def fieldMask (len : Nat) : Nat := 2 ^ len - 1
def extU (a : Word) (pos len : Nat) : Word := BitVec.ofNat 64 (bits a.toNat (pos + len - 1) pos)
def extS (a : Word) (pos len : Nat) : Word := BitVec.ofInt 64 (sgn len (bits a.toNat (pos + len - 1) pos))
def insField (old a : Word) (pos len : Nat) : Word := BitVec.ofNat 64 (putBits old.toNat pos len a.toNat)

/-- The value and the clip flag of SCALE (R146), exact until the final clip. -/
def scaleInt (x : Int) (mul : Int) (shift : Nat) (offset : Int) (w : Nat) (signedOut : Bool) : Int × Bool :=
  let r := (x * mul) / (2 ^ shift : Nat) + offset
  let lo : Int := if signedOut then -((2 ^ (w - 1) : Nat) : Int) else 0
  let hi : Int := if signedOut then (2 ^ (w - 1) : Nat) - 1 else (2 ^ w : Nat) - 1
  let y := min (max r lo) hi
  (y, y != r)

def scaleWord (a mulShift offset : Word) (w : BitVec 6) (so si : Bool) : Word × Bool :=
  let x : Int := if si then a.toInt else a.toNat
  let r := scaleInt x (sgn 32 (bits mulShift.toNat 31 0)) (bits mulShift.toNat 37 32) offset.toInt
    (if w = 0 then 64 else w.toNat) so
  (BitVec.ofInt 64 r.1, r.2)

/-! ### FCVT (R147) -/

/-- A binary format: exponent and fraction bits. -/
structure FFmt where
  eb : Nat
  fb : Nat
  deriving DecidableEq, Repr

def f16 : FFmt := ⟨5, 10⟩
def f32 : FFmt := ⟨8, 23⟩
def FFmt.bias (f : FFmt) : Nat := 2 ^ (f.eb - 1) - 1
def FFmt.size (f : FFmt) : Nat := 1 + f.eb + f.fb

/-- A number of IEEE 754: not a number, an infinity, or (−1)^neg · m · 2^e. -/
inductive FVal where
  | nan
  | inf (neg : Bool)
  | fin (neg : Bool) (m : Nat) (e : Int)
  deriving DecidableEq, Repr

def FFmt.read (f : FFmt) (n : Nat) : FVal :=
  let frac := n % 2 ^ f.fb
  let ex := bits n (f.fb + f.eb - 1) f.fb
  let neg := bit n (f.fb + f.eb)
  if ex = 2 ^ f.eb - 1 then (if frac = 0 then .inf neg else .nan)
  else if ex = 0 then .fin neg frac (1 - (f.bias : Int) - f.fb)
  else .fin neg (2 ^ f.fb + frac) ((ex : Int) - f.bias - f.fb)

/-- Round m · 2^e to an integer: 0 nearest even, 1 toward zero, 2 toward −∞, 3 toward +∞. -/
def roundMag (rnd : Nat) (neg : Bool) (m : Nat) (e : Int) : Nat :=
  if 0 ≤ e then m * 2 ^ e.toNat
  else
    let d := 2 ^ (-e).toNat
    let q := m / d
    let r := m % d
    let up := match rnd with
      | 0 => decide (d < 2 * r) || (decide (2 * r = d) && q % 2 == 1)
      | 1 => false
      | 2 => neg && r != 0
      | _ => !neg && r != 0
    if up then q + 1 else q

def FFmt.infBits (f : FFmt) (neg : Bool) : Nat := neg.toNat * 2 ^ (f.fb + f.eb) + (2 ^ f.eb - 1) * 2 ^ f.fb
def FFmt.maxBits (f : FFmt) (neg : Bool) : Nat := f.infBits neg - 1
def FFmt.nanBits (f : FFmt) : Nat := (2 ^ f.eb - 1) * 2 ^ f.fb + 2 ^ (f.fb - 1)

/-- The nearest number of a format under a rounding, overflow as the rounding requires. -/
def FFmt.round (f : FFmt) (rnd : Nat) (neg : Bool) (m : Nat) (e : Int) : Nat :=
  let s := neg.toNat * 2 ^ (f.fb + f.eb)
  if m = 0 then s
  else
    let top : Int := (bitLen 256 m : Int) - 1 + e
    let q0 : Int := max (top - f.fb) (1 - (f.bias : Int) - f.fb)
    let r0 := roundMag rnd neg m (e - q0)
    let carry := decide (2 ^ (f.fb + 1) ≤ r0)
    let r := if carry then r0 / 2 else r0
    let q : Int := if carry then q0 + 1 else q0
    if r < 2 ^ f.fb then s + r
    else if (f.bias : Int) < q + f.fb then
      (if rnd = 0 ∨ (rnd = 2 ∧ neg = true) ∨ (rnd = 3 ∧ neg = false) then f.infBits neg else f.maxBits neg)
    else s + (q + f.fb + f.bias).toNat * 2 ^ f.fb + (r - 2 ^ f.fb)

def clampInt (lo hi i : Int) : Int := min (max i lo) hi

/-- A source value by kind: 0 u64, 1 s64, 2 float16, 3 float32. -/
def fcvtSource (kind : Nat) (a : Word) : FVal :=
  match kind with
  | 0 => .fin false a.toNat 0
  | 1 => .fin (decide (a.toInt < 0)) a.toInt.natAbs 0
  | 2 => f16.read (a.toNat % 2 ^ 16)
  | _ => f32.read (a.toNat % 2 ^ 32)

def toIntRange (rnd : Nat) (lo hi : Int) : FVal → Int
  | .nan => 0
  | .inf neg => if neg then lo else hi
  | .fin neg m e => clampInt lo hi (if neg then -(roundMag rnd neg m e : Int) else roundMag rnd neg m e)

def toFloat (f : FFmt) (rnd : Nat) : FVal → Nat
  | .nan => f.nanBits
  | .inf neg => f.infBits neg
  | .fin neg m e => f.round rnd neg m e

def fcvtWord (src dst rnd : Nat) (a : Word) : Word :=
  if src = dst then (match src with
    | 2 => BitVec.ofNat 64 (a.toNat % 2 ^ 16)
    | 3 => BitVec.ofNat 64 (a.toNat % 2 ^ 32)
    | _ => a)
  else match dst with
  | 0 => BitVec.ofInt 64 (toIntRange rnd 0 (2 ^ 64 - 1) (fcvtSource src a))
  | 1 => BitVec.ofInt 64 (toIntRange rnd (-2 ^ 63) (2 ^ 63 - 1) (fcvtSource src a))
  | 2 => BitVec.ofNat 64 (toFloat f16 rnd (fcvtSource src a))
  | _ => BitVec.ofNat 64 (toFloat f32 rnd (fcvtSource src a))

end Sys2Proof.Machine
end

