-- ==== Sys2Proof/Machine/Alu.lean ====
section
/-! DEFINITION. Arithmetic, immediates, branches, bit fields, SCALE and FCVT (R140 to R147). -/
namespace Sys2Proof.Machine

/-- rd := f(rs1, rs2), and no other effect (R140). -/
def alu (m : Mach) (i : Instr) (cost : Nat) (rd rs1 rs2 : Reg) (f : Word → Word → Word) : Prog :=
  issueReg m i cost rd fun s => f (s.reg m rs1) (s.reg m rs2)

/-- rd := f(rs1). -/
def unary (m : Mach) (i : Instr) (cost : Nat) (rd rs1 : Reg) (f : Word → Word) : Prog :=
  issueReg m i cost rd fun s => f (s.reg m rs1)

def execAdd (m : Mach) (rd rs1 rs2 : Reg) (s : State) :=
  s.does (alu m (.add m rd rs1 rs2) 1 rd rs1 rs2 (fun a b => a + b))
def execSub (m : Mach) (rd rs1 rs2 : Reg) (s : State) :=
  s.does (alu m (.sub m rd rs1 rs2) 1 rd rs1 rs2 (fun a b => a - b))
def execGrnAnd (m : Mach) (rd rs1 rs2 : Reg) (s : State) :=
  s.does (alu m (.grnAnd m rd rs1 rs2) 1 rd rs1 rs2 (fun a b => a &&& b))
def execGrnOr (m : Mach) (rd rs1 rs2 : Reg) (s : State) :=
  s.does (alu m (.grnOr m rd rs1 rs2) 1 rd rs1 rs2 (fun a b => a ||| b))
def execGrnXor (m : Mach) (rd rs1 rs2 : Reg) (s : State) :=
  s.does (alu m (.grnXor m rd rs1 rs2) 1 rd rs1 rs2 (fun a b => a ^^^ b))
def execAndn (m : Mach) (rd rs1 rs2 : Reg) (s : State) :=
  s.does (alu m (.andn m rd rs1 rs2) 1 rd rs1 rs2 (fun a b => a &&& ~~~b))
def execSll (m : Mach) (rd rs1 rs2 : Reg) (s : State) :=
  s.does (alu m (.sll m rd rs1 rs2) 1 rd rs1 rs2 (fun a b => shiftBy 0 a (amount b)))
def execSrl (m : Mach) (rd rs1 rs2 : Reg) (s : State) :=
  s.does (alu m (.srl m rd rs1 rs2) 1 rd rs1 rs2 (fun a b => shiftBy 1 a (amount b)))
def execSra (m : Mach) (rd rs1 rs2 : Reg) (s : State) :=
  s.does (alu m (.sra m rd rs1 rs2) 1 rd rs1 rs2 (fun a b => shiftBy 2 a (amount b)))
def execRor (m : Mach) (rd rs1 rs2 : Reg) (s : State) :=
  s.does (alu m (.ror m rd rs1 rs2) 1 rd rs1 rs2 (fun a b => shiftBy 3 a (amount b)))
def execMul (m : Mach) (rd rs1 rs2 : Reg) (s : State) :=
  s.does (alu m (.mul m rd rs1 rs2) 2 rd rs1 rs2 (fun a b => a * b))
def execMulhu (m : Mach) (rd rs1 rs2 : Reg) (s : State) :=
  s.does (alu m (.mulhu m rd rs1 rs2) 2 rd rs1 rs2 (fun a b => BitVec.ofNat 64 (a.toNat * b.toNat / 2 ^ 64)))
def execMulh (m : Mach) (rd rs1 rs2 : Reg) (s : State) :=
  s.does (alu m (.mulh m rd rs1 rs2) 2 rd rs1 rs2 (fun a b => BitVec.ofInt 64 (a.toInt * b.toInt / (2 ^ 64 : Nat))))
def execDivu (m : Mach) (rd rs1 rs2 : Reg) (s : State) :=
  s.does (alu m (.divu m rd rs1 rs2) 8 rd rs1 rs2 divU)
def execDiv (m : Mach) (rd rs1 rs2 : Reg) (s : State) :=
  s.does (alu m (.div m rd rs1 rs2) 8 rd rs1 rs2 divS)
def execRemu (m : Mach) (rd rs1 rs2 : Reg) (s : State) :=
  s.does (alu m (.remu m rd rs1 rs2) 8 rd rs1 rs2 remU)
def execRem (m : Mach) (rd rs1 rs2 : Reg) (s : State) :=
  s.does (alu m (.rem m rd rs1 rs2) 8 rd rs1 rs2 remS)
def execMin (m : Mach) (rd rs1 rs2 : Reg) (s : State) :=
  s.does (alu m (.min m rd rs1 rs2) 1 rd rs1 rs2 (fun a b => if a.toInt ≤ b.toInt then a else b))
def execMax (m : Mach) (rd rs1 rs2 : Reg) (s : State) :=
  s.does (alu m (.max m rd rs1 rs2) 1 rd rs1 rs2 (fun a b => if a.toInt ≤ b.toInt then b else a))
def execMinu (m : Mach) (rd rs1 rs2 : Reg) (s : State) :=
  s.does (alu m (.minu m rd rs1 rs2) 1 rd rs1 rs2 (fun a b => if a.toNat ≤ b.toNat then a else b))
def execMaxu (m : Mach) (rd rs1 rs2 : Reg) (s : State) :=
  s.does (alu m (.maxu m rd rs1 rs2) 1 rd rs1 rs2 (fun a b => if a.toNat ≤ b.toNat then b else a))
def execClz (m : Mach) (rd rs1 : Reg) (s : State) := s.does (unary m (.clz m rd rs1) 1 rd rs1 countLead)
def execPopc (m : Mach) (rd rs1 : Reg) (s : State) := s.does (unary m (.popc m rd rs1) 1 rd rs1 popCount)
def execSwapH (m : Mach) (rd rs1 : Reg) (s : State) := s.does (unary m (.swapH m rd rs1) 1 rd rs1 (swapBytes 2))
def execSwapW (m : Mach) (rd rs1 : Reg) (s : State) := s.does (unary m (.swapW m rd rs1) 1 rd rs1 (swapBytes 4))
def execSwapD (m : Mach) (rd rs1 : Reg) (s : State) := s.does (unary m (.swapD m rd rs1) 1 rd rs1 (swapBytes 8))
def execAddi (m : Mach) (rd rs1 : Reg) (imm : BitVec 16) (s : State) :=
  s.does (unary m (.addi m rd rs1 imm) 1 rd rs1 fun a => a + imm.signExtend 64)
def execAndi (m : Mach) (rd rs1 : Reg) (imm : BitVec 16) (s : State) :=
  s.does (unary m (.andi m rd rs1 imm) 1 rd rs1 fun a => a &&& imm.zeroExtend 64)
def execOri (m : Mach) (rd rs1 : Reg) (imm : BitVec 16) (s : State) :=
  s.does (unary m (.ori m rd rs1 imm) 1 rd rs1 fun a => a ||| imm.zeroExtend 64)
def execXori (m : Mach) (rd rs1 : Reg) (imm : BitVec 16) (s : State) :=
  s.does (unary m (.xori m rd rs1 imm) 1 rd rs1 fun a => a ^^^ imm.zeroExtend 64)
def execShi (m : Mach) (rd rs1 : Reg) (kind : BitVec 2) (amt : BitVec 6) (s : State) :=
  s.does (unary m (.shi m rd rs1 kind amt) 1 rd rs1 fun a => shiftBy kind.toNat a amt.toNat)
/-- LIH replaces one quarter of rd (R141). -/
def execLih (m : Mach) (rd : Reg) (k : BitVec 2) (imm : BitVec 16) (s : State) :=
  s.does (unary m (.lih m rd k imm) 1 rd rd fun a => insField a (imm.zeroExtend 64) (16 * k.toNat) 16)

/-! ### Branches and jumps (R143) -/

/-- pc + 4 × a signed word count, in the machine's address space (R137). -/
def relTarget (m : Mach) (pc : Nat) (off : Int) : Nat :=
  let t : Int := pc + 4 * off
  match m with
  | .eng _ _ => (t % (2 ^ 64 : Nat)).toNat
  | _ => (t % (2 ^ 48 : Nat)).toNat

/-- A target must be word-aligned, and in the Data profile stay within the thread's image (R105, R137). -/
def targetCheck (m : Mach) (target : State → Nat) : Check := fun s =>
  let t := target s
  match m with
  | .eng e n =>
    let h := s.thread (threadKey e n)
    if t < h.lo ∨ h.hi ≤ t then some (2, t) else if t % 4 ≠ 0 then some (3, t) else none
  | _ => if t % 4 ≠ 0 then some (3, t) else none

def branch (m : Mach) (i : Instr) (off : BitVec 16) (taken : State → Bool) : Prog :=
  .get fun s =>
    if taken s then issue m i 1 (targetCheck m fun s => relTarget m (s.pc m) off.toInt)
      (.get fun s => setPc m (relTarget m (s.pc m) off.toInt))
    else issue m i 1 noCheck (stepPc m)

def execBeq (m : Mach) (ra rb : Reg) (off : BitVec 16) (s : State) :=
  s.does (branch m (.beq m ra rb off) off fun s => let a := s.reg m ra; let b := s.reg m rb; a == b)
def execBne (m : Mach) (ra rb : Reg) (off : BitVec 16) (s : State) :=
  s.does (branch m (.bne m ra rb off) off fun s => let a := s.reg m ra; let b := s.reg m rb; a != b)
def execBlt (m : Mach) (ra rb : Reg) (off : BitVec 16) (s : State) :=
  s.does (branch m (.blt m ra rb off) off fun s => let a := s.reg m ra; let b := s.reg m rb; decide (a.toInt < b.toInt))
def execBge (m : Mach) (ra rb : Reg) (off : BitVec 16) (s : State) :=
  s.does (branch m (.bge m ra rb off) off fun s => let a := s.reg m ra; let b := s.reg m rb; decide (b.toInt ≤ a.toInt))
def execBltu (m : Mach) (ra rb : Reg) (off : BitVec 16) (s : State) :=
  s.does (branch m (.bltu m ra rb off) off fun s => let a := s.reg m ra; let b := s.reg m rb; decide (a.toNat < b.toNat))
def execBgeu (m : Mach) (ra rb : Reg) (off : BitVec 16) (s : State) :=
  s.does (branch m (.bgeu m ra rb off) off fun s => let a := s.reg m ra; let b := s.reg m rb; decide (b.toNat ≤ a.toNat))
def execBeqi (m : Mach) (ra : Reg) (imm : BitVec 5) (off : BitVec 16) (s : State) :=
  s.does (branch m (.beqi m ra imm off) off fun s => s.reg m ra == imm.signExtend 64)
def execBnei (m : Mach) (ra : Reg) (imm : BitVec 5) (off : BitVec 16) (s : State) :=
  s.does (branch m (.bnei m ra imm off) off fun s => s.reg m ra != imm.signExtend 64)

/-- The link value: the address after the jump. -/
def linkOf (s : State) (m : Mach) : Word := BitVec.ofNat 64 (s.pc m + 4)

def jump (m : Mach) (i : Instr) (rd : Reg) (target : State → Nat) : Prog :=
  issue m i 1 (targetCheck m target) (.get fun s => .seq (wr m rd (linkOf s m)) (setPc m (target s)))

def execJal (m : Mach) (rd : Reg) (off : BitVec 21) (s : State) :=
  s.does (jump m (.jal m rd off) rd fun s => relTarget m (s.pc m) off.toInt)
/-- JALR reads rs1 before it writes rd. -/
def execJalr (m : Mach) (rd rs1 : Reg) (imm : BitVec 16) (s : State) :=
  s.does (jump m (.jalr m rd rs1 imm) rd fun s =>
    let t := (s.reg m rs1 + imm.signExtend 64).toNat
    match m with
    | .eng _ _ => t
    | _ => t % 2 ^ 48)

/-! ### Bit fields, SCALE, FCVT -/

def execExt (m : Mach) (rd rs1 : Reg) (pos len1 : BitVec 6) (s : State) :=
  s.does (unary m (.ext m rd rs1 pos len1) 1 rd rs1 fun a => extU a pos.toNat (len1.toNat + 1))
def execExts (m : Mach) (rd rs1 : Reg) (pos len1 : BitVec 6) (s : State) :=
  s.does (unary m (.exts m rd rs1 pos len1) 1 rd rs1 fun a => extS a pos.toNat (len1.toNat + 1))
def execIns (m : Mach) (rd rs1 : Reg) (pos len1 : BitVec 6) (s : State) :=
  s.does (alu m (.ins m rd rs1 pos len1) 1 rd rd rs1 fun old a => insField old a pos.toNat (len1.toNat + 1))

/-- SCALE (R146): the operands are read before the result pair is written. -/
def execScale (m : Mach) (rd rs1 rs2 : Reg) (w : BitVec 6) (so si cf : Bool) (s : State) :=
  s.does (issue m (.scale m rd rs1 rs2 w so si cf) 2 noCheck (.get fun s =>
    let r := scaleWord (s.reg m rs1) (s.reg m rs2) (s.reg m (rs2 + 1)) w so si
    .all [wr m rd r.1, .on cf (wrNext m rd (if r.2 then 1 else 0)), stepPc m]))

def execFcvt (m : Mach) (rd rs1 : Reg) (src dst rnd : BitVec 2) (s : State) :=
  s.does (unary m (.fcvt m rd rs1 src dst rnd) 2 rd rs1 (fcvtWord src.toNat dst.toNat rnd.toNat))

/-- A word that decodes to no instruction of the machine's profile is an illegal instruction (R138). A word that does decode
is no illegal instruction, and the command has no effect. -/
def execIllegalInstruction (m : Mach) (word : BitVec 32) (s : State) := s.does (.on (s.ready m && (decodeGrn m word).isNone)
  (match m with
    | .eng e t => grnFault (threadKey e t) 4 word.toNat
    | _ => takeTrap m (s.pc m) 1 word.toNat))

end Sys2Proof.Machine
end

