-- ==== Sys2Proof/Machine/BridgeOps.lean ====
section
/-! DEFINITION. What the bridge does (R319 to R346): TLPs, requests with tag, slot and buffer, the region table, the error FIFO of
posted writes, mailboxes and CTL parcels. PRESUMED (log entry 50): TLPs have the layout of the PCI Express Base Specification. -/
namespace Sys2Proof.Machine

/-! ### TLPs -/

def beNat (bs : List Byte) : Nat := leNat bs.reverse
def tlpFmt (b : List Byte) := bits (fieldOf b 0 1) 7 5
def tlpType (b : List Byte) := bits (fieldOf b 0 1) 4 0
/-- Four-doubleword header; data follow it. -/
def tlpBig (b : List Byte) : Bool := bit (tlpFmt b) 0
def tlpHasData (b : List Byte) : Bool := bit (tlpFmt b) 1
def tlpDws (b : List Byte) : Nat :=
  let n := bits (fieldOf b 2 1) 1 0 * 256 + fieldOf b 3 1
  if n = 0 then 1024 else n
def tlpRid (b : List Byte) := beNat ((b.drop 4).take 2)
def tlpTag (b : List Byte) := fieldOf b 6 1 + bits (fieldOf b 1 1) 3 3 * 256 + bits (fieldOf b 1 1) 7 7 * 512
def tlpAddr (b : List Byte) := beNat ((b.drop 8).take (if tlpBig b then 8 else 4)) / 4 * 4
def tlpData (b : List Byte) := b.drop (if tlpBig b then 16 else 12)
def tlpPoisoned (b : List Byte) : Bool := bit (fieldOf b 2 1) 6
def tlpMemory (b : List Byte) : Bool := tlpType b == 0
def tlpCompletion (b : List Byte) : Bool := tlpType b == 0x0A || tlpType b == 0x0B
def tlpPosted (b : List Byte) : Bool := (tlpMemory b && tlpHasData b) || decide (0x10 ≤ tlpType b)
/-- FetchAdd, Swap, CAS. -/
def tlpAtomic (b : List Byte) : Bool := tlpType b == 0x0C || tlpType b == 0x0D || tlpType b == 0x0E
/-- MRdLk and I/O requests, which are completed with UR (R320). -/
def tlpUnsupported (b : List Byte) : Bool := tlpType b == 1 || tlpType b == 2

/-- Byte `i` of a memory request is enabled. -/
def tlpEnabled (b : List Byte) (i : Nat) : Bool :=
  let be := fieldOf b 7 1
  if i < 4 then be.testBit i else if i / 4 + 1 = tlpDws b then be.testBit (4 + i % 4) else true

/-- The same request with another address. -/
def withAddr (b : List Byte) (a : Nat) : List Byte :=
  tlpHead (if tlpHasData b then 2 else 0) (tlpType b) (tlpDws b % 1024) (tlpRid b) (tlpTag b) (fieldOf b 7 1) a ++ tlpData b

/-- The same request under the hub's own requester ID 0 and a tag of the hub (R325). -/
def retag (b : List Byte) (tag : Nat) : List Byte :=
  let b1 := fieldOf b 1 1
  b.take 1 ++ [BitVec.ofNat 8 (b1 - bits b1 7 7 * 128 - bits b1 3 3 * 8 + bits tag 9 9 * 128 + bits tag 8 8 * 8)] ++
    (b.drop 2).take 2 ++ [0, 0, BitVec.ofNat 8 tag] ++ b.drop 7

/-- A completion: 0 successful, 1 UR, 4 CA; `left` the bytes still to come with this one, `lower` the low address bits. -/
def completionTlp (rid tag status left lower : Nat) (data : List Byte) : List Byte :=
  let dws := ceilDiv data.length 4
  [if data.isEmpty then 0x0A else 0x4A, BitVec.ofNat 8 (bits tag 9 9 * 128 + bits tag 8 8 * 8), BitVec.ofNat 8 (bits dws 9 8),
    BitVec.ofNat 8 dws, 0, 0] ++ beBytes 2 (status * 2 ^ 13 + left % 4096) ++ beBytes 2 rid ++
    [BitVec.ofNat 8 tag, BitVec.ofNat 8 (lower % 128)] ++ data

def cplStatus (b : List Byte) : Nat := bits (fieldOf b 6 1) 7 5
def cplTag (b : List Byte) : Nat := fieldOf b 10 1 + bits (fieldOf b 1 1) 3 3 * 256 + bits (fieldOf b 1 1) 7 7 * 512
def cplRid (b : List Byte) : Nat := beNat ((b.drop 8).take 2)

/-- A completion with a status sent on link `n`; those with UR are counted. -/
def refuseTlp (n status : Nat) (b : List Byte) : Prog := .all [
  .on (status == 1) (bump .PCI_UR_SENT_COUNT n),
  emitOut .tlp [n] (completionTlp (tlpRid b) (tlpTag b) status 4 (tlpAddr b) [])]

/-- Largest payload of a link (R350). -/
def State.maxPayload (s : State) (n : Nat) : Nat := 128 * 2 ^ min 2 (s.fld .PCI_MPS_MPS n)

/-- Memory writes that carry bytes to an address, none across a multiple of the largest payload. -/
def writeTlps (mps : Nat) : Nat → Nat → List Byte → List (List Byte)
  | 0, _, _ => []
  | f + 1, a, bs =>
    let n := mps - a % mps
    if bs.isEmpty then [] else writeTlp a (bs.take n) :: writeTlps mps f (a + n) (bs.drop n)

/-! ### Mailboxes and CTL parcels (R248, R344) -/

def State.chainPos (s : State) : Nat := s.raw .SYS_STATE_CHAIN_POS

/-- The port towards a position of the chain: upstream when it lies below this hub's (R248). -/
def State.portTowards (s : State) (target : Nat) : Option Nat :=
  (List.range 6).find? fun p => s.peerOk p && !(s.tunPort p).closed && (bit (s.raw .SYS_HOLD_CFG_UPSTREAM) p == decide (target < s.chainPos))

/-- A CTL parcel's payload from byte 4 on. -/
def ctlBody (target mailbox : Nat) (reply : Bool) (origin : Nat) (data : List Byte) : List Byte :=
  [BitVec.ofNat 8 target, BitVec.ofNat 8 mailbox, if reply then 1 else 0, BitVec.ofNat 8 origin] ++ data

/-- Send a CTL parcel towards its target; with no port that leads there it is lost. -/
def sendCtl (token hops target : Nat) (body : List Byte) : Prog :=
  .get fun s => match s.portTowards target with
  | some p => sendLmp p 0x50 token hops body
  | none => .skip

/-- A request enters a mailbox's request ring, with the BRG interrupt; a full ring drops it (R344). -/
def mboxPut (m origin ident : Nat) (data : List Byte) : Prog :=
  .get fun s =>
    let a := s.mailArea + m * 0x1_0000
    let head := s.load a 4 % 127
    if (head + 1) % 127 = s.load (a + 4) 4 % 127 then logRec 0x30 0x0008 2 none m
    else
      let body := data.take 248
      .all [
        store (a + 0x100 + 256 * head) (leBytes 2 body.length ++ [BitVec.ofNat 8 origin, 0] ++ leBytes 4 ident ++ body ++
          List.replicate (248 - body.length) 0),
        store a (leBytes 4 ((head + 1) % 127)), raiseIrq 0x30]

/-! ### Posted-write errors (R330, R331) -/

/-- A posted write is dropped: SOURCE, CAUSE, its channel, and the cable port its parcel arrived on. -/
def pwErr (addr source cause chan : Nat) (via : Option Nat := none) : Prog :=
  .get fun s => .all [
    if s.brg.pwerr.length < 16 then .all [
      .act (.brg fun b => { b with pwerr := b.pwerr ++ [⟨addr % 2 ^ 48, source, cause, chan, s.moment⟩] }),
      .on (s.flag .BRG_PWERR_VEC_EN) (raiseVector (s.raw .BRG_PWERR_VEC_CTRL) (s.raw .BRG_PWERR_VEC_VECTOR)),
      raiseIrq 0x30]
    else .on (!s.flag .BRG_PWERR_STATUS_OVERFLOW) (.all [
      setF .BRG_PWERR_STATUS_OVERFLOW 1, logRec 0x30 0x0001 2 none (addr + chan * 2 ^ 64)]),
    match via with
    | some p => sendLmp p 0x50 (s.tunPort p).token 3 (ctlBody (match (s.tunPort p).hello with | some h => h.pos | none => 0) 31 false s.chainPos
        ([BitVec.ofNat 8 p, BitVec.ofNat 8 cause, 0, 0, 0, 0, 0, 0] ++ leBytes 8 addr ++ leBytes 4 chan))
    | none => .skip]

/-- What a peer reports: the entry names this hub's own sending channel for the link and the remote channel. -/
def remoteError (p : Nat) (data : List Byte) : Prog :=
  .get fun s =>
    let r := bits (fieldOf data 16 4) 16 0
    let c := (s.chans.find? fun c => eLink (s.entry c) == p && eRemote (s.entry c) == r).getD 0
    pwErr (fieldOf data 8 8) 6 5 c

/-! ### The region table (R335) -/

def State.regionBase (s : State) (r : Nat) : Nat := s.raw .BRG_REGION_BASE 0 r * 2 ^ 12
def State.regionEnd (s : State) (r : Nat) : Nat := s.regionBase r + 2 ^ s.raw .BRG_REGION_SIZE 0 r
def State.inRegion (s : State) (r a n : Nat) : Bool := decide (s.regionBase r ≤ a) && decide (a + n ≤ s.regionEnd r)
/-- The lowest-numbered entry that contains an address. -/
def State.regionOf (s : State) (a : Nat) : Option Nat := (List.range 64).find? fun r => s.inRegion r a 1
def State.regionTarget (s : State) (r a : Nat) : Nat := (s.raw .BRG_REGION_TARGET 0 r + (a - s.regionBase r)) % 2 ^ 64
def regionFloor : Nat := 0x20_0000_0000

/-! ### Requests (R323 to R325) -/

/-- Primary of the link of a region. -/
def State.regionLink (s : State) (r : Nat) : Nat := bondPrimary (s.raw .BRG_CFG_BOND) (s.raw .BRG_REGION_CTRL 0 r)

def State.instLimit (s : State) (inst : Nat) : Nat :=
  if inst = 4 then s.fld .HRV_INST_MAX_MAX 0 4
  else min 1024 ((bondMembers (s.raw .BRG_CFG_BOND) inst).foldl (fun n i => n + s.fld .HRV_INST_MAX_MAX 0 i) 0)

/-- The instance may take a harvest slot (R114, R319). -/
def State.instFree (s : State) (inst : Nat) : Bool :=
  decide (s.slotsUsed < 4096) && decide (s.instUsed inst < s.instLimit inst) &&
  decide (s.slotsUsed - s.orderedUsed < 4096 - s.raw .HRV_CFG_ORDERED_RESERVE)

def State.reqsOf (s : State) (inst : Nat) : List BrgReq := s.brg.reqs.filter fun r => r.inst == inst
def State.tagsUsed (s : State) (inst : Nat) : List Nat := (s.reqsOf inst).filterMap (·.tag)
def State.freeTag (s : State) (inst : Nat) : Option Nat :=
  (List.range (if s.flag .PCI_STATUS_TAG10 inst then 1024 else 256)).find? fun t => !(s.tagsUsed inst).contains t
def State.bufferFree (s : State) (inst n : Nat) : Bool :=
  decide (((s.reqsOf inst).filter fun r => r.tag.isSome).foldl (fun k r => k + r.len) 0 + n ≤
    262144 * (bondMembers (s.raw .BRG_CFG_BOND) inst).length)

/-- Tag, slot and buffer space are to be had (R323). -/
def State.canIssue (s : State) (r : BrgReq) : Bool :=
  (s.freeTag r.inst).isSome && s.instFree r.inst && s.bufferFree r.inst r.len

/-- A non-posted request joins its instance's queue; one that cannot be issued at once is counted. -/
def newRequest (r : BrgReq) : Prog :=
  .get fun s => .seq
    (.on (!s.canIssue r || (s.reqsOf r.inst).any fun x => x.tag.isNone) (bump .PCI_TAGS_WAITS r.inst))
    (.act (.brg fun b => { b with reqs := b.reqs ++ [r] }))

/-- Replace a request by its changed form, or take it away. -/
def updRequest (r : BrgReq) (f : Option BrgReq) : Prog :=
  .act (.brg fun b => { b with reqs := match f with
    | some x => b.reqs.map fun y => if y = r then x else y
    | none => b.reqs.erase r })

/-- The oldest request of an instance that waits is issued when it holds all three (R323). -/
def issueRequest (inst : Nat) : Prog :=
  .get fun s =>
    match (s.reqsOf inst).find? fun r => r.tag.isNone with
    | none => .skip
    | some r =>
      .on (s.flag .PCI_STATUS_LINK_UP inst && s.dev.st != .safe && s.canIssue r) (
        takeSlot (fun s => { blankSlot with inst := inst, chan := r.chan, moment := s.moment, since := s.clock }) fun n =>
          let tag := (s.freeTag inst).getD 0
          let m := r.mark.map fun m => { m with passed := (ptBrgReq inst, s.moment) :: m.passed }
          .all [
            updRequest r (some { r with tag := some tag, slot := some n, mark := m }),
            match r.mark with
            | some m => passPoint (ptBrgReq inst) 0 0 m fun _ => .skip
            | none => withStamp (ptBrgReq inst) fun _ => .skip,
            emitOut .tlp [inst] (retag r.tlp tag)])

def machOfKey (n : Nat) : Mach := if n = 12 then .secure else .ctl n

/-- A core's load completes. -/
def coreLoaded (n rd size : Nat) (sign : Bool) (data : List Byte) : Prog :=
  .get fun s =>
    let m := machOfKey n
    match s.waitOf m with
    | .bus _ _ _ => .all [writeReg m rd (loadValue (BitVec.ofNat 2 size) sign (leNat (data.take (2 ^ size)))), setWait m .none, stepPc m]
    | _ => .skip

/-- A core's access fails: bus error (R122). -/
def coreFailed (n addr : Nat) : Prog :=
  .get fun s =>
    let m := machOfKey n
    match s.waitOf m with
    | .bus _ _ _ => busTrap m addr
    | _ => .skip

/-- A completion goes back to the link or the tunnel its request came from (R325). -/
def returnCompletion (r : BrgReq) (group : Nat) (tlp : List Byte) : Prog :=
  if 9 ≤ group then emitOut .tlp [group - 9] tlp
  else ingress {
    group := gPci r.inst
    port := 0
    chan := r.chan
    kind := 2
    bytes := tlp
    length := tlp.length
    whole := true
    bad := false
    opened := false
    rsv := true
    link := none
    passed := (match r.mark with | some m => m.passed | none => []) }

/-- A request ends without success: the outcome of R329. -/
def failRequest (r : BrgReq) : Prog := .all [
  updRequest r none,
  match r.slot with | some n => dropSlot n | none => .skip,
  match r.src with
  | .core n _ _ _ => coreFailed n r.addr
  | .link group rid tag => if 9 ≤ group then emitOut .tlp [group - 9] (completionTlp rid tag 4 4 r.addr []) else countDrop r.chan
  | .nobody => .skip]

/-- Bytes that a load fetched beyond its own are kept for 4 µs (R336). -/
def keepAhead (r : BrgReq) (used : Nat) (bs : List Byte) : Prog :=
  .get fun s => .on (!bs.isEmpty)
    (.act (.brg fun b => { b with ahead := b.ahead ++ [⟨(s.regionOf r.addr).getD 0, r.addr + used, bs, s.clock⟩] }))

/-- Completion bytes arrive for a tag (R325, R329). -/
def completion (inst tag status : Nat) (data : List Byte) : Prog :=
  .get fun s => match (s.reqsOf inst).find? fun r => r.tag == some tag with
  | none => .all [bump .PCI_LATE_CPL_COUNT inst, logLim (0x31 + inst) 0x0004 2 inst ms none (tag % 256 + tag / 256 * 256)]
  | some r =>
    .seq (match r.mark with
      | some m => passPoint (ptBrgCpl inst) 0 0 m fun _ => .skip
      | none => withStamp (ptBrgCpl inst) fun _ => .skip)
    (if status ≠ 0 then failRequest r
    else
      let got := r.got ++ data
      let done := decide (r.len ≤ got.length)
      .all [
        match r.src with
        | .link group rid t => returnCompletion r group (completionTlp rid t 0 (r.len - r.got.length) (r.addr + r.got.length) data)
        | _ => .skip,
        if done then .all [
          updRequest r none,
          match r.slot with | some n => dropSlot n | none => .skip,
          match r.src with
          | .core n rd size sign =>
            let body := got.drop (r.addr % 4)
            .seq (coreLoaded n rd size sign body) (keepAhead r (2 ^ size) (body.drop (2 ^ size)))
          | _ => .skip]
        else updRequest r (some { r with got := got })])

/-- A bridge request's slot has not been released in time (R116, R329). -/
def timeoutRequest (slot : Nat) : Prog :=
  .get fun s => match s.brg.reqs.find? fun r => r.slot == some slot with
  | none => .skip
  | some r => .all [
      failRequest r,
      bump .PCI_CPL_TIMEOUTS_COUNT r.inst,
      logLim (0x31 + r.inst) 0x0003 2 r.inst ms none ((r.tag.getD 0) % 256 + (r.tag.getD 0) / 256 * 256)]

/-! ### The local bus (R345, R346) -/

def locWindow (target : Nat) : Nat := bits target 23 20

def newLoc (r : LocReq) : Prog := .act (.brg fun b => { b with loc := b.loc ++ [r] })

/-- A window read ends without success. -/
def failLoc (r : LocReq) : Prog := .all [
  match r.slot with | some n => dropSlot n | none => .skip,
  match r.src with
  | .core n _ _ _ => coreFailed n (r.offset)
  | .link group rid tag => if 9 ≤ group then emitOut .tlp [group - 9] (completionTlp rid tag 4 4 r.offset []) else countDrop r.chan
  | .nobody => .skip]

/-- A window read delivers its bytes. -/
def locLoaded (r : LocReq) (data : List Byte) : Prog := .all [
  match r.slot with | some n => dropSlot n | none => .skip,
  match r.src with
  | .core n rd size sign => coreLoaded n rd size sign data
  | .link group rid tag => if 9 ≤ group then emitOut .tlp [group - 9] (completionTlp rid tag 0 r.len r.offset data) else .skip
  | .nobody => .skip]

/-! ### Accesses through the region table -/

/-- SOURCE of the error FIFO for a cause found on a link, and so on, is the writer's: 0 to 3 a link, 4 the local bus, 5 a mover, 6 a
tunnel. A write by a core counts as source 4 (log entry 51). -/
def coreSource : Nat := 4

/-- A posted write to an address that the region table decodes (R330, R335); with no region the record of R51 is written too. -/
def writeThrough (a : Nat) (bs : List Byte) (source chan : Nat) (via : Option Nat := none) : Prog :=
  .get fun s => match s.regionOf a with
  | none => .seq (logRec 0x01 0xF003 2 none a) (pwErr a source 1 chan via)
  | some r =>
    let t := s.regionTarget r a
    let n := s.regionLink r
    let k := s.raw .BRG_REGION_KIND 0 r
    if k = 0 then pwErr a source 1 chan via
    else if !s.flag .BRG_REGION_WRITE 0 r then pwErr a source 2 chan via
    else if k = 1 then
      (if s.flag .PCI_STATUS_LINK_UP n then .each (writeTlps (s.maxPayload n) bs.length t bs) fun x => emitOut .tlp [n] x
       else pwErr a source 3 chan via)
    else if k = 2 then
      (if s.flag .PCI_STATUS_LINK_UP n then newRequest ⟨n, .nobody, a, 0,
          [0x44, 0, 0, 1, 0, 0, 0, BitVec.ofNat 8 (byteEnables t bs.length)] ++ beBytes 2 (bits t 27 12) ++
            beBytes 2 (t % 4096 / 4 * 4) ++ List.replicate (t % 4) 0 ++ bs ++ List.replicate (4 - t % 4 - bs.length) 0,
          chan, none, none, [], none⟩
       else pwErr a source 3 chan via)
    else if k = 3 then .seq (.on (!s.inDram (dramBase + t) bs.length) (logRec 0x01 0xF003 2 none a)) (store (dramBase + t) bs)
    else newLoc ⟨locWindow t, t % 2 ^ 20, a - s.regionBase r, bs, bs.length, true, .nobody, chan, none, s.clock⟩

/-- Bytes fetched ahead that still serve a read, and the entry they come from. -/
def State.aheadOf (s : State) (a n : Nat) : Option (Prefetched × List Byte) :=
  (s.brg.ahead.find? fun p => decide (p.addr ≤ a) && decide (a + n ≤ p.addr + p.bytes.length) &&
    decide (s.clock ≤ p.since + 4 * us)).map fun p => (p, (p.bytes.drop (a - p.addr)).take n)

/-- Bytes beyond a read that are fetched with it: not past the region's end, a 4 KiB boundary or 128 bytes in all. -/
def State.aheadLen (s : State) (r a n : Nat) : Nat :=
  if s.flag .BRG_REGION_PREFETCH 0 r then
    min (min (2 ^ s.raw .BRG_REGION_PF_LOG2 0 r) (s.regionEnd r - (a + n))) (min (4096 - (a + n) % 4096) (128 - n))
  else 0

/-- The request of a read of `len` bytes at `a` in a region of memory or configuration space; `all` counts bytes read ahead. -/
def State.loadRequest (s : State) (src : Requester) (r a len all : Nat) : BrgReq :=
  let t := s.regionTarget r a
  if s.raw .BRG_REGION_KIND 0 r = 1 then
    ⟨s.regionLink r, src, a, 4 * ceilDiv (t % 4 + all) 4, tlpHead 0 0 (ceilDiv (t % 4 + all) 4) 0 0 (byteEnables t all) t,
      0, none, none, [], none⟩
  else
    ⟨s.regionLink r, src, a, 4,
      [0x04, 0, 0, 1, 0, 0, 0, BitVec.ofNat 8 (byteEnables t len)] ++ beBytes 2 (bits t 27 12) ++ beBytes 2 (t % 4096 / 4 * 4),
      0, none, none, [], none⟩

/-- A load of a core from the region table: bytes at once, bytes later, or a bus error. -/
def regionLoad (n a len rd size : Nat) (sign : Bool) (now : List Byte → Prog) (fail : Prog) : Prog :=
  .get fun s => match s.regionOf a with
  | none => fail
  | some r =>
    let t := s.regionTarget r a
    let p := s.regionLink r
    let k := s.raw .BRG_REGION_KIND 0 r
    let wait := setWait (machOfKey n) (.bus rd size sign)
    let src : Requester := .core n rd size sign
    if k = 0 ∨ !s.flag .BRG_REGION_READ 0 r then fail
    else if k = 3 then now (if s.inDram (dramBase + t) len then s.mem.reads (dramBase + t) len else List.replicate len 0)
    else if k = 4 then .seq wait (newLoc ⟨locWindow t, t % 2 ^ 20, a - s.regionBase r, [], len, false, src, 0, none, s.clock⟩)
    else match s.aheadOf a len with
    | some (p, bs) => .seq (now bs) (.act (.brg fun b => { b with ahead := (b.ahead.map fun q =>
        if q = p ∧ q.addr = a then { q with addr := a + len, bytes := q.bytes.drop len } else q).filter fun q => !q.bytes.isEmpty }))
    | none =>
      if !s.flag .PCI_STATUS_LINK_UP p || s.dev.st == .safe then fail
      else .seq wait (newRequest (s.loadRequest src r a len (if k = 1 then len + s.aheadLen r a len else len)))

/-- A region cannot be read now: off, READ 0, or its link is down. -/
def State.regionShut (s : State) (r : Nat) : Bool :=
  let k := s.raw .BRG_REGION_KIND 0 r
  k == 0 || !s.flag .BRG_REGION_READ 0 r || ((k == 1 || k == 2) && (!s.flag .PCI_STATUS_LINK_UP (s.regionLink r) || s.dev.st == .safe))

/-- The same for a write. -/
def State.regionSealed (s : State) (r : Nat) : Bool :=
  let k := s.raw .BRG_REGION_KIND 0 r
  k == 0 || !s.flag .BRG_REGION_WRITE 0 r || ((k == 1 || k == 2) && !s.flag .PCI_STATUS_LINK_UP (s.regionLink r))

/-- One piece of a longer read of a region by a core (R159, R161): its request goes out, and the bytes are free (log entry 65). -/
def regionPiece (a len : Nat) (k : List Byte → Prog) : Prog :=
  .get fun s => match s.regionOf a with
  | none => k (List.replicate len 0)
  | some r =>
    let t := s.regionTarget r a
    let kind := s.raw .BRG_REGION_KIND 0 r
    let later : Prog := withFree (2 ^ (8 * len)) fun v => k (leBytes len v)
    if kind = 3 then k (s.mem.reads (dramBase + t) len)
    else if kind = 4 then .seq (newLoc ⟨locWindow t, t % 2 ^ 20, a - s.regionBase r, [], len, false, .nobody, 0, none, s.clock⟩) later
    else .seq (newRequest (s.loadRequest .nobody r a len len)) later

/-! ### Units that leave on a PCI Express link -/

/-- The address that a unit of a MEM channel reaches through the channel's region; other units keep theirs. -/
def State.leavingTlp (s : State) (f : Flow) (b : List Byte) : List Byte :=
  let r := eParam f.entry 44 1 % 64
  if eType f.entry = tyMem ∧ s.inRegion r (tlpAddr b) 1 ∧ regionFloor ≤ tlpAddr b then withAddr b (s.regionTarget r (tlpAddr b)) else b

/-- A unit is delivered to link `n`: posted TLPs and completions leave, requests wait for tag, slot and buffer (R323, R325). -/
def deliverTlp (n : Nat) (f : Flow) : Prog :=
  .get fun s =>
    let b := s.leavingTlp f f.leaving
    let r := eParam f.entry 44 1 % 64
    let mem := eType f.entry == tyMem && tlpMemory b
    let via := if f.group < 6 then some f.group else none
    let source := if f.group < 6 then 6 else if 9 ≤ f.group then f.group - 9 else coreSource
    let data := 4 * tlpDws b
    let ask : BrgReq := ⟨n, .link f.group (tlpRid b) (tlpTag b), tlpAddr b, if tlpType b = 0 ∨ tlpAtomic b then data else 4, b, f.chan, none,
      none, [], some f.mark⟩
    if tlpPosted b then
      (if mem ∧ !s.flag .BRG_REGION_WRITE 0 r then pwErr (tlpAddr f.leaving) source 2 f.chan via
       else if !s.flag .PCI_STATUS_LINK_UP n then pwErr (tlpAddr b) source 3 f.chan via
       else emitOut .tlp [n] b)
    else if tlpCompletion b then emitOut .tlp [n] b
    else if mem ∧ !s.flag .BRG_REGION_READ 0 r then failRequest ask
    else newRequest { ask with len := if tlpType b = 0x0E then data / 2 else ask.len }

end Sys2Proof.Machine
end

