-- ==== Sys2Proof/Machine/EthOps.lean ====
section
/-! DEFINITION. Ethernet ports: sluice lists and guard bands (R303 to R307), class credits and slot shapers (R308 to R310), frames
(R296) and gPTP messages (R299). -/
namespace Sys2Proof.Machine

def blankEth : EthPort where
  listLen := 0
  changeAt := none
  classBad := false
  ptp := []
  syncSeq := 0
  pdelaySeq := 0
  syncAt := 0
  pdelayAt := 0
  announceAt := 0
  t1 := 0
  t2 := 0
  t4 := 0
  prev := none
  delay := 0
  syncRx := none
  capable := false
  slow := false

def State.ethPort (s : State) (n : Nat) : EthPort := (s.eth.get? n).getD blankEth
def setEth (n : Nat) (f : EthPort → EthPort) : Prog := .act (.eth fun m => m.put n (f ((m.get? n).getD blankEth)))

/-- The port sends and receives: enabled, its link up. -/
def State.ethUp (s : State) (n : Nat) : Bool := s.flag .ETH_STATUS_LINK n && s.flag .ETH_CFG_ENABLE n

/-- Port rate in kb/s by ETH_STATUS.SPEED (R315). -/
def ethKbps : Nat → Nat
  | 0 => 10000
  | 1 => 100000
  | 2 => 1000000
  | 3 => 10000000
  | _ => 25000000

def State.ethRate (s : State) (n : Nat) : Nat := ethKbps (s.raw .ETH_STATUS_SPEED n)

/-! ### Sluice lists (R303, R306) -/

/-- A list: gating, base, cycle and the entries as gates and length; times in ticks. -/
structure Sluice where
  en : Bool
  base : Nat
  cycle : Nat
  entries : List (Nat × Nat)
  deriving DecidableEq, Repr

/-- The list in force. -/
def State.operList (s : State) (n : Nat) : Sluice where
  en := s.flag .ETH_SLU_STATUS_OPER_EN n
  base := s.raw .ETH_SLU_OPER_BASE_BASE n
  cycle := 4 * s.raw .ETH_SLU_OPER_CYCLE_CYCLE_NS n
  entries := (List.range (s.ethPort n).listLen).map fun e =>
    let v := s.raw .ETH_SLU_OPER_ENTRY n e
    (v % 256, 4 * (v / 256))

/-- The admin list, as it will start at a ConfigChangeTime. -/
def State.adminList (s : State) (n at_ : Nat) : Sluice where
  en := s.next .ETH_SLU_CFG_GATE_EN n == 1
  base := at_
  cycle := 4 * s.next .ETH_SLU_CYCLE_CYCLE_NS n
  entries := (List.range (s.next .ETH_SLU_CFG_LIST_LEN n)).map fun e =>
    (s.next .ETH_SLU_LIST_GATES n e, 4 * s.next .ETH_SLU_LIST_INTERVAL_NS n e)

/-- Where position `pos` of a cycle falls: gates, ticks to the next boundary, entry. `start` is where the first entry given
begins; the last one holds until the cycle ends. -/
def entryAt (cycle pos : Nat) : Nat → Nat → List (Nat × Nat) → Nat × Nat × Nat
  | _, _, [] => (0xFF, 1, 0)
  | _, i, [(g, _)] => (g, cycle - pos, i)
  | start, i, (g, d) :: t => if pos < start + d then (g, min (start + d) cycle - pos, i) else entryAt cycle pos (start + d) (i + 1) t

/-- Position of an instant in its cycle; cycles start at base + k · cycle for every integer k. -/
def Sluice.position (l : Sluice) (t : Nat) : Nat := (((t : Int) - l.base) % l.cycle).toNat

/-- Gates at an instant, ticks until they may change (none: never), and the entry. -/
def Sluice.at (l : Sluice) (t : Nat) : Nat × Option Nat × Nat :=
  if !l.en || l.cycle == 0 || l.entries.isEmpty then (0xFF, none, 0)
  else
    let r := entryAt l.cycle (l.position t) 0 0 l.entries
    (r.1, some (max 1 r.2.1), r.2.2)

/-- The same with a change that is pending, the cycle before it extended or cut (R306). -/
def State.gatesAt (s : State) (n t : Nat) : Nat × Option Nat × Nat :=
  let l := s.operList n
  match (s.ethPort n).changeAt with
  | none => l.at t
  | some c =>
    if c ≤ t then (s.judged.adminList n c).at t
    else
      let left := c - t
      let lastStart := c - l.position c
      let stretched := l.en && l.cycle != 0 && decide (l.position c < 4 * s.raw .ETH_SLU_EXT_EXT_NS n) && decide (lastStart ≤ t)
      if stretched then ((l.entries.getLast?.map (·.1)).getD 0xFF, some left, l.entries.length - 1)
      else
        let r := l.at t
        (r.1, some (match r.2.1 with | some d => min d left | none => left), r.2.2)

/-- The gate of a class stays open for `d` ticks from `t` on. -/
def State.openFor (s : State) (n tc : Nat) : Nat → Nat → Nat → Bool
  | 0, _, _ => false
  | f + 1, t, d =>
    let r := s.gatesAt n t
    r.1.testBit tc && (match r.2.1 with
      | none => true
      | some k => if d ≤ k then true else State.openFor s n tc f (t + k) (d - k))

/-- Ticks that `g` frame bytes occupy the line, with the guard margin (R304). -/
def State.guardTicks (s : State) (n g : Nat) : Nat :=
  ceilDiv ((g + 20) * 8 * 4000000) (s.ethRate n) + 4 * s.fld .ETH_GUARD_MARGIN_NS n

/-- A unit of guard length `g` may start now (R304). -/
def State.fits (s : State) (n tc g : Nat) : Bool := s.openFor n tc (s.guardTicks n g + 1) s.moment (s.guardTicks n g)

/-! ### Class credits and slot shapers -/

/-- Credit of a shaped class at the last gate change or charge, or as RESET_TO says before the first (R308, R310). -/
def State.classBucket (s : State) (n tc : Nat) : Bucket :=
  (s.rak.classes.get? (8 * n + tc)).getD
    ⟨if s.flag .ETH_TC_RESET_TO n tc then 0 else s.raw .ETH_TC_BURST n tc * unitsPerByte, 0, s.moment⟩

/-- The credit now: it accrues while the gate is open and is held while it is closed. -/
def State.classCredit (s : State) (n tc : Nat) : Int :=
  let b := s.classBucket n tc
  if (s.raw .ETH_SLU_STATUS_GATES n).testBit tc then
    accrue b.c (s.raw .ETH_TC_IDLE_SLOPE_KBPS n tc) (s.moment - b.last) (s.raw .ETH_TC_BURST n tc)
  else b.c

def setClass (n tc : Nat) (c : Int) : Prog := .get fun s =>
  .act (.rak fun p => { p with classes := p.classes.put (8 * n + tc) ⟨c, 0, s.moment⟩ })

/-- Bring every class credit of a port up to date, before its gates change. -/
def settleClasses (n : Nat) : Prog := .get fun s => .each (List.range 8) fun tc => setClass n tc (s.classCredit n tc)

/-- Slot shapers that name a slot (R309). -/
def State.shapers (s : State) (q : Nat) : List Nat :=
  ((s.regs.filter fun e => e.2.reg == .RAK_METER_TYPE && e.2.val == 2).map fun e => keyIdx e.1).filter fun m => s.raw .RAK_METER_SLOT 0 m == q

def State.shaperCredit (s : State) (m : Nat) : Int :=
  let b := s.bucket m
  accrue b.c (s.raw .RAK_METER_CIR_KBPS 0 m) (s.moment - b.last) (s.raw .RAK_METER_CBS 0 m)

/-- Every slot shaper of the slot lets its head unit go. -/
def State.slotOpen (s : State) (q : Nat) : Bool := (s.shapers q).all fun m => decide (0 ≤ s.shaperCredit m)

/-- Charge the slot shapers of a slot. -/
def chargeSlot (q n : Nat) : Prog := .get fun s => .each (s.shapers q) fun m =>
  .act (.rak fun p => { p with meters := p.meters.put m ⟨s.shaperCredit m - n * unitsPerByte, (s.bucket m).p, s.moment⟩ })

/-- Charge the class shaper. -/
def chargeClass (n tc len : Nat) : Prog := .get fun s =>
  .on (s.flag .ETH_TC_CBS_EN n tc) (setClass n tc (s.classCredit n tc - len * unitsPerByte))

/-! ### Frames (R296, R297) -/

/-- L of a frame: its bytes from destination address through FCS after padding. -/
def frameLen (bs : List Byte) : Nat := max 64 bs.length

/-- The frame as it leaves: padded, with its FCS, or the complement of it when the unit is bad. -/
def frameBytes (bs : List Byte) (bad : Bool) : List Byte :=
  let body := bs.take (bs.length - 4) ++ List.replicate (60 - (bs.length - 4)) 0
  let fcs := crc32 body
  body ++ leBytes 4 (if bad then fcs ^^^ 0xFFFFFFFF else fcs)

/-! ### gPTP messages (R299). PRESUMED (log entry 52): message types and frame lengths of IEEE 802.1AS -/

def ptpSync := 0
def ptpPdelayReq := 2
def ptpPdelayResp := 3
def ptpFollowUp := 8
def ptpPdelayRespFollow := 10
def ptpAnnounce := 11
def ptpLen : Nat → Nat
  | 0 => 64
  | 2 => 72
  | 3 => 72
  | 8 => 94
  | 10 => 72
  | _ => 94

/-- A gPTP message waits to be sent. -/
def queuePtp (n type seq : Nat) (time : Int) : Prog := setEth n fun e => { e with ptp := e.ptp ++ [(type, seq, time)] }

/-- The stamp point of an Ethernet transmission, with the latency of the external PMD (R298). -/
def State.ethTxTime (s : State) (n : Nat) : Int := s.asTime (s.moment + s.fld .ETH_PTP_LAT_TX_LAT n)

/-- The first waiting gPTP message leaves; Sync and Pdelay_Resp are followed by their stamps (R299). -/
def sendPtp (n : Nat) : Prog :=
  .get fun s => match (s.ethPort n).ptp with
  | [] => .skip
  | (type, seq, time) :: rest => .all [
      setEth n fun e => { e with ptp := rest, t1 := if type = ptpPdelayReq then s.ethTxTime n else e.t1 },
      withStamp (ptEthTx n) fun _ => .skip,
      emitOut .frame ([gEth, n, 2, type, seq] ++ s.gmVector) (leBytes 8 (enc 64 time)),
      bump .ETH_TX_FRAMES_FRAMES n,
      .on (type == ptpSync) (queuePtp n ptpFollowUp seq (s.ethTxTime n)),
      .on (type == ptpPdelayResp) (queuePtp n ptpPdelayRespFollow seq (s.ethTxTime n))]

end Sys2Proof.Machine
end

