-- ==== Sys2Proof/Machine/Rake.lean ====
section
/-! DEFINITION. The rake (R267 to R270, R296 to R302): which unit leaves next on each port, the units that leave and where they
are delivered; refill, flush and the draining of berths (R273, R278, R284 to R286). -/
namespace Sys2Proof.Machine

/-! ### What waits on a port -/

/-- Key of a port in the rake's tables. -/
def portKey (g port : Nat) : Nat := 32 * g + port

def State.slotGroup (s : State) (q : Nat) : Nat := s.groupOf (s.raw .SAL_QCFG_BERTH 0 q)
def State.slotPort (s : State) (q : Nat) : Nat := s.raw .SAL_QCFG_PORT 0 q

/-- Slots of a port that hold a unit, in rising order. -/
def State.slotsOf (s : State) (g port : Nat) : List Nat :=
  (s.sal.queues.map (·.1)).filter fun q => s.slotGroup q == g && s.slotPort q == port

/-- The head of a slot with its unit. -/
def State.headOf (s : State) (q : Nat) : Option (Queued × Flow) :=
  match s.queue q with
  | x :: _ => (s.sal.units.get? x.unit).map fun f => (x, f)
  | [] => none

/-- Slots in rotation order after the last one served. -/
def rotated (last : Option Nat) (l : List Nat) : List Nat :=
  match last with
  | some n => l.filter (fun q => decide (n < q)) ++ l.filter fun q => decide (q ≤ n)
  | none => l

/-- Net rate of a group's port in kb/s, as R267 compares them: a cable direction's allotment limit, an Ethernet speed, a PCI
Express width and rate. PRESUMED (log entry 50): the line encodings of PCI Express. -/
def State.rateIn (s : State) (g port : Nat) (out : Bool) : Nat :=
  if g < 6 then (if out then s.txLimit g else s.rxLimit g) * shareOf (s.raw .LNK_STATUS_RATE g) / 256 * 8000000 / 16384
  else if g = gEth then s.ethRate port
  else if 9 ≤ g then s.raw .PCI_STATUS_WIDTH (g - 9) * (match s.raw .PCI_STATUS_RATE (g - 9) with
    | 1 => 2000000 | 2 => 4000000 | 3 => 7876923 | 4 => 15753846 | _ => 31507692)
  else 0

/-- The head unit may start (R267): whole, or in cut-through. -/
def State.mayStart (s : State) (q : Nat) (x : Queued) (f : Flow) : Bool :=
  let g := s.slotGroup q
  !x.spilled && (f.whole ||
    (!f.saf && s.raw .SAL_QCFG_SAF 0 q == 0 && s.flag .SAL_CFG_CT_ENABLE && (decide (g < 6) || g == gEth || decide (9 ≤ g)) &&
      decide (s.rateIn g (s.slotPort q) true ≤ s.rateIn f.group f.port false) && decide (s.fld .SAL_CT_START_FLAKES ≤ f.flakes)))

/-! ### Heads that are discarded (R158, R227, R269, R296, R300, R305) -/

/-- A head unit that has not started is discarded and counted on its channel and its slot. -/
def discardHead (q : Nat) (x : Queued) (f : Flow) : Prog := .all [
  countDrop f.chan, bump .SAL_QSTAT_DROPS 0 q, releaseCopy x, setQueue q List.tail]

def oversize (n : Nat) (f : Flow) : Prog := .all [
  bump .ETH_TX_OVERSIZE_UNITS n, logLim (0x20 + n) 0x0004 2 n ms (some f.chan) (0xFF + f.chan * 2 ^ 64)]

/-- Why a head unit that has not started is discarded: 1 bad, its port down or sealed for a port that seals nothing, 2 too long
for its class, 3 too short for a frame, 4 too long or not to be sent over a tunnel, 5 no HOPS left; 0 when it may stay. -/
def State.headFault (s : State) (q : Nat) (f : Flow) : Nat :=
  let g := s.slotGroup q
  let p := s.slotPort q
  if f.bad || !s.portUp g p || (f.mustSeal && decide (6 ≤ g)) then 1
  else if g = gEth then
    (if f.whole && decide (f.leaving.length < 18) then 3
     else if f.whole && decide (s.raw .ETH_TC_MAX_SDU p (s.raw .SAL_QCFG_TC 0 q) < frameLen f.leaving) then 2 else 0)
  else if g < 6 then (match s.leaveCheck g f with
    | 0 | 5 => 0
    | 1 => 5
    | _ => 4)
  else 0

/-- Discard the heads of one slot that cannot leave, as many as there are. -/
def cleanSlot (q : Nat) : Nat → Prog
  | 0 => .skip
  | n + 1 => .get fun s => match s.headOf q with
    | some (x, f) =>
      let k := s.headFault q f
      .on (!x.started && !x.spilled && k != 0) (.all [
        .on (k == 2) (oversize (s.slotPort q) f),
        .on (k == 5) (tunRec 0x000A (s.slotGroup q) (some f.chan)),
        discardHead q x f, cleanSlot q n])
    | none => .skip

def cleanHeads (g port : Nat) : Prog := .get fun s => .each (s.slotsOf g port) fun q => cleanSlot q (s.queue q).length

/-! ### Start of a unit -/

/-- The unit passes its egress points, with its first byte; its flakes are checked on the way (R260). -/
def passEgress (g port q : Nat) (x : Queued) (f : Flow) : Prog :=
  .get fun s =>
    let b := s.raw .SAL_QCFG_BERTH 0 q
    .all [
      passPoint (ptEgress b) 0 0 f.mark fun _ => .skip,
      .on (g == gEth) (passPoint (ptEthTx port) 0 0 { f.mark with passed := (ptEgress b, s.moment) :: f.passed } fun _ => .skip),
      setUnit x.unit fun f => { f with passed := (ptEgress b, s.moment) :: f.passed },
      withSoft (strike x.unit b)]

/-- Counted length of a unit for shapers: L on Ethernet, its bytes elsewhere (R297). -/
def countedLen (g : Nat) (f : Flow) : Nat := if g = gEth then frameLen f.leaving else f.leaving.length

/-- A unit starts: shapers are charged when its length is known. -/
def startUnit (g port q : Nat) (x : Queued) (f : Flow) : Prog :=
  .get fun s => .all [
    .act (.rak fun r => { r with
      sending := r.sending.put (portKey g port) q
      turn := r.turn.put (8 * portKey g port + s.raw .SAL_QCFG_TC 0 q) q }),
    setHead q fun y => { y with started := true, sent := if f.whole then 1 else 0 },
    passEgress g port q x f,
    .on f.whole (.seq (chargeSlot q (countedLen g f))
      (.on (g == gEth) (chargeClass port (s.raw .SAL_QCFG_TC 0 q) (frameLen f.leaving))))]

/-- Guard length of a head unit (R304). -/
def State.guardLen (s : State) (n tc : Nat) (f : Flow) : Nat :=
  if f.whole then frameLen f.leaving
  else
    let m := s.raw .ETH_TC_MAX_SDU n tc
    let p := eParam f.entry 38 2
    if eType f.entry = tyNet ∧ p ≠ 0 then min m p else m

/-- The first slot of a class that may send, in round-robin order (R300, R301). -/
def State.pickSlot (s : State) (g port tc : Nat) : Option (Nat × Queued × Flow) :=
  (rotated (s.rak.turn.get? (8 * portKey g port + tc)) ((s.slotsOf g port).filter fun q => s.raw .SAL_QCFG_TC 0 q == tc)).findSome? fun q =>
    match s.headOf q with
    | some (x, f) =>
      if s.mayStart q x f && s.slotOpen q && (g != gEth || s.fits port tc (s.guardLen port tc f)) then some (q, x, f) else none
    | none => none

/-- What starts in one class: on Ethernet a gPTP message goes first in its class and a class without credit waits (R300). -/
def State.startIn (s : State) (g port tc : Nat) : Option Prog :=
  let ptp := g == gEth && s.flag .ETH_PTP_ENABLE port && s.raw .ETH_PTP_TC port == tc && (match (s.ethPort port).ptp with
    | (type, _, _) :: _ => s.fits port tc (ptpLen type)
    | [] => false)
  if ptp then some (sendPtp port)
  else if g == gEth && s.flag .ETH_TC_CBS_EN port tc && decide (s.classCredit port tc < 0) then none
  else (s.pickSlot g port tc).map fun r => startUnit g port r.1 r.2.1 r.2.2

/-- Strict priority over the classes from 7 down (R300, R301). -/
def select (g port : Nat) : Prog :=
  .get fun s => (([7, 6, 5, 4, 3, 2, 1, 0].findSome? fun tc => s.startIn g port tc)).getD .skip

/-! ### Cable ports (R235, R236, R270, R302) -/

/-- The next parcel of a slot's head unit: its payload and whether it ends the unit. A unit that has become bad ends at once
(R268). -/
def State.nextPart (s : State) (p q : Nat) : Option (Queued × Flow × List Byte × Bool) :=
  match s.headOf q with
  | some (x, f) =>
    if x.ended then none
    else if x.started && (f.bad || s.leaveCheck p f != 0) then some (x, { f with bad := true }, [], true)
    else if s.leaveCheck p f ≠ 0 || !(x.started || (s.mayStart q x f && s.slotOpen q)) then none
    else (fragment f.leaving f.whole x.sent).map fun r => (x, f, r.1, r.2)
  | none => none

def partCost (r : Queued × Flow × List Byte × Bool) : Nat := payloadCost r.2.2.1.length r.2.1.mustSeal

/-- Deficit round robin over slots in rotation: each slot passed gains its quantum (R236). -/
def drr (p : Nat) (s : State) : Nat → List Nat → NMap Int → Option (Nat × NMap Int)
  | 0, _, _ => none
  | _, [], _ => none
  | n + 1, q :: rest, d =>
    match s.nextPart p q with
    | none => drr p s n rest d
    | some r =>
      let c := r.2.1.chan
      let v := (d.get? c).getD 0 + 32 * eWeight r.2.1.entry
      if (partCost r : Int) ≤ v then some (q, d.put c (v - partCost r)) else drr p s n (rest ++ [q]) (d.put c v)

/-- One parcel of slot `q` goes to the port. -/
def sendPart (p q : Nat) (rsv : Bool) : Prog :=
  .get fun s => match s.nextPart p q with
  | none => .skip
  | some (x, f, payload, last) => .all [
      .on (x.sent == 0) (passEgress p 0 q x f),
      chargeSlot q payload.length,
      .get fun s' => sendFragment p q x (match s'.sal.units.get? x.unit with
        | some f' => { f' with bad := f'.bad || f.bad }
        | none => f) payload last rsv]

/-- One parcel opportunity of a cable port: reserved credit first, round robin by parcel, then the remainder. -/
def cableOpportunity (p : Nat) : Prog :=
  .get fun s =>
    let t := s.tunPort p
    let ready := (s.slotsOf p 0).filter fun q => (s.nextPart p q).isSome
    let chanOf (q : Nat) : Nat := match s.headOf q with | some (_, f) => f.chan | none => 0
    let weightOf (q : Nat) : Nat := match s.headOf q with | some (_, f) => eWeight f.entry | none => 0
    let rich := ready.filter fun q => decide (0 < (t.credit.get? (chanOf q)).getD 0)
    let heavy := ready.filter fun q => weightOf q != 0
    .seq (.each (s.slotsOf p 0) fun q => match s.headOf q with
      | some (_, f) => .on (s.leaveCheck p f == 5) (waitPool f.chan f.entry)
      | none => .skip)
    (match rotated (some t.turn.1) rich with
    | q :: _ => .seq (setTun p fun t => { t with turn := (q, t.turn.2) }) (sendPart p q true)
    | [] =>
      let kept : NMap Int := t.deficit.filter fun e => heavy.any fun q => chanOf q == e.1
      let again := heavy.find? fun q => q == t.turn.2 && (match s.nextPart p q with
        | some r => decide ((partCost r : Int) ≤ (kept.get? (chanOf q)).getD 0)
        | none => false)
      match again with
      | some q => .seq (setTun p fun t => { t with deficit := kept.put (chanOf q) ((kept.get? (chanOf q)).getD 0 -
          (match s.nextPart p q with | some r => (partCost r : Int) | none => 0)) }) (sendPart p q false)
      | none => match drr p s (68 * (heavy.length + 1)) (rotated (some t.turn.2) heavy) kept with
        | some (q, d) => .seq (setTun p fun t => { t with deficit := d, turn := (t.turn.1, q) }) (sendPart p q false)
        | none => match rotated (some t.turn.2) ready with
          | q :: _ => .seq (setTun p fun t => { t with turn := (t.turn.1, q) }) (sendPart p q false)
          | [] => .skip)

/-- A transmission opportunity of a port: heads that cannot leave are discarded, then one unit or parcel starts. -/
def opportunity (g port : Nat) : Prog :=
  .seq (cleanHeads g port) (.get fun s =>
    .on (s.portUp g port && !s.quiet (portBlk g port)) (
      if g < 6 then .on (port == 0) (cableOpportunity g)
      else
        let room := !(g == 6 && decide (2 ≤ port) && decide (port ≤ 9)) ||
          decide (((s.can.get? (port - 2)).map fun c => c.bufs.length).getD 0 < s.fld .CAN_TXBUF_BUFFERS (port - 2))
        .on ((s.rak.sending.get? (portKey g port)).isNone && room) (select g port)))

def execEgressStart (group port : Nat) (s : State) := s.does (whenFlowing (opportunity group port))
def execTransmissionOpportunity (port : Nat) (s : State) := s.does (whenFlowing (.on (decide (port < 10)) (opportunity gEth port)))

/-! ### Delivery -/

/-- A unit as its consumer takes it. -/
def Flow.delivered (f : Flow) : Delivered := ⟨f.chan, eGen f.entry, f.entry, f.leaving, f.hops⟩

/-- Data lengths that some DLC encodes. -/
def canLength (d : Nat) : Bool := decide (d ≤ 8) || [12, 16, 20, 24, 32, 48, 64].contains d

/-- A CAN unit may be sent on controller `n` (R365). -/
def State.canOk (s : State) (n : Nat) (b : List Byte) : Bool :=
  let id := fieldOf b 0 4
  let d := fieldOf b 5 1
  decide (16 ≤ b.length) && b.length == 16 + d && canLength d && (decide (d ≤ 8) || bit id 30) &&
  (s.flag .CAN_CFG_FD n || !(bit id 30 || bit id 31))

def setCan (n : Nat) (f : CanPort → CanPort) : Prog := .act (.can fun m => m.put n (f ((m.get? n).getD ⟨[], false, false⟩)))

/-- Window of a PERIPH channel's DEVICE: kind and instance (R74, R345). -/
def deviceWindow (d : Nat) : Nat :=
  match d % 16 with
  | 1 => d / 16
  | 2 => 2 + d / 16
  | _ => 6 + d / 16

/-- A memory TLP on its way to hub DRAM: written, or answered from DRAM (R335). Other units have no consumer there. -/
def deliverDram (f : Flow) : Prog :=
  .get fun s =>
    let b := s.leavingTlp f f.leaving
    let a := if tlpAddr b < dramBase then dramBase + tlpAddr b else tlpAddr b
    if f.kind = 2 ∧ tlpMemory b then
      if tlpHasData b then .each ((List.range (tlpData b).length).filter (tlpEnabled b)) fun i => store (a + i) (((tlpData b).drop i).take 1)
      else
        let n := 4 * tlpDws b
        let data := if s.inDram a n then s.mem.reads a n else List.replicate n 0
        returnCompletion ⟨0, .nobody, a, n, [], f.chan, none, none, [], some f.mark⟩ f.group
          (completionTlp (tlpRid b) (tlpTag b) 0 n (tlpAddr b) data)
    else countDrop f.chan

def blankHead : Head where
  commitAt := none
  presents := []
  tiles := []
  quiet := 0
  damaged := false
  mute := 0
  training := false
  hpd := true
  lost := false
  holdShown := false
  lastVblank := 0

def State.head (s : State) (h : Nat) : Head := (s.dsp.heads.get? h).getD blankHead
def putHead (h : Nat) (f : Head → Head) : Prog :=
  .act (.dsp fun d => { d with heads := d.heads.put h (f ((d.heads.get? h).getD blankHead)) })

/-- Hand a whole unit to its consumer. -/
def deliver (g port : Nat) (f : Flow) : Prog :=
  .get fun s =>
    if g = gEth then .all [
      emitOut .frame [gEth, port, 0] (frameBytes f.leaving f.bad), bump .ETH_TX_FRAMES_FRAMES port, .on f.bad (bump .ETH_TX_BAD_FRAMES port)]
    else if f.bad then (if 9 ≤ g then emitOut .tlp [g - 9, 1] f.leaving else countDrop f.chan)
    else if 9 ≤ g then deliverTlp (g - 9) f
    else if g = gDram then
      (if port < 16 then deliverDram f
       else putHead (port - 16) fun h => { h with tiles := h.tiles ++ [⟨f.delivered, stampKey f.stampMoment f.stampWord, false, false⟩] })
    else if port = 0 then
      (if eType f.entry = tyControl then mboxPut (eParam f.entry 33 1 % 32) s.chainPos f.cseq f.leaving else countDrop f.chan)
    else if port = 1 then .act (.sig fun p => { p with inbox := p.inbox ++ [f.delivered] })
    else if port ≤ 9 then
      let n := port - 2
      if s.canOk n f.leaving then setCan n fun c => { c with bufs := c.bufs ++ [(f.leaving, s.clock)] }
      else .all [countDrop f.chan, bump .CAN_TX_DROP_UNITS n, logLim (0x40 + n) 0x0004 2 0 ms none (fieldOf f.leaving 0 4)]
    else newLoc ⟨deviceWindow (eParam f.entry 32 1), eParam f.entry 36 2, 0, f.leaving, f.leaving.length, true, .nobody, f.chan, none, s.clock⟩

/-- The slot's head has gone: the next unit may start. -/
def doneWith (q : Nat) (x : Queued) : Prog :=
  .get fun s => .all [releaseCopy x, setQueue q List.tail,
    .act (.rak fun r => { r with sending := r.sending.del (portKey (s.slotGroup q) (s.slotPort q)) })]

/-- The port has sent all it can of the unit in hand: a whole unit is delivered; one whose next bytes are missing ends bad
(R267); one of unknown length that reaches MAX_SDU is ended there (R305). -/
def complete (q : Nat) (x : Queued) (f : Flow) : Prog :=
  .get fun s =>
    let g := s.slotGroup q
    let port := s.slotPort q
    let tc := s.raw .SAL_QCFG_TC 0 q
    let sdu := s.raw .ETH_TC_MAX_SDU port tc
    let long := g == gEth && x.sent == 0 && decide (sdu ≤ f.leaving.length)
    .all [
      .on (x.sent == 0) (.seq (chargeSlot q (countedLen g f)) (.on (g == gEth) (chargeClass port tc (min sdu (frameLen f.leaving))))),
      if long then .seq (oversize port f)
        (deliver g port { f with head := [], skip := 0, enqueued := true, bad := true, bytes := f.leaving.take sdu })
      else if f.whole then .seq (deliver g port f) (.on (!f.bad) (bump .SAL_QSTAT_UNITS_OUT 0 q))
      else .seq (bump .SAL_UNDERRUN_UNITS) (deliver g port { f with bad := true }),
      doneWith q x]

def egressComplete (q : Nat) : Prog :=
  .get fun s => match s.headOf q with
  | none => .skip
  | some (x, f) =>
    if s.slotGroup q < 6 then .on x.ended (.seq (.on (!f.bad) (bump .SAL_QSTAT_UNITS_OUT 0 q)) (doneWith q x))
    else .on x.started (complete q x f)

def execEgressComplete (q : Nat) (s : State) := s.does (whenAlive (egressComplete q))

/-- A flake of a unit in transmission has not arrived in time (R267). -/
def execLostFlakeTimeout (q : Nat) (s : State) := s.does (whenAlive (.get fun s => match s.headOf q with
  | some (x, f) => .on (x.started && !f.whole && !f.bad) (.seq (bump .SAL_LOST_UNITS) (markBad x.unit))
  | none => .skip))

/-! ### The lagoon (R273, R274) -/

/-- The oldest spilled unit of a slot, when it is to be read back: room below PAN_LIMIT − REFILL, or next to leave. -/
def State.refillDue (s : State) (q : Nat) : Option Queued :=
  match (s.queue q).find? fun x => x.spilled with
  | none => none
  | some x =>
    let head := match s.queue q with | y :: _ => y.unit == x.unit | [] => false
    if (head || decide (s.panFlakes q + x.flakes + s.fld .SAL_LAGOON_CFG_REFILL ≤ s.fld .SAL_QCFG_PAN_LIMIT 0 q)) &&
      decide (x.flakes ≤ s.panFree) then some x else none

/-- Of the slots that are due, the unit enqueued earliest is read back (R273). -/
def refill : Prog :=
  .get fun s =>
    match sortBy (fun e => e.2.unit) (s.sal.queues.filterMap fun e => (s.refillDue e.1).map fun x => (e.1, x)) with
    | (q, x) :: _ => .seq (setQueue q fun l => l.map fun y => if y.unit == x.unit then { y with spilled := false } else y)
      (withSoft (strike x.unit 0xFF))
    | [] => .skip

def execRefill (s : State) := s.does (whenAlive refill)

/-! ### Flush (R278) -/

/-- A unit that a cable port is sending ends with a VOID parcel (R268); then the slot is emptied. -/
def emptySlotQueue (q : Nat) : Prog :=
  .get fun s => .seq (match s.headOf q with
    | some (x, f) => .on (decide (s.slotGroup q < 6) && x.started && !x.ended) (sendFragment (s.slotGroup q) q x { f with bad := true } [] true false)
    | none => .skip) (flushSlot q)

def flushWrite (q : Nat) : Prog := .all [
  setF .SAL_QCFG_FLUSH 1 0 q,
  .act (.sal fun p => { p with flushes := q :: p.flushes.filter (· != q) }),
  .get fun s =>
    let k := portKey (s.slotGroup q) (s.slotPort q)
    .on (s.rak.sending.get? k == some q) (.act (.rak fun r => { r with sending := r.sending.del k })),
  emptySlotQueue q]

def execFlush (q : Nat) (s : State) := s.does (whenAlive (.on (decide (q < 16384)) (flushWrite q)))

def execFlushComplete (q : Nat) (s : State) := s.does (.get fun s =>
  .on (s.sal.flushes.contains q) (.all [
    setF .SAL_QCFG_FLUSH 0 0 q, .act (.sal fun p => { p with flushes := p.flushes.filter (· != q) })]))

/-! ### Berths (R284 to R286) -/

/-- A berth begins to drain. -/
def drainBerth (b : Nat) : Prog := .get fun s => .all [
  setF .SAL_BERTH_STATE_STATE 1 0 b, .act (.sal fun p => { p with drains := p.drains.put b s.clock })]

def berthCommand (b op : Nat) : Prog :=
  .get fun s =>
    let st := s.berthState b
    if op == 1 then
      (if st = 0 then .seq (drainBerth b) (setF .SAL_BERTH_CMD_STATUS_RESULT 1) else setF .SAL_BERTH_CMD_STATUS_RESULT 2)
    else if op = 2 then
      (if st = 2 ∧ !s.sal.failed.contains b then .all [
        setF .SAL_BERTH_STATE_STATE 0 0 b, setF .SAL_BERTH_CMD_STATUS_RESULT 1, logRec 0x19 0x0009 1 none (salDetail b 0 0)]
       else setF .SAL_BERTH_CMD_STATUS_RESULT 2)
    else .skip

def execBerthDrain (berth : Nat) (s : State) := s.does (whenAlive (.on (decide (berth < 32)) (berthCommand berth 1)))
def execBerthRestore (berth : Nat) (s : State) := s.does (whenAlive (.on (decide (berth < 32)) (berthCommand berth 2)))

/-- The drain ends: units still entering through the berth become bad; the last berth of a group takes every slot bound to the
group with it (R285). -/
def execBerthOff (berth : Nat) (s : State) := s.does (whenAlive (.get fun s =>
  match s.sal.drains.get? berth with
  | none => .skip
  | some _ =>
    let g := s.groupOf berth
    .on (s.berthState berth == 1) (.all [
      .each (s.sal.units.filter fun e => e.2.berth == berth && !e.2.whole) fun e => markBad e.1,
      setF .SAL_BERTH_STATE_STATE 2 0 berth,
      .act (.sal fun p => { p with drains := p.drains.del berth }),
      .get fun s => .on (!s.groupAlive g) (.all [
        .each ((s.sal.queues.map (·.1)).filter fun q => s.slotGroup q == g) emptySlotQueue,
        .each (s.sal.units.filter fun e => e.2.berth == berth && (match e.2.place with | .waiting _ => true | _ => false)) fun e => dropUnit e.1]),
      logRec 0x19 0x0008 2 none (salDetail berth 0 0)])))

end Sys2Proof.Machine
end

