-- ==== Sys2Proof/Machine/Ethernet.lean ====
section
/-! DEFINITION. The Ethernet ports (R294 to R299, R303 to R310, R314, R318): frames received, links, sluice changes, gPTP. -/
namespace Sys2Proof.Machine

/-! ### Frames received (R294, R295) -/

/-- A descriptor in force (R103). -/
def State.descAt (s : State) (i : Nat) : Desc :=
  if 255 ≤ i then emptyDesc
  else ⟨s.raw .GRN_DESC_BASE 0 i, s.raw .GRN_DESC_ENTRIES 0 i, s.raw .GRN_DESC_KIND 0 i, s.raw .GRN_DESC_KEY_WORDS 0 i, s.raw .GRN_DESC_RESULT_WORDS 0 i⟩

/-- The frame carries a tag of TPID 0x8100 or 0x88A8. -/
def taggedFrame (b : List Byte) : Bool := beNat ((b.drop 12).take 2) == 0x8100 || beNat ((b.drop 12).take 2) == 0x88A8

/-- VID of the outermost tag, 0 without one. -/
def frameVid (b : List Byte) : Nat := if taggedFrame b then beNat ((b.drop 14).take 2) % 4096 else 0

/-- The channel that a descriptor's EXACT search finds for a one-word key (R295, R322). -/
def State.classify (s : State) (desc key dflt : Nat) : Nat :=
  let d := s.descAt desc
  match (if d.empty then none else s.search d key) with
  | some i => bits (leNat ((s.resultOf d i).take 8)) 16 0
  | none => dflt

/-- An EXACT descriptor with KEY_WORDS 1. -/
def exactOne (d : Desc) : Bool := d.kind == 2 && d.keyWords == 1

/-- Check 6: the frame is classified and goes to berth ingress. -/
def classifyFrame (n : Nat) (b : List Byte) : Prog :=
  .get fun s =>
    let desc := s.raw .ETH_RX_CLASS_DESC n
    let ok := exactOne (s.descAt desc)
    let key := beNat (b.take 6) + frameVid b * 2 ^ 48 + n * 2 ^ 60
    let c := if ok then s.classify desc key (s.raw .ETH_RX_CLASS_DEFAULT n) else s.raw .ETH_RX_CLASS_DEFAULT n
    let m : Mark := { blankFlow.mark with chan := c, kind := 1, key := s.moment % 2 ^ 32, entered := s.moment }
    .all [
      .on (desc != 0xFF && !ok && !(s.ethPort n).classBad) (.seq (setEth n fun e => { e with classBad := true })
        (logRec (0x20 + n) 0x0003 2 none 0xFF)),
      bump .ETH_RX_FRAMES_FRAMES n,
      passPoint (ptEthRx n) 0 0 m fun _ => .skip,
      ingress {
        group := gEth
        port := n
        chan := c
        kind := 1
        bytes := b
        length := b.length
        whole := true
        bad := false
        opened := false
        rsv := true
        link := none
        passed := [(ptEthRx n, s.moment)] }]

/-- The checks of R294 in order. A gPTP frame goes to the time engine, whose commands carry its contents. -/
def receiveFrame (n : Nat) (b : List Byte) (pcsError : Bool) : Prog :=
  .get fun s =>
    let etype := beNat ((b.drop 12).take 2)
    if b.length < 64 then bump .ETH_RX_RUNT_FRAMES n
    else if s.raw .ETH_CFG_MAX_FRAME n < b.length then bump .ETH_RX_LONG_FRAMES n
    else if pcsError || crc32 (b.take (b.length - 4)) != leNat (b.drop (b.length - 4)) then bump .ETH_RX_FCS_FRAMES n
    else if etype = 0x88F7 ∧ beNat (b.take 6) = 0x0180_C200_000E ∧ s.flag .ETH_PTP_ENABLE n then .skip
    else if etype = 0x8808 then bump .ETH_RX_MACCTL_FRAMES n
    else classifyFrame n b

/-- A port of the Ethernet group. -/
def onEth (n : Nat) (p : Prog) : Prog := .get fun s => .on (s.coreAlive && decide (n < 10)) p

def execEthFrameReceive (port : Nat) (frame : List Byte) (pcsError : Bool) (s : State) :=
  s.does (whenFlowing (onEth port (.get fun s => .on (s.ethUp port && !s.quiet (0x20 + port)) (receiveFrame port frame pcsError))))

/-! ### Gates (R303, R306, R307) -/

/-- Gates and entry as the list in force gives them now; class credits are settled under the gates before. -/
def gateChange (n : Nat) : Prog :=
  .get fun s =>
    let r := s.gatesAt n s.moment
    .all [settleClasses n, setF .ETH_SLU_STATUS_GATES (r.1 % 256) n, setF .ETH_SLU_STATUS_ENTRY r.2.2 n]

def execGateChange (port : Nat) (s : State) := s.does (onEth port (gateChange port))

/-- Classes whose shaper a commit changes (R310). -/
def State.changedClasses (s : State) (n : Nat) : List Nat :=
  (List.range 8).filter fun tc => [RegId.ETH_TC_IDLE_SLOPE_KBPS, .ETH_TC_BURST, .ETH_TC_CBS_EN, .ETH_TC_RESET_TO].any fun r =>
    s.next r n tc != s.fld r n tc

/-- A port's shadows come into force; changed class shapers start again (R310), and ETH_CLASS_BAD may be written anew. -/
def applyEth (n : Nat) : Prog :=
  .get fun s => .all [
    applyCommit (0x20 + n),
    setEth n fun e => { e with classBad := false },
    .each (s.judged.changedClasses n) fun tc => .get fun s =>
      setClass n tc (if s.flag .ETH_TC_RESET_TO n tc then 0 else s.raw .ETH_TC_BURST n tc * unitsPerByte)]

/-- At ConfigChangeTime the admin list and the other shadows come into force (R306 steps 3 and 4). -/
def sluiceChange (n : Nat) : Prog :=
  .get fun s => match (s.ethPort n).changeAt with
  | none => .skip
  | some c => .on (decide (c ≤ s.moment)) (
      let l := s.judged.adminList n c
      .all [
        settleClasses n,
        setB .ETH_SLU_STATUS_OPER_EN l.en n, setF .ETH_SLU_OPER_BASE_BASE c n, setF .ETH_SLU_OPER_CYCLE_CYCLE_NS (l.cycle / 4) n,
        .each (l.entries.zip (List.range l.entries.length)) fun e => setF .ETH_SLU_OPER_ENTRY (e.1.1 + e.1.2 / 4 * 256) n e.2,
        setEth n fun e => { e with changeAt := none, listLen := l.entries.length },
        setF .ETH_SLU_STATUS_CHANGE_PENDING 0 n,
        applyEth n, gateChange n,
        logRec (0x20 + n) 0x0005 2 none (0xFF + c * 2 ^ 32)])

def execSluiceConfigChange (port : Nat) (s : State) := s.does (onEth port (sluiceChange port))

/-! ### Links (R292, R314, R318) -/

/-- Speeds that a MODE may come up with (R292). -/
def ethSpeedOk (mode speed : Nat) : Bool :=
  match mode with
  | 0 => speed == 2
  | 1 => decide (speed ≤ 2)
  | 2 => speed == 3
  | _ => speed == 4

def ethKey (n : Nat) : Nat := 0x10 + n

def ethLinkUp (n speed : Nat) : Prog :=
  .get fun s =>
    .on (s.flag .ETH_CFG_ENABLE n && s.dev.st != .safe && !s.flag .ETH_STATUS_LINK n && !s.laneOut (24 + n) && ethSpeedOk (s.raw .ETH_CFG_MODE n) speed) (.all [
      setF .ETH_STATUS_LINK 1 n, setF .ETH_STATUS_SPEED speed n,
      setB .ETH_STATUS_FEC_LOCK (s.flag .ETH_CFG_FEC n && s.raw .ETH_CFG_MODE n == 3) n,
      setB .ETH_STATUS_AN_DONE (s.flag .ETH_CFG_AN n && decide (s.raw .ETH_CFG_MODE n ≤ 1)) n,
      setF .ETH_STATUS_LOCAL_FAULT 0 n, setF .ETH_STATUS_REMOTE_FAULT 0 n,
      setEth n fun e => { e with ptp := [], prev := none, delay := 0, syncRx := none, capable := false, slow := false },
      logRec (0x20 + n) 0x0002 1 none 0xFF])

def execEthLinkUp (port speed : Nat) (s : State) := s.does (onEth port (ethLinkUp port speed))

/-- A unit in transmission on a port ends; it counts as dropped. -/
def cutSending (g port : Nat) : Prog :=
  .get fun s => match s.rak.sending.get? (portKey g port) with
  | some q => (match s.headOf q with
    | some (x, f) => .all [countDrop f.chan, bump .SAL_QSTAT_DROPS 0 q, doneWith q x]
    | none => .act (.rak fun r => { r with sending := r.sending.del (portKey g port) }))
  | none => .skip

/-- LINK falls: the frame in transmission ends and queued units are discarded. -/
def ethLinkDown (n : Nat) : Prog :=
  .get fun s => .on (s.flag .ETH_STATUS_LINK n) (.all [
    setF .ETH_STATUS_LINK 0 n, setF .ETH_STATUS_FEC_LOCK 0 n, setF .ETH_STATUS_AN_DONE 0 n, bump .ETH_STATUS_LINK_DOWNS n,
    cutSending gEth n, cleanHeads gEth n,
    setEth n fun e => { e with ptp := [], syncRx := none, capable := false },
    forgetMaster (ethKey n),
    logRec (0x20 + n) 0x0001 2 none 0xFF])

def execEthLinkDown (port : Nat) (s : State) := s.does (onEth port (ethLinkDown port))

/-! ### gPTP (R299) -/

/-- A port that takes part in gPTP. -/
def onPtp (n : Nat) (p : Prog) : Prog := onEth n (.get fun s => .on (s.ethUp n && s.flag .ETH_PTP_ENABLE n && s.dev.st != .safe) p)

/-- Time of a message received now (R298). -/
def State.ethRxTime (s : State) (n : Nat) : Int := s.asTime s.moment - s.fld .ETH_PTP_LAT_RX_LAT n

def execPtpAnnounce (port p1 cls p2 ident steps : Nat) (s : State) := s.does (onPtp port (.get fun s =>
  .on (s.ethPort port).capable (.all [
    .act (.tmb fun m => { m with heard := m.heard.put (ethKey port) [p1, cls, p2, ident, steps] }), chooseMaster])))

def execPtpSync (port seq : Nat) (s : State) := s.does (onPtp port (.get fun s =>
  .on (s.ethPort port).capable (.seq (withStamp (ptEthRx port) fun _ => .skip)
    (setEth port fun e => { e with syncRx := some (seq, s.ethRxTime port) }))))

/-- Follow_Up runs the servo; delayAsymmetry adds to the mean delay towards this end. -/
def execPtpFollowUp (port seq : Nat) (t1 : Int) (s : State) := s.does (onPtp port (.get fun s =>
  let e := s.ethPort port
  match e.syncRx with
  | some (n, t2s) => .on (n == seq) (.seq (setEth port fun e => { e with syncRx := none })
      (.on (s.tmb.slave == some (ethKey port)) (servo (t2s - (t1 + e.delay + sgn 32 (s.raw .ETH_PTP_ASYM_ASYM_PS port) / 250)))))
  | none => .skip))

def execPtpPdelayReq (port seq : Nat) (s : State) := s.does (onPtp port (.get fun s =>
  .seq (withStamp (ptEthRx port) fun _ => .skip) (queuePtp port ptpPdelayResp seq (s.ethRxTime port))))

def execPtpPdelayResp (port seq : Nat) (t2 : Int) (s : State) := s.does (onPtp port (.get fun s =>
  .on (seq == ((s.ethPort port).pdelaySeq + 2 ^ 16 - 1) % 2 ^ 16) (.seq (withStamp (ptEthRx port) fun _ => .skip)
    (setEth port fun e => { e with t2 := t2, t4 := s.ethRxTime port }))))

/-- The exchange ends: the mean delay, and asCapable while it is at most 800 ns. -/
def execPtpPdelayRespFollowUp (port seq : Nat) (t3 : Int) (s : State) := s.does (onPtp port (.get fun s =>
  let e := s.ethPort port
  let delay := meanDelay e.t1 e.t2 t3 e.t4 e.prev
  let slow := decide (3200 < delay)
  .on (seq == (e.pdelaySeq + 2 ^ 16 - 1) % 2 ^ 16) (.all [
    setEth port fun e => { e with delay := delay, prev := some (t3, e.t4), capable := !slow, slow := slow },
    .on slow (forgetMaster (ethKey port)),
    .on (slow && !e.slow) (logRec (0x20 + port) 0x0006 2 none 0xFF)])))

/-- Signaling messages are accepted and ignored. -/
def execPtpSignaling (port : Nat) (s : State) := s.does (onPtp port (withStamp (ptEthRx port) fun _ => .skip))

def execAnnounceInterval (port : Nat) (s : State) := s.does (onPtp port (.get fun s =>
  let e := s.ethPort port
  .on (s.tmb.slave != some (ethKey port) && decide (e.announceAt + sec ≤ s.clock))
    (.seq (setEth port fun e => { e with announceAt := s.clock }) (queuePtp port ptpAnnounce 0 0))))

/-- SYNC at the interval of TMB_SYNC_CFG: cable ports 0 to 5, Ethernet ports 0x10 to 0x19. -/
def execSyncInterval (port : Nat) (s : State) := s.does (
  if port < 0x10 then syncInterval port
  else onPtp (port - 0x10) (.get fun s =>
    let n := port - 0x10
    let e := s.ethPort n
    .on (e.capable && s.tmb.slave != some port && decide (e.syncAt + s.syncEvery ≤ s.clock)) (.seq
      (setEth n fun e => { e with syncSeq := (e.syncSeq + 1) % 2 ^ 16, syncAt := s.clock }) (queuePtp n ptpSync e.syncSeq 0))))

def execPdelayInterval (port : Nat) (s : State) := s.does (
  if port < 0x10 then pdelayInterval port
  else onPtp (port - 0x10) (.get fun s =>
    let n := port - 0x10
    let e := s.ethPort n
    .on (decide (e.pdelayAt + s.pdelayEvery ≤ s.clock)) (.seq
      (setEth n fun e => { e with pdelaySeq := (e.pdelaySeq + 1) % 2 ^ 16, pdelayAt := s.clock }) (queuePtp n ptpPdelayReq e.pdelaySeq 0))))

end Sys2Proof.Machine
end

