-- ==== Sys2Proof/Machine/BridgeCmds.lean ====
section
/-! DEFINITION. The bridge's commands (R322 to R347): completions and requests, links, PERST_N, the error FIFO, BRG messages,
prefetch, semaphores' leases, emulated atomics, mailboxes, the local bus; gaps of the harvest unit (R116). -/
namespace Sys2Proof.Machine

def onPci (n : Nat) (p : Prog) : Prog :=
  .get fun s => .on (s.coreAlive && decide (n < 4) && !(bondMembers (s.raw .BRG_CFG_BOND) n).isEmpty) p

/-! ### Requests and completions -/

def execPciCompletionReceive (ctrl tag status : Nat) (data : List Byte) (s : State) :=
  s.does (onPci ctrl (.get fun s => .on (s.flag .PCI_STATUS_LINK_UP ctrl) (completion ctrl tag status data)))

def execPciRequestIssue (ctrl : Nat) (s : State) := s.does (onPci ctrl (.get fun s => .on (!s.flag .BLK_STATUS_QUIESCED (0x31 + ctrl)) (issueRequest ctrl)))

/-- A slot passes its timeout (R116, R329): an ORDERED unit's, a table fetch's (R80, cause 4), or a bridge request's. -/
def execHrvGap (slot : Nat) (s : State) := s.does (whenAlive (.get fun s =>
  match s.grn.harvest.get? slot with
  | none => .skip
  | some h =>
    if h.unit.isSome then timeoutUnit slot h
    else .on (s.slotOverdue h) (if h.retired then fetchFail h.chan 4 else timeoutRequest slot)))

/-! ### Links (R347, R351, R531) -/

/-- PERST_N of an endpoint link lets it train: high for 20 ms, and 20 ms after PGOOD (R527). -/
def State.perstHigh (s : State) (n : Nat) : Bool :=
  s.raw .PCI_CFG_ROLE n == 0 || decide (s.boot.pgoodAt + 20 * ms ≤ s.clock) && (match s.brg.perst.get? n with
    | some 0 => false
    | some t => decide (t + 20 * ms ≤ s.clock + 1)
    | none => true)

def pciLinkUp (n rate width : Nat) (tag10 : Bool) : Prog :=
  .get fun s =>
    .on (s.flag .PCI_CFG_ENABLE n && s.dev.st != .safe && !s.flag .PCI_STATUS_LINK_UP n && s.perstHigh n && !s.laneOut (34 + n) &&
        decide (1 ≤ rate) && decide (rate ≤ s.raw .PCI_CFG_MAX_RATE n) &&
        [1, 2, 4, 8, 16].contains width && decide (width ≤ 4 * (bondMembers (s.raw .BRG_CFG_BOND) n).length)) (.all [
      setF .PCI_STATUS_LINK_UP 1 n, setF .PCI_STATUS_RATE rate n, setF .PCI_STATUS_WIDTH width n, setB .PCI_STATUS_TAG10 tag10 n,
      logRec (0x31 + n) 0x0002 1])

def execPciLinkUp (ctrl rate width : Nat) (tag10 : Bool) (s : State) := s.does (onPci ctrl (pciLinkUp ctrl rate width tag10))

/-- A queued unit of a link that has gone down: posted writes are logged, every unit is dropped (R347). -/
def loseQueued (n q : Nat) : Prog :=
  .get fun s => .all [
    .each (s.queue q) fun x => match s.sal.units.get? x.unit with
      | some f => .all [
          .on (tlpPosted f.leaving && tlpMemory f.leaving && !x.started)
            (pwErr (tlpAddr f.leaving) (if f.group < 6 then 6 else if 9 ≤ f.group then f.group - 9 else coreSource) 3 f.chan
              (if f.group < 6 then some f.group else none)),
          countDrop f.chan, bump .SAL_QSTAT_DROPS 0 q, releaseCopy x]
      | none => .skip,
    setQueue q fun _ => [],
    .act (.rak fun r => { r with sending := r.sending.del (portKey (gPci n) 0) })]

def pciLinkDown (n : Nat) : Prog :=
  .get fun s => .on (s.flag .PCI_STATUS_LINK_UP n) (.all [
    setF .PCI_STATUS_LINK_UP 0 n, bump .PCI_STATUS_LINK_DOWNS n,
    .each (s.reqsOf n) failRequest,
    .each (s.slotsOf (gPci n) 0) (loseQueued n),
    .on (s.hostLoc && s.raw .CHN_CFG_HOST_CTRL == n) (.each s.chn.misses fun c => fetchFail c 1),
    logRec (0x31 + n) 0x0001 2])

def execPciLinkDown (ctrl : Nat) (s : State) := s.does (onPci ctrl (pciLinkDown ctrl))

/-- PERST_N low resets an endpoint link's controllers; its MSI-X table is masked again. -/
def execPerstAssert (ctrl : Nat) (s : State) := s.does (onPci ctrl (.get fun s =>
  .on (s.flag .PCI_CFG_ROLE ctrl) (.all [
    pciLinkDown ctrl,
    .act (.brg fun b => { b with
      perst := b.perst.put ctrl 0
      msix := b.msix.filter fun e => e.1 / 2048 != ctrl
      msixPend := b.msixPend.filter fun e => e.1 / 2048 != ctrl })])))

def execPerstRelease (ctrl : Nat) (s : State) := s.does (onPci ctrl (.get fun s =>
  .on (s.brg.perst.get? ctrl == some 0) (.act (.brg fun b => { b with perst := b.perst.put ctrl (s.clock + 1) }))))

/-! ### The error FIFO -/

/-- The oldest entry leaves; the interrupt of an empty FIFO ends. -/
def pwErrPop : Prog := .act (.brg fun b => { b with pwerr := b.pwerr.tail })

def execPwerrPop (s : State) := s.does (whenAlive pwErrPop)

/-! ### BRG messages (R332, R334) -/

/-- The oldest message that waits for a block. -/
def State.message (s : State) (blk : Nat) : Option Message := s.grn.msgs.find? fun x => x.blk == blk
def takeMessage (x : Message) : Prog := .act (.grn fun g => { g with msgs := g.msgs.erase x })

def msgWord (x : Message) (i : Nat) : Nat := fieldOf x.body (8 * i) 8

def refuseBrg (x : Message) : Prog := .all [
  takeMessage x, bump .BRG_MSG_REFUSED_MESSAGES, logRec 0x30 0x0005 2 x.chan (x.chan.getD 0 * 2 ^ 64)]

/-- RAISE is well formed and comes from the channel that owns the vector. -/
def raiseOk (x : Message) : Bool :=
  let w := msgWord x 0
  x.body.length == 16 && within w (0xFF + ones 2 16 + ones 11 32) && within (msgWord x 1) (2 ^ 32 - 1) && x.chan.isSome &&
  eType x.entry == tyStorage && eParam x.entry 32 1 % 4 == bits w 17 16 && eParam x.entry 48 2 % 2048 == bits w 42 32

/-- An MSI-X write as a unit on the slot that a route word names. -/
def vectorUnit (ctrl vec route chan : Nat) (entry : List Byte) : Prog :=
  .get fun s => newUnit
    { blankFlow with
      chan := chan
      kind := 2
      stampMoment := s.moment
      bytes := s.vectorTlp ctrl vec
      length := (s.vectorTlp ctrl vec).length
      enqueued := true
      saf := true
      entry := entry } fun u => enqEffect u route true false [] 0xFFFF

def raiseMessage (x : Message) : Prog :=
  .get fun s =>
    let ctrl := bits (msgWord x 0) 17 16
    let vec := bits (msgWord x 0) 42 32
    let route := msgWord x 1 % 2 ^ 32
    .seq (takeMessage x) (.on (s.vectorLink ctrl) (
      if bit (s.vectorEntry ctrl vec).2.2 0 then
        .act (.brg fun b => { b with msixPend := b.msixPend.put (2048 * ctrl + vec) (some (route, x.chan.getD 0)) })
      else vectorUnit ctrl vec route (x.chan.getD 0) x.entry))

/-- A vector is unmasked: a pending one is sent, in the slot its RAISE named or at once. -/
def unmaskVector (ctrl vec : Nat) : Prog :=
  .get fun s => match s.brg.msixPend.get? (2048 * ctrl + vec) with
  | none => .skip
  | some route => .on (s.vectorLink ctrl && !bit (s.vectorEntry ctrl vec).2.2 0) (.seq
      (.act (.brg fun b => { b with msixPend := b.msixPend.del (2048 * ctrl + vec) }))
      (match route with
      | some (r, c) => vectorUnit ctrl vec r c (s.entry c)
      | none => emitOut .tlp [ctrl] (s.vectorTlp ctrl vec)))

/-- The oldest BRG message, when its op is `op`; a malformed one is discarded by either command. -/
def onBrgMessage (op : Nat) (ok : State → Message → Bool) (p : Message → Prog) : Prog :=
  whenAlive (.get fun s => match s.message 0x30 with
  | none => .skip
  | some x =>
    let o := fieldOf x.body 0 1
    if o ≠ 1 ∧ o ≠ 2 then refuseBrg x
    else .on (o == op) (if ok s x then p x else refuseBrg x))

def execRaise (s : State) := s.does (onBrgMessage 1 (fun _ x => raiseOk x) raiseMessage)

def blankMover : Mover := ⟨[], none, false⟩
def State.mover (s : State) (m : Nat) : Mover := (s.brg.movers.get? m).getD blankMover
def setMover (m : Nat) (f : Mover → Mover) : Prog :=
  .act (.brg fun b => { b with movers := b.movers.put m (f ((b.movers.get? m).getD blankMover)) })

/-- MOVE is well formed and comes from a MEM channel whose region holds both ranges, with the rights. -/
def moveOk (s : State) (x : Message) : Bool :=
  let w := msgWord x 0
  let n := msgWord x 3
  let r := eParam x.entry 44 1 % 64
  let rights := eParam x.entry 46 1
  x.body.length == 32 && within w 0x1FF && n != 0 && decide (n < 2 ^ 32) && x.chan.isSome && eType x.entry == tyMem &&
  s.inRegion r (msgWord x 1) n && s.inRegion r (msgWord x 2) n && bit rights 0 && bit rights 1

def moveMessage (x : Message) : Prog :=
  .get fun s =>
    let m := eParam x.entry 45 1 % 16
    .on (decide ((s.mover m).held.length < 16)) (.seq (takeMessage x)
      (setMover m fun v => { v with held := v.held ++
        [⟨msgWord x 1, msgWord x 2, msgWord x 3, false, x.chan.getD 0, bit (msgWord x 0) 8, 0, false⟩] }))

def execBrgMove (s : State) := s.does (onBrgMessage 2 moveOk moveMessage)

/-! ### Prefetch (R336, R337) -/

/-- The oldest fetched bytes that 4 µs have not used are discarded and recorded in the ring. -/
def prefetchDiscard : Prog :=
  .get fun s => match s.brg.ahead with
  | [] => .skip
  | p :: rest => .on (decide (p.since + 4 * us < s.clock)) (
      let i := s.raw .BRG_DISCARD_STATUS_NEXT
      .all [
        .act (.brg fun b => { b with ahead := rest }),
        setF .BRG_DISCARD_ADDRESS (p.addr % 2 ^ 48) 0 i, setF .BRG_DISCARD_REGION p.region 0 i,
        setF .BRG_DISCARD_MOMENT_LO (s.moment % 2 ^ 32) 0 i, setF .BRG_DISCARD_LENGTH p.bytes.length 0 i,
        setF .BRG_DISCARD_STATUS_NEXT ((i + 1) % 32), bump .BRG_DISCARD_STATUS_COUNT])

def execPrefetchDiscard (s : State) := s.does (whenAlive prefetchDiscard)

/-! ### Semaphores and emulated atomics (R339 to R341) -/

def leaseExpiry (n : Nat) : Prog :=
  .get fun s =>
    let lapsed := match s.grn.semSince.get? n with
      | some t => decide (t + s.raw .BRG_SEM_LEASE_US 0 n * us ≤ s.clock)
      | none => false
    .on (s.flag .BRG_SEM_HELD 0 n && lapsed) (.seq (freeSem n true) (grantSem n))

def execSemLeaseExpiry (sem : Nat) (s : State) := s.does (whenAlive (leaseExpiry (sem % 64)))

/-- The new value of an AtomicOp: FetchAdd, Swap, CAS; none when CAS leaves the target alone. -/
def atomicNew (op size old : Nat) (data : List Byte) : Option Nat :=
  match op with
  | 0x0C => some ((old + leNat (data.take size)) % 2 ^ (8 * size))
  | 0x0D => some (leNat (data.take size))
  | _ => if old = leNat (data.take size) then some (leNat ((data.drop size).take size)) else none

/-- An AtomicOp received on link `n`, or forwarded through it (R341). A read of a target outside the hub is `old`. -/
def atomicOp (n : Nat) (b : List Byte) (old : List Byte) : Prog :=
  .get fun s =>
    let a := tlpAddr b
    let data := tlpData b
    let size := if tlpType b = 0x0E then data.length / 2 else data.length
    let k := 1024 * n + tlpTag b
    match s.regionOf a with
    | none => refuseTlp n 1 b
    | some r =>
      let sem := s.raw .BRG_REGION_SEM 0 r
      let kind := s.raw .BRG_REGION_KIND 0 r
      let t := s.regionTarget r a
      if kind = 0 ∨ !s.flag .BRG_REGION_READ 0 r ∨ !s.flag .BRG_REGION_WRITE 0 r ∨ !(size == 4 || size == 8) then refuseTlp n 1 b
      else if s.flag .BRG_REGION_ATOMIC 0 r then
        newRequest ⟨s.regionLink r, .link (gPci n) (tlpRid b) (tlpTag b), a, size, withAddr b t, 0, none, none, [], none⟩
      else if sem = 0x7F then refuseTlp n 1 b
      else if s.flag .BRG_SEM_HELD 0 sem || s.grn.semWaits.any fun w => w.2 == sem then
        match s.brg.emu.get? k with
        | none => .act (.brg fun x => { x with emu := x.emu.put k s.clock })
        | some since => .on (decide (since + s.raw .BRG_CFG_EMU_WAIT_US * us ≤ s.clock)) (.all [
            .act (.brg fun x => { x with emu := x.emu.del k }), refuseTlp n 4 b, logRec 0x30 0x0004 2 none a])
      else
        let before := if kind = 3 then s.mem.reads (dramBase + t) size else old.take size
        .all [
          .act (.brg fun x => { x with emu := x.emu.del k }),
          takeSem sem (0x610 + n),
          if s.flag .BRG_SEM_TAINTED 0 sem then .all [freeSem sem false, refuseTlp n 4 b, logRec 0x30 0x0003 2 none a]
          else .all [
            match atomicNew (tlpType b) size (leNat before) data with
            | some v => writeThrough a (leBytes size v) n 0
            | none => .skip,
            freeSem sem false,
            emitOut .tlp [n] (completionTlp (tlpRid b) (tlpTag b) 0 size a (before ++ List.replicate (size - before.length) 0))]]

def execAtomicEmulation (ctrl : Nat) (tlp old : List Byte) (s : State) :=
  s.does (onPci ctrl (.get fun s => .on (tlpAtomic tlp && s.flag .PCI_STATUS_LINK_UP ctrl && s.dev.st != .safe) (atomicOp ctrl tlp old)))

/-! ### Movers and mailboxes -/

/-- RESTART skips the failed descriptor (R343). -/
def movRestart (m : Nat) : Prog :=
  .get fun s => .on (s.raw .MOV_STATE_STATE 0 m == 2) (.all [
    .on (s.mover m).fromRing (setF .MOV_HEAD_HEAD ((s.raw .MOV_HEAD_HEAD 0 m + 1) % 2 ^ s.raw .MOV_RING_CFG_LOG2 0 m) 0 m),
    setF .MOV_STATE_STATE 0 0 m])

def execMovRestart (m : Nat) (s : State) := s.does (whenAlive (.on (decide (m < 16)) (movRestart m)))

/-- A response record goes to its ORIGIN as a CTL parcel with REPLY (R344). -/
def mailboxResponse (m : Nat) : Prog :=
  .get fun s =>
    let a := s.mailArea + m * 0x1_0000
    let tail := s.load (a + 12) 4 % 127
    let r := s.mem.reads (a + 0x8000 + 256 * tail) 256
    .on (s.load (a + 8) 4 % 127 != tail) (.all [
      sendCtl (fieldOf r 4 2) 3 (fieldOf r 2 1 % 8)
        (ctlBody (fieldOf r 2 1 % 8) m true s.chainPos ((r.drop 8).take (min 248 (fieldOf r 0 2)))),
      store (a + 12) (leBytes 4 ((tail + 1) % 127))])

def execMailboxResponse (mbox : Nat) (s : State) := s.does (whenAlive (.on (decide (mbox < 31)) (mailboxResponse mbox)))

/-- A CTL parcel for this hub goes to its mailbox, or to the bridge for mailbox 31; another goes on under the rule of HOPS (R248,
R331). -/
def ctlParcel (p hops : Nat) (b : List Byte) (token : Nat) : Prog :=
  .get fun s =>
    let target := fieldOf b 4 1 % 8
    let m := fieldOf b 5 1 % 32
    if target = s.chainPos then (if m = 31 then remoteError p (b.drop 8) else mboxPut m (fieldOf b 7 1 % 8) token (b.drop 8))
    else if hops = 0 then tunRec 0x000A p
    else sendCtl token (hops - 1) target (b.drop 4)

def execCtl (port : Nat) (s : State) := s.does (onInbox port fun _ h =>
  onLmp port 0x50 fun _ b token => ctlParcel port (fieldOf h 3 1 % 4) b token)

/-! ### The local bus (R345, R346) -/

/-- The window's peripheral is in use. -/
def State.locOn (s : State) (k : Nat) : Bool :=
  if k < 2 then s.flag .SPI_CFG_ENABLE k else if k < 6 then s.flag .I2C_CFG_ENABLE (k - 2)
  else if k < 8 then s.flag .UART_CFG_ENABLE (k - 6) else false

def setLocBusy (k : Nat) (v : Nat) : Prog :=
  if k < 2 then setF .SPI_STATUS_BUSY v k else if k < 6 then setF .I2C_STATUS_BUSY v (k - 2) else .skip

def uartGet (m : NMap (List Byte)) (k : Nat) : List Byte := (m.get? k).getD []

/-- A write that a peripheral fails, or that is refused. -/
def locError (r : LocReq) (cause : Nat) : Prog :=
  if r.write then pwErr r.offset 4 cause r.chan else failLoc r

/-- Bytes enter a UART's transmit FIFO as far as there is room. -/
def uartFill (k : Nat) (bs : List Byte) : Prog :=
  .act (.brg fun b => { b with uartTx := b.uartTx.put k (uartGet b.uartTx k ++ bs.take (256 - (uartGet b.uartTx k).length)) })

/-- A transfer starts on an idle peripheral. -/
def startLoc (k : Nat) (r : LocReq) : Prog :=
  .get fun s =>
    let reg := if k < 6 ∧ 2 ≤ k then (if s.flag .I2C_CFG_REG16 (k - 2) then r.offset % 2 ^ 16 else r.offset % 256) else 0
    let held := { r with since := s.clock }
    let busy := .act (.brg fun b => { b with busy := b.busy.put k held })
    if k < 6 then .all [busy, setLocBusy k 1, emitOut .localbus [k, r.target, reg, r.len, r.write.toNat] r.data]
    else if r.write then
      let room := 256 - (uartGet s.brg.uartTx k).length
      .seq (uartFill k r.data) (.on (decide (room < r.data.length))
        (.act (.brg fun b => { b with busy := b.busy.put k { held with data := r.data.drop room } })))
    else
      let got := (uartGet s.brg.uartRx k).take r.len
      .seq (.act (.brg fun b => { b with uartRx := b.uartRx.put k ((uartGet b.uartRx k).drop r.len) }))
        (locLoaded r (got ++ List.replicate (r.len - got.length) 0))

/-- The oldest window transfer of a peripheral starts, or is refused: too long, or the peripheral not in use. -/
def locTransfer (k : Nat) : Prog :=
  .get fun s => match (if (s.brg.busy.get? k).isNone then s.brg.loc.find? fun r => r.window == k else none) with
  | none => .skip
  | some r =>
    let drop := .act (.brg fun b => { b with loc := b.loc.erase r })
    if !s.locOn k || r.len == 0 || decide (4096 < r.len) then .seq drop (locError r 1)
    else if r.write then .seq drop (startLoc k r)
    else .on (s.instFree 4) (.seq drop (takeSlot (fun s => { blankSlot with inst := 4, chan := r.chan, moment := s.moment, since := s.clock })
      fun n => startLoc k { r with slot := some n }))

def execLocalBusTransfer (k : Nat) (s : State) := s.does (whenAlive (.on (decide (k < 16)) (locTransfer k)))

/-- A transfer ends: `err` 0 well, 1 address NAK, 2 data NAK, 3 arbitration lost, 4 timeout; `data` what a read returned. On a UART
the bytes of the transmit FIFO have left. -/
def locComplete (k err : Nat) (data : List Byte) : Prog :=
  .get fun s =>
    let r := s.brg.busy.get? k
    let free := .act (.brg fun b => { b with busy := b.busy.del k })
    if 6 ≤ k then
      if err ≠ 0 then (match r with
        | some x => .on (decide (x.since + 10 * ms ≤ s.clock)) (.seq free (locError x 6))
        | none => .skip)
      else .all [
        emitOut .localbus [k] (uartGet s.brg.uartTx k),
        .act (.brg fun b => { b with uartTx := b.uartTx.del k }),
        match r with
        | some x => .seq (uartFill k x.data) (if x.data.length ≤ 256 then free
            else .act (.brg fun b => { b with busy := b.busy.put k { x with data := x.data.drop 256 } }))
        | none => .skip]
    else match r with
    | none => .skip
    | some x => .all [
        free, setLocBusy k 0,
        .on (decide (k < 2)) (bump .SPI_STATUS_TRANSFERS k),
        .on (decide (2 ≤ k)) (.seq (setF .I2C_STATUS_LAST_ERR (err % 8) (k - 2)) (.on (err != 0) (bump .I2C_STATUS_ERRORS (k - 2)))),
        if err ≠ 0 then locError x 6
        else .on (!x.write) (locLoaded x (data.take x.len ++ List.replicate (x.len - data.length) 0))]

def execLocalBusComplete (k err : Nat) (data : List Byte) (s : State) :=
  s.does (whenAlive (.on (decide (k < 8) && decide (err ≤ 4)) (locComplete k err data)))

/-- A byte arrives on a UART (R346): a parity or framing error is counted and the byte kept; a full FIFO loses it. -/
def uartReceive (k : Nat) (byte : Byte) (parity framing : Bool) : Prog :=
  .get fun s => .on (s.flag .UART_CFG_ENABLE k) (.all [
    .on parity (bump .UART_ERRORS_PARITY k), .on framing (bump .UART_ERRORS_FRAMING k),
    if 256 ≤ (uartGet s.brg.uartRx (6 + k)).length then bump .UART_ERRORS_OVERRUN k
    else .act (.brg fun b => { b with uartRx := b.uartRx.put (6 + k) (uartGet b.uartRx (6 + k) ++ [byte]) })])

def execUartReceive (k : Nat) (byte : Byte) (parity framing : Bool) (s : State) :=
  s.does (whenAlive (.on (decide (k < 2)) (uartReceive k byte parity framing)))

end Sys2Proof.Machine
end

