-- ==== Sys2Proof/Machine/Signal.lean ====
section
/-! DEFINITION. The signal gateway (R352 to R363), the CAN FD controllers (R364 to R369) and GPIO edges. -/
namespace Sys2Proof.Machine

/-! ### Maps, records, slots (R353 to R356) -/

def State.mapEntry (s : State) (m : Nat) : List Byte := s.mem.reads (s.raw .SIG_MAP_BASE_BASE * 32 + 32 * m) 32
def mapCount (e : List Byte) := fieldOf e 16 2
def mapKind (e : List Byte) := fieldOf e 18 1
def mapUkind (e : List Byte) := fieldOf e 19 1
def mapOff (e : List Byte) := fieldOf e 20 2
def mapOutLen (e : List Byte) := fieldOf e 22 2
def State.record (s : State) (e : List Byte) (i : Nat) : List Byte := s.mem.reads (fieldOf e 0 6 + 48 * i) 48

def recBit (r : List Byte) := fieldOf r 0 2
def recLen (r : List Byte) := fieldOf r 2 1
def recBig (r : List Byte) : Bool := bit (fieldOf r 3 1) 0
/-- 0 unsigned, 1 signed, 2 bool, 3 float16, 4 float32. -/
def recType (r : List Byte) := bits (fieldOf r 3 1) 3 1
def recSlot (r : List Byte) := fieldOf r 4 2
def recMul (r : List Byte) : Int := sgn 32 (fieldOf r 8 4)
def recShift (r : List Byte) := fieldOf r 12 1 % 64
def recFlags (r : List Byte) := fieldOf r 13 1
def recQpos (r : List Byte) := fieldOf r 14 2
def recTtl (r : List Byte) := fieldOf r 16 4
def recOffset (r : List Byte) : Int := sgn 64 (fieldOf r 24 8)
def recSubst (r : List Byte) : Int := sgn 64 (fieldOf r 32 8)

/-- A record that is skipped: a reserved encoding, a LEN that does not fit its type, or a slot the store does not hold
(log entry 54). -/
def State.recordBad (s : State) (r : List Byte) : Bool :=
  decide (4 < recType r) || bits (fieldOf r 3 1) 7 4 != 0 || recLen r == 0 || decide (64 < recLen r) ||
  (recType r == 3 && recLen r != 16) || (recType r == 4 && recLen r != 32) || fieldOf r 6 2 != 0 ||
  decide (63 < fieldOf r 12 1) || decide (3 < recFlags r) || fieldOf r 20 4 != 0 || decide (s.raw .SIG_STORE_CFG_SLOTS ≤ recSlot r)

def State.slotAt (s : State) (i : Nat) : Nat := s.raw .SIG_STORE_BASE_BASE * 32 + 32 * i

/-- Bit positions of a field, most significant first (R355). -/
def bitPlaces (big : Bool) : Nat → Nat → List Nat
  | _, 0 => []
  | o, n + 1 => if big then o :: bitPlaces big (if o % 8 = 0 then o + 15 else o - 1) n else bitPlaces big (o + 1) n ++ [o]

/-- The field of a frame, none when it reaches beyond the frame. -/
def getField (frame : List Byte) (places : List Nat) : Option Nat :=
  if places.all fun p => decide (p / 8 < frame.length) then
    some (places.foldl (fun n p => 2 * n + (if (frame.getD (p / 8) 0).getLsbD (p % 8) then 1 else 0)) 0)
  else none

def setBitAt (frame : List Byte) (p : Nat) (v : Bool) : List Byte :=
  let b := (frame.getD (p / 8) 0).toNat
  frame.set (p / 8) (BitVec.ofNat 8 (putBits b (p % 8) 1 v.toNat))

/-- Write the low bits of `v`; none when the field reaches beyond the frame. -/
def putField (frame : List Byte) (places : List Nat) (v : Nat) : Option (List Byte) :=
  if places.all fun p => decide (p / 8 < frame.length) then
    some ((places.zip (List.range places.length)).foldl (fun f e => setBitAt f e.1 (v.testBit (places.length - 1 - e.2))) frame)
  else none

/-! ### Triggers (R359) -/

def sigRec (code : Nat) (map chan : Nat) : Prog := logLim 0x38 code 2 0 ms none (map + chan * 2 ^ 32)

/-- A unit enters the control berth (R262). -/
def controlUnit (port chan kind : Nat) (bytes : List Byte) (passed : List (Nat × Nat) := []) : Prog :=
  whenFlowing (ingress {
    group := gControl
    port := port
    chan := chan
    kind := kind
    bytes := bytes
    length := bytes.length
    whole := true
    bad := false
    opened := false
    rsv := true
    link := none
    passed := passed })

/-- A trigger unit of the channel waits for dispatch. -/
def State.triggered (s : State) (c : Nat) : Bool := s.sal.units.any fun e =>
  e.2.chan == c && e.2.kind == 5 && e.2.length == 16 && e.2.group == gControl && e.2.port == 1 &&
    (match e.2.place with | .waiting _ => true | _ => false)

/-- An output channel fires: reason 1 change, 2 cyclic. -/
def fire (c reason : Nat) : Prog :=
  .get fun s =>
    let e := s.entry c
    let t := eParam e 48 1 % 4
    .on (s.flag .SIG_CFG_ENABLE && eType e == tySignal && s.chanState c == csLive && (t == reason || t == 3) && !s.triggered c)
      (controlUnit 1 c 5 (leBytes 4 (eParam e 32 4) ++ [BitVec.ofNat 8 reason, 0, 0, 0] ++ leBytes 8 s.moment))

/-- Cycle of an output channel in ticks. -/
def cycleTicks (e : List Byte) : Nat := max 50 (eParam e 40 4) * us

/-- Channels of the cyclic schedule (R360). -/
def cyclic (e : List Byte) : Bool := eType e == tySignal && bit (eParam e 48 1) 1 && eParam e 40 4 != 0

def execCyclicTrigger (chan : Nat) (s : State) := s.does (whenAlive (.get fun s =>
  let c := chan % 2 ^ 17
  .on (cyclic (s.entry c) && s.moment % cycleTicks (s.entry c) == 0) (fire c 2)))

/-- SIG writes a slot; a change fires the slot's watchers. -/
def writeSlot (i : Nat) (v : Int) (moment qual writer : Nat) : Prog :=
  .get fun s =>
    let a := s.slotAt i
    let old := s.mem.reads a 32
    let change := fieldOf old 0 8 != enc 64 v || (s.flag .SIG_POLICY_CHANGE_ON_QUAL && fieldOf old 16 1 != qual)
    .all [
      store a (leBytes 8 (enc 64 v) ++ leBytes 8 moment ++ [BitVec.ofNat 8 qual, 0, 0, 0] ++ leBytes 4 writer),
      bump .SIG_UPDATES_WRITES,
      .on change (.each [fieldOf old 24 4, fieldOf old 28 4] fun w => .on (bit w 31) (fire (bits w 16 0) 1))]

/-! ### Extraction (R357, R358) -/

/-- QUAL of a write: VALID and CLIPPED. -/
def qualOf (clip : Bool) : Nat := 1 + (if clip then 8 else 0)

/-- The raw field as a number: none for a NaN that is skipped. -/
def rawValue (ty len x : Nat) (nanSkip : Bool) : Option Int :=
  match ty with
  | 0 => some x
  | 1 => some (sgn len x)
  | 2 => some (if x = 0 then 0 else 1)
  | _ =>
    let nan := match (if ty = 3 then f16 else f32).read x with | .nan => true | _ => false
    if nan && nanSkip then none else some (fcvtWord (if ty = 3 then 2 else 3) 1 0 (BitVec.ofNat 64 x)).toInt

/-- One record of an IN map on a frame. -/
def extract (d : Delivered) (frame : List Byte) (moment : Nat) (map : Nat) (r : List Byte) : Prog :=
  .get fun s =>
    if s.recordBad r then sigRec 0x0002 map d.chan
    else match getField frame (bitPlaces (recBig r) (recBit r) (recLen r)) with
    | none => bump .SIG_SHORT_FIELDS
    | some x => match rawValue (recType r) (recLen r) x (s.flag .SIG_POLICY_NAN_SKIP) with
      | none => bump .SIG_NAN_FIELDS
      | some v =>
        let y := scaleInt v (recMul r) (recShift r) (recOffset r) 64 true
        writeSlot (recSlot r) y.1 moment (qualOf y.2) d.chan

/-- One write record of a MAILBOX unit. -/
def mailWrite (d : Delivered) (e : List Byte) (moment map : Nat) (w : List Byte) : Prog :=
  .get fun s =>
    let i := fieldOf w 0 2
    let r := s.record e i
    if mapCount e ≤ i then bump .SIG_SHORT_FIELDS
    else if s.recordBad r then sigRec 0x0002 map d.chan
    else
      let y := scaleInt (sgn 64 (fieldOf w 8 8)) (recMul r) (recShift r) (recOffset r) 64 true
      writeSlot (recSlot r) y.1 moment (qualOf y.2) d.chan

def State.unitOk (s : State) (d : Delivered) : Bool :=
  let map := fieldOf d.bytes 0 4
  let e := s.mapEntry map
  eType d.entry == tySignal && decide (16 ≤ d.bytes.length) && decide (map < s.raw .SIG_MAP_CFG_COUNT) && map == eParam d.entry 32 4 &&
  mapCount e == eParam d.entry 36 2 && (mapKind e == 0 || mapKind e == 2)

/-- SIG takes the oldest unit (R352). -/
def sigUnit : Prog :=
  .get fun s => match s.sig.inbox with
  | [] => .skip
  | d :: rest =>
    let map := fieldOf d.bytes 0 4
    let e := s.mapEntry map
    let moment := fieldOf d.bytes 8 8
    .seq (.act (.sig fun p => { p with inbox := rest })) (
      if !s.flag .SIG_CFG_ENABLE then bump .SIG_REFUSED_UNITS
      else if !s.unitOk d then .seq (bump .SIG_REFUSED_UNITS) (sigRec 0x0001 map d.chan)
      else if mapKind e = 0 then .each (List.range (mapCount e)) fun i =>
        .get fun s => extract d (d.bytes.drop (16 + mapOff e)) moment map (s.record e i)
      else .each (List.range ((d.bytes.length - 16) / 16)) fun i => mailWrite d e moment map ((d.bytes.drop (16 + 16 * i)).take 16))

def execSigUnit (s : State) := s.does (whenAlive sigUnit)

/-! ### Packing (R361, R362) -/

/-- What packing has built so far: the unit, short fields and bad records. -/
structure Packed where
  frame : List Byte
  short : Nat
  bad : Nat

/-- One record of an OUT map. -/
def packRecord (s : State) (ttl off : Nat) (p : Packed) (r : List Byte) : Packed :=
  if s.recordBad r then { p with bad := p.bad + 1 }
  else
    let a := s.slotAt (recSlot r)
    let update := s.load (a + 8) 8
    let life := if recTtl r = 0 then ttl else recTtl r
    let stale := decide (update = 0) || decide (life * us < s.moment - update)
    let subst := stale && bit (recFlags r) 1
    let v : Int := if subst then recSubst r else sgn 64 (s.load a 8)
    let y := scaleInt v (recMul r) (recShift r) (recOffset r) (recLen r) (recType r == 1)
    let field := match recType r with
      | 2 => if y.1 = 0 then 0 else 1
      | 3 => (fcvtWord 1 2 0 (BitVec.ofInt 64 y.1)).toNat
      | 4 => (fcvtWord 1 3 0 (BitVec.ofInt 64 y.1)).toNat
      | _ => enc 64 y.1
    let q := (if stale then 2 else 1) + (if subst then 4 else 0) + (if y.2 || bit (s.load (a + 16) 1) 3 then 8 else 0)
    let body := p.frame.drop off
    match putField body (bitPlaces (recBig r) (recBit r) (recLen r)) field with
    | none => { p with short := p.short + 1 }
    | some f =>
      if bit (recFlags r) 0 then (match putField f (bitPlaces false (recQpos r) 4) q with
        | some g => { p with frame := p.frame.take off ++ g }
        | none => { p with frame := p.frame.take off ++ f, short := p.short + 1 })
      else { p with frame := p.frame.take off ++ f }

/-- SIG builds the unit of an OUT map and enters it on the channel of PARAM.DEST. -/
def pack (map : Nat) (entry : List Byte) (chan : Nat) : Prog :=
  .get fun s =>
    let e := s.mapEntry map
    let r := ((List.range (mapCount e)).map (s.record e)).foldl (packRecord s (eParam entry 44 4) (mapOff e))
      ⟨s.mem.reads (fieldOf e 8 6) (mapOutLen e), 0, 0⟩
    .all [
      bump .SIG_SHORT_FIELDS 0 0 r.short, .on (r.bad != 0) (sigRec 0x0002 map chan), bump .SIG_SENDS_UNITS,
      controlUnit 1 (bits (eParam entry 52 4) 16 0) (mapUkind e) r.frame]

def refuseSig (x : Message) : Prog := .all [takeMessage x, bump .SIG_REFUSED_UNITS, sigRec 0x0003 (bits (msgWord x 0) 63 32) (x.chan.getD 0)]

def packOk (s : State) (x : Message) : Bool :=
  let map := bits (msgWord x 0) 63 32
  let e := s.mapEntry map
  s.flag .SIG_CFG_ENABLE && x.body.length == 16 && within (msgWord x 0) (0xFF + ones 32 32) && within (msgWord x 1) 3 && x.chan.isSome &&
  eType x.entry == tySignal && eParam x.entry 32 4 == map && decide (map < s.raw .SIG_MAP_CFG_COUNT) && mapKind e == 1 &&
  [1, 3, 5].contains (mapUkind e) && decide (16 ≤ mapOutLen e) && decide (mapOutLen e ≤ 1024)

/-- The oldest SIG message, when its op is `op`; a malformed one is discarded by either command. -/
def onSigMessage (op : Nat) (ok : State → Message → Bool) (p : Message → Prog) : Prog :=
  whenAlive (.get fun s => match s.message 0x38 with
  | none => .skip
  | some x =>
    let o := fieldOf x.body 0 1
    if o ≠ 1 ∧ o ≠ 2 then refuseSig x
    else .on (o == op) (if ok s x then p x else refuseSig x))

def packMessage (x : Message) : Prog := .seq (takeMessage x) (pack (bits (msgWord x 0) 63 32) x.entry (x.chan.getD 0))

def execPack (s : State) := s.does (onSigMessage 1 packOk packMessage)

def gpioSetOk (_ : State) (x : Message) : Bool :=
  let mask := msgWord x 1
  x.body.length == 24 && within (msgWord x 0) 0xFF && within mask (ones 48 0) && within (msgWord x 2) (ones 48 0) && x.chan.isSome &&
  eType x.entry == tyPeriph && eParam x.entry 32 1 % 16 == 4 && within mask (eParam x.entry 40 6)

/-- Drive the output lines of a mask. -/
def driveLines (mask levels : Nat) : Prog :=
  .get fun s =>
    let m := mask &&& s.raw .GPIO_DIR_OUT
    let old := s.raw .GPIO_OUT_LEVEL
    let free := if s.dev.st = .safe then m - (m &&& s.raw .GPIO_SAFE_EN_EN) else m
    .seq (setF .GPIO_OUT_LEVEL (old - (old &&& m) + (levels &&& m))) (emitOut .gpio [free, levels &&& free])

def execGpioSet (s : State) := s.does (onSigMessage 2 gpioSetOk fun x => .seq (takeMessage x) (driveLines (msgWord x 1) (msgWord x 2)))

/-! ### GPIO edges (R363) -/

/-- A line in input mode changes level: stamped if that edge is wanted; a transition that reverts in time is a bounce. -/
def gpioTransition (n : Nat) (level : Bool) : Prog :=
  .get fun s =>
    let input := !bit (s.raw .GPIO_DIR_OUT) n
    let old := s.raw .GPIO_IN_LEVEL
    let want := s.flag (if level then .SIG_GPIO_LINE_RISE else .SIG_GPIO_LINE_FALL) 0 n
    .on (input && bit old n != level) (.seq
      (setF .GPIO_IN_LEVEL (if level then old + 2 ^ n else old - 2 ^ n))
      (match s.sig.edges.get? n with
      | some _ => .seq (.act (.sig fun p => { p with edges := p.edges.del n })) (bump .SIG_GPIO_BOUNCE_EDGES)
      | none => .on want (withStamp (ptGpio n) fun w =>
          .act (.sig fun p => { p with edges := p.edges.put n ⟨level, s.moment, w, s.clock⟩ }))))

def execGpioTransition (line : Nat) (level : Bool) (s : State) := s.does (whenAlive (.on (decide (line < 48)) (gpioTransition line level)))

/-- The level has held: the edge counts and its unit enters the control berth. -/
def gpioDebounce (n : Nat) : Prog :=
  .get fun s => match s.sig.edges.get? n with
  | none => .skip
  | some e => .on (decide (e.since + s.raw .SIG_GPIO_LINE_DEBOUNCE_US 0 n * us ≤ s.clock)) (.all [
      .act (.sig fun p => { p with edges := p.edges.del n, levels := p.levels.put n e.level }),
      controlUnit 10 (s.raw .SIG_GPIO_LINE_CHANNEL 0 n) 5
        (leBytes 8 e.moment ++ leBytes 4 e.word ++ [BitVec.ofNat 8 n, if e.level then 3 else 0, 0, 0] ++ leBytes 8 (s.raw .GPIO_IN_LEVEL))
        [(ptGpio n, e.moment)],
      .get fun s' => .on (s'.sal.nextUnit == s.sal.nextUnit) (bump .SIG_GPIO_LOST_EDGES)])

def execGpioDebounce (line : Nat) (s : State) := s.does (whenAlive (.on (decide (line < 48)) (gpioDebounce line)))

/-! ### CAN FD (R364 to R369) -/

def State.canPort (s : State) (n : Nat) : CanPort := (s.can.get? n).getD ⟨[], false, false⟩

/-- The controller takes part in the bus. -/
def State.onBus (s : State) (n : Nat) : Bool := s.flag .CAN_CFG_ENABLE n && decide (s.raw .CAN_STATUS_STATE n ≤ 1) && !(s.canPort n).away &&
  !s.flag .BLK_STATUS_QUIESCED (0x40 + n)

def onCan (n : Nat) (p : Prog) : Prog := .get fun s => .on (s.coreAlive && decide (n < 8)) p

/-- Error active or passive, by the counts; entry to passive is recorded. -/
def canState (n : Nat) : Prog :=
  .get fun s =>
    let passive := decide (128 ≤ s.raw .CAN_STATUS_TEC n) || decide (128 ≤ s.raw .CAN_STATUS_REC n)
    .on (decide (s.raw .CAN_STATUS_STATE n ≤ 1)) (.all [
      .on (passive && s.raw .CAN_STATUS_STATE n == 0) (logRec (0x40 + n) 0x0001),
      setB .CAN_STATUS_STATE passive n])

/-- The filter that decides (R366). -/
def State.canFilter (s : State) (n id : Nat) : Option Nat :=
  (List.range 128).find? fun f =>
    s.flag .CAN_FILTER_VALID n f && ((id % 2 ^ 29) ^^^ s.raw .CAN_FILTER_ID n f) &&& s.raw .CAN_FILTER_MASK n f == 0 &&
    (!s.flag .CAN_FILTER_MATCH_IDE n f || bits id 29 29 == s.raw .CAN_FILTER_IDE n f)

/-- DLC of a data length. -/
def dlcOf (d : Nat) : Nat := if d ≤ 8 then d else match d with | 12 => 9 | 16 => 10 | 20 => 11 | 24 => 12 | 32 => 13 | 48 => 14 | _ => 15

/-- A frame received well (R364 to R366): `id` is the identifier word of R365. A successful reception lowers REC (ISO 11898-1:
from above 127 to a value between 119 and 127). -/
def canReceive (n id : Nat) (esi remote : Bool) (data : List Byte) : Prog :=
  .get fun s =>
    let rec_ := s.raw .CAN_STATUS_REC n
    .seq (if 127 < rec_ then withFree 9 fun v => setF .CAN_STATUS_REC (119 + v) n else setF .CAN_STATUS_REC (rec_ - 1) n)
    (.seq (canState n) (
      if remote then bump .CAN_RX_REMOTE_FRAMES n
      else .seq (bump .CAN_RX_FRAMES_FRAMES n) (match s.canFilter n id with
      | none => bump .CAN_RX_UNMATCHED_FRAMES n
      | some f =>
        let c := s.raw .CAN_FILTER_CHANNEL n f
        let m : Mark := { blankFlow.mark with chan := c, kind := 3, key := s.moment % 2 ^ 32, entered := s.moment }
        .all [
          bump .CAN_FILTER_HITS n f,
          passPoint (ptCan n) 0 0 m fun _ => .skip,
          controlUnit (2 + n) c 3
            (leBytes 4 (id % 2 ^ 32) ++ [BitVec.ofNat 8 (dlcOf data.length + (if esi then 16 else 0)), BitVec.ofNat 8 data.length,
              BitVec.ofNat 8 f, BitVec.ofNat 8 n] ++ leBytes 8 s.moment ++ data) [(ptCan n, s.moment)]])))

def execCanFrameReceive (ctrl id : Nat) (esi remote : Bool) (data : List Byte) (s : State) := s.does (onCan ctrl (.get fun s =>
  .on (s.onBus ctrl && canLength data.length && (s.flag .CAN_CFG_FD ctrl || !bit id 30) && (bit id 30 || decide (data.length ≤ 8)))
    (canReceive ctrl (id % 2 ^ 31) esi remote data)))

/-- Arbitration order: the lower wins; a standard frame before an extended one with the same base. -/
def arbitration (b : List Byte) : Nat :=
  let id := fieldOf b 0 4
  if bit id 29 then bits id 28 18 * 2 ^ 19 + 2 ^ 18 + id % 2 ^ 18 else id % 2 ^ 11 * 2 ^ 19

/-- The held frame that wins arbitration. -/
def CanPort.winner (c : CanPort) : Option (List Byte × Nat) := (sortBy (fun x => arbitration x.1) c.bufs).head?

def canSent (n : Nat) : Prog :=
  .get fun s => match (s.canPort n).winner with
  | none => .skip
  | some x => .on (s.onBus n && !s.flag .CAN_CFG_LISTEN n) (.all [
      setCan n fun c => { c with bufs := c.bufs.erase x },
      withStamp (ptCan n) fun _ => .skip,
      emitOut .can [n] x.1, bump .CAN_TX_FRAMES_FRAMES n,
      setF .CAN_STATUS_TEC (s.raw .CAN_STATUS_TEC n - 1) n, canState n])

def execCanFrameSent (ctrl : Nat) (s : State) := s.does (onCan ctrl (canSent ctrl))

def canTimeout (n : Nat) : Prog :=
  .get fun s =>
    let lim := s.raw .CAN_CFG_TX_TIMEOUT_MS n
    match (s.canPort n).bufs.find? fun x => decide (x.2 + lim * ms ≤ s.clock) with
    | some x => .on (lim != 0) (.all [
        setCan n fun c => { c with bufs := c.bufs.erase x },
        bump .CAN_TX_DROP_UNITS n, logLim (0x40 + n) 0x0003 2 0 ms none (fieldOf x.1 0 4)])
    | none => .skip

def execCanTxTimeout (ctrl : Nat) (s : State) := s.does (onCan ctrl (canTimeout ctrl))

/-- Leave the bus: transmit buffers are emptied, each frame counted (R368). -/
def busOff (n : Nat) : Prog :=
  .get fun s => .all [
    bump .CAN_TX_DROP_UNITS n 0 (s.canPort n).bufs.length,
    setCan n fun c => { c with bufs := [], recover := s.flag .CAN_CFG_AUTO_RECOVER n },
    setF .CAN_STATUS_STATE 2 n, logRec (0x40 + n) 0x0002]

/-- A bus error: the counts after it as ISO 11898-1 gives them, and its kind (R368). A transmit count above 255 is bus-off. -/
def canError (n tec rec_ lec : Nat) : Prog := .all [
  bump .CAN_ERRORS_COUNT n, setF .CAN_STATUS_LEC lec n, setF .CAN_STATUS_TEC (min tec 255) n, setF .CAN_STATUS_REC (min rec_ 255) n,
  if 255 < tec then busOff n else canState n]

def execCanBusError (ctrl tec rec_ lec : Nat) (s : State) := s.does (onCan ctrl (.get fun s =>
  .on (s.onBus ctrl && decide (1 ≤ lec) && decide (lec ≤ 6)) (canError ctrl tec rec_ lec)))

def execCanBusRecover (ctrl : Nat) (s : State) := s.does (onCan ctrl (.get fun s =>
  .on (s.raw .CAN_STATUS_STATE ctrl == 2 && (s.canPort ctrl).recover && s.dev.st != .safe) (.all [
    setF .CAN_STATUS_STATE 0 ctrl, setF .CAN_STATUS_TEC 0 ctrl, setF .CAN_STATUS_REC 0 ctrl,
    setCan ctrl fun c => { c with recover := false }])))

def canRestart (n : Nat) : Prog :=
  .get fun s => .on (s.raw .CAN_STATUS_STATE n == 2 && s.dev.st != .safe) (setCan n fun c => { c with recover := true })

def execCanRestart (ctrl : Nat) (s : State) := s.does (onCan ctrl (canRestart ctrl))

/-- 11 recessive bits after a commit or after ENABLE: the controller takes part again (R369). -/
def execCanRejoin (ctrl : Nat) (s : State) := s.does (onCan ctrl (.get fun s =>
  .on ((s.canPort ctrl).away && s.dev.st != .safe) (.seq (setCan ctrl fun c => { c with away := false })
    (.on (s.flag .CAN_CFG_ENABLE ctrl && s.raw .CAN_STATUS_STATE ctrl == 3) (setF .CAN_STATUS_STATE 0 ctrl)))))

end Sys2Proof.Machine
end

