-- ==== Sys2Proof/Machine/Display.lean ====
section
/-! DEFINITION. The display heads (R376 to R405). -/
namespace Sys2Proof.Machine

/-! ### Values proposed and in force -/

/-- A field of a head: in force, or with its shadow when `new`. -/
def State.hv (s : State) (new : Bool) (r : RegId) (h : Nat) (i : Nat := 0) : Nat := if new then s.next r h i else s.fld r h i

/-- Index of the hold-over layer among a head's layers, and the layers in the order of composition (R385). -/
def holdLayer : Nat := 12
def layerList : List Nat := (List.range 8) ++ [holdLayer]

def bppOf : Nat → Nat
  | 0 => 1
  | 1 => 2
  | 2 => 4
  | 3 => 8
  | 4 => 16
  | _ => 32

structure Timing where
  khz : Nat
  hact : Nat
  hfp : Nat
  hsync : Nat
  hbp : Nat
  vact : Nat
  vfp : Nat
  vsync : Nat
  vbp : Nat
  deriving DecidableEq, Repr

def State.timing (s : State) (new : Bool) (h : Nat) : Timing where
  khz := s.hv new .DSP_PCLK_KHZ h
  hact := s.hv new .DSP_ACTIVE_HACTIVE h
  hfp := s.hv new .DSP_HBLANK_HFP h
  hsync := s.hv new .DSP_HBLANK_HSYNC h
  hbp := s.hv new .DSP_HBLANK_HBP h
  vact := s.hv new .DSP_ACTIVE_VACTIVE h
  vfp := s.hv new .DSP_VBLANK_VFP h
  vsync := s.hv new .DSP_VBLANK_VSYNC h
  vbp := s.hv new .DSP_VBLANK_VBP h

def Timing.htotal (t : Timing) : Nat := t.hact + t.hfp + t.hsync + t.hbp
def Timing.blank (t : Timing) : Nat := t.vfp + t.vsync + t.vbp
def Timing.vtotal (t : Timing) : Nat := t.vact + t.blank

def Timing.hok (v : Nat) : Bool := decide (4 ≤ v) && decide (v ≤ 1020) && v % 4 == 0
def inRange (v lo hi : Nat) : Bool := decide (lo ≤ v) && decide (v ≤ hi)

/-- The limits of R379. -/
def Timing.ok (t : Timing) : Bool :=
  inRange t.khz 25000 2100000 && inRange t.hact 320 7680 && t.hact % 4 == 0 && Timing.hok t.hfp && Timing.hok t.hsync && Timing.hok t.hbp &&
    inRange t.vact 240 4320 && inRange t.vfp 1 255 && inRange t.vsync 1 255 && inRange t.vbp 1 1023 && decide (8 ≤ t.blank) &&
    inRange (t.khz * 1000) (23 * (t.htotal * t.vtotal)) (240 * (t.htotal * t.vtotal))

/-- Lane rates in Mb/s by DSP_LINK_CFG.RATE. -/
def dpRate : Nat → Nat
  | 0 => 1620
  | 1 => 2700
  | 2 => 5400
  | 3 => 8100
  | 4 => 10000
  | 5 => 13500
  | _ => 20000

/-- The payload rate of R381 as a fraction of kb/s: 8b/10b, or 128b/132b. -/
def payloadFits (need rate lanes : Nat) : Bool :=
  if rate < 4 then decide (need * 10 ≤ dpRate rate * 1000 * lanes * 8) else decide (need * 132 ≤ dpRate rate * 1000 * lanes * 128)

/-- A LIVE STREAM channel that a head sources on a cable port (R378). -/
def State.headStream (s : State) (h port : Nat) : Option (List Byte) :=
  ((s.chans.map s.entry).find? fun e =>
    eType e == tyStream && eState e == csLive && bits (eParam e 32 1) 2 0 == port && bit (eParam e 32 1) 4 &&
      !bit (eParam e 35 1) 7 && bits (eParam e 35 1) 1 0 == h)

/-- Rate and lanes of the link in use: of the STREAM channel, as programmed, or as trained; none while training has still to
choose them. -/
def State.headLink (s : State) (new : Bool) (h : Nat) : Option (Nat × Nat) :=
  let route := s.hv new .DSP_OUT_ROUTE h
  let trained := if s.flag .DSP_LINK_STATUS_UP h then some (s.raw .DSP_LINK_STATUS_RATE h, 2 ^ s.raw .DSP_LINK_STATUS_LANES h) else none
  if route ≠ 0 then
    match s.headStream h (route - 1) with
    | none => none
    | some e => if bit (eParam e 34 1) 7 then trained else some (bits (eParam e 34 1) 2 0, eParam e 33 1)
  else if s.level 0x48 = 1 then some (s.hv new .DSP_LINK_CFG_RATE h, 2 ^ s.hv new .DSP_LINK_CFG_LANES h)
  else trained

def State.linkFits (s : State) (new : Bool) (h : Nat) : Bool :=
  let mode := s.hv new .DSP_OUT_MODE h
  match s.headLink new h with
  | none => true
  | some (rate, lanes) =>
    mode == 0 || ((mode == 1 || decide (rate < 4)) &&
      payloadFits (s.hv new .DSP_PCLK_KHZ h * (if s.hv new .DSP_OUT_BPC10 h = 1 then 30 else 24)) rate lanes)

/-! ### Layers and leases (R384, R387, R388, R393) -/

structure LayerVals where
  on : Bool
  format : Nat
  galpha : Nat
  fb : Nat
  stride : Nat
  width : Nat
  height : Nat
  x : Nat
  y : Nat
  deriving DecidableEq, Repr

/-- A layer as proposed or in force; a PRESENT that waits for it shows in the proposal (R395). -/
def State.layer (s : State) (new : Bool) (h l : Nat) : LayerVals where
  on := s.hv new .DSP_LAYER_ENABLE h l == 1
  format := s.hv new .DSP_LAYER_FORMAT h l
  galpha := s.hv new .DSP_LAYER_GALPHA h l
  fb := if new then match (s.head h).presents.find? (fun p => p.layer == l) with
    | some p => p.fb
    | none => s.next .DSP_LAYER_FB h l
    else s.fld .DSP_LAYER_FB h l
  stride := s.hv new .DSP_LAYER_STRIDE h l
  width := s.hv new .DSP_LAYER_WIDTH h l
  height := s.hv new .DSP_LAYER_HEIGHT h l
  x := s.hv new .DSP_LAYER_X h l
  y := s.hv new .DSP_LAYER_Y h l

def State.storeBase (s : State) : Nat := s.raw .DSP_FS_BASE_BASE * 2 ^ 20
def State.storeEnd (s : State) : Nat := s.storeBase + s.raw .DSP_FS_SIZE_MIB * 2 ^ 20

/-- A range lies within the frame store (R387). -/
def State.inStore (s : State) (a n : Nat) : Bool := decide (s.storeBase ≤ a) && decide (a + n ≤ s.storeEnd)
def State.touchesStore (s : State) (a n : Nat) : Bool := decide (a < s.storeEnd) && decide (s.storeBase < a + n)

def LayerVals.ok (s : State) (v : LayerVals) : Bool :=
  v.fb % 64 == 0 && v.stride % 64 == 0 && decide (ceilDiv (v.width * bppOf v.format) 8 ≤ v.stride) && s.inStore v.fb (v.stride * v.height)

/-- Bytes per second that a layer fetches (R388). -/
def LayerVals.fetch (v : LayerVals) (t : Timing) : Nat :=
  min v.width (t.hact - v.x) * min v.height (t.vact - v.y) * bppOf v.format * t.khz * 125 / (t.htotal * t.vtotal)

/-- The fetch of every enabled layer of every head; heads in `news` with the values proposed. -/
def State.fetchSum (s : State) (news : List Nat) : Nat :=
  ((List.range 4).map fun h =>
    let new := news.contains h
    let t := s.timing new h
    ((layerList.map (s.layer new h)).filter (·.on)).foldl (fun n v => n + v.fetch t) 0).foldl (· + ·) 0

/-- Buffers leased (R393): of enabled layers in force, and of those that a pending commit names. -/
def State.leases (s : State) : List (Nat × Nat) :=
  ((List.range 4).map fun h =>
    let pend := s.flag .DSP_HSTATUS_PENDING h
    ((layerList.map (s.layer false h)) ++ (if pend then layerList.map (s.judged.layer true h) else [])).filterMap fun v =>
      if v.on ∧ 0 < v.stride * v.height then some (v.fb, v.fb + v.stride * v.height) else none).flatten

def State.leased (s : State) (a n : Nat) : Bool := s.leases.any fun l => decide (a < l.2) && decide (l.1 < a + n)

/-! ### Commits (R391, R392, R396) -/

/-- The other head of a locked pair. -/
def State.partner (s : State) (h : Nat) : Option Nat :=
  if h < 2 ∧ s.flag .DSP_CFG_LOCK01 then some (1 - h) else if 2 ≤ h ∧ s.flag .DSP_CFG_LOCK23 then some (5 - h) else none

/-- The heads that act together with one, master first. -/
def State.pairOf (s : State) (h : Nat) : List Nat :=
  match s.partner h with
  | none => [h]
  | some g => [min h g, max h g]

/-- What the two heads of a pair must share (R396). -/
def State.pairVals (s : State) (new : Bool) (h : Nat) : Timing × List Nat :=
  (s.timing new h, [s.hv new .DSP_VBLANK_HPOL h, s.hv new .DSP_VBLANK_VPOL h, s.hv new .DSP_OUT_MODE h, s.hv new .DSP_OUT_BPC10 h,
    s.hv new .DSP_OUT_PSR_EN h, s.hv new .DSP_OUT_PSR_FRAMES h, s.hv new .DSP_OUT_ROUTE h])

/-- CAUSE of the first check that a commit of these heads fails (R403): 0 none. -/
def State.headCause (s : State) (hs : List Nat) : Nat :=
  if !(hs.all fun h => (s.timing true h).ok) then 1
  else if !(hs.all (s.linkFits true)) then 2
  else if !(hs.all fun h => (layerList.map (s.layer true h)).all fun v => !v.on || v.ok s) then 3
  else if s.next .DSP_FETCH_BUDGET_BUDGET * 100000000 < s.fetchSum hs then 4
  else if hs.length = 2 ∧ !(s.pairVals true (hs.getD 0 0) == s.pairVals true (hs.getD 1 0) && s.next .DSP_OUT_ROUTE (hs.getD 0 0) == 0) then 5
  else if !(hs.all fun h => (s.next .DSP_OUT_ROUTE h == 0 || s.next .DSP_OUT_MODE h == 1) &&
      (s.next .DSP_OUT_PSR_EN h == 0 || s.next .DSP_OUT_MODE h == 2)) then 6
  else 0

/-- Combination 4 of R504 for one head with a ROUTE: no LIVE STREAM channel feeds the routed port from it, or a LIVE one names it
for another port. -/
def State.routeClash (s : State) (h route : Nat) : Bool :=
  (route != 0 && (s.headStream h (route - 1)).isNone) ||
    (List.range 6).any fun p => (s.headStream h p).isSome && route != p + 1

/-- COMMIT_PENDING shows while a head of a commit of the whole block is pending. -/
def blkPending : Prog := .get fun s =>
  .on (!(List.range 4).any fun h => s.flag .DSP_HSTATUS_PENDING h) (setF .BLK_STATUS_COMMIT_PENDING 0 0x48)

/-- A field of one head; a field of DSP that is no head's. -/
def ofHead (h : Nat) (r : RegId) (i _j : Nat) : Bool := r.info.blk == .dsp && r.info.insts == 4 && i == h
def ofGlobals (r : RegId) (i _j : Nat) : Bool := r.owner i == 0x48 && r.info.insts != 4

/-- A head's commit ends: its result, and the result of the last head to finish. -/
def headResult (h result cause : Nat) : Prog := .all [
  putHead h fun v => { v with commitAt := none }, .act (.untake (ofHead h)), setF .DSP_HSTATUS_PENDING 0 h, setF .DSP_HSTATUS_RESULT result h,
  setF .DSP_HSTATUS_CAUSE cause h, setF .BLK_STATUS_RESULT result 0x48, blkPending]

/-- A commit of these heads is rejected: one record for it. -/
def rejectHeads (hs : List Nat) (result cause number : Nat) : Prog := .all [
  .each hs fun h => headResult h result cause, bump .BLK_COMMIT_COUNT_REJECT_COUNT 0x48,
  logRec 0x48 0xF004 2 none (result + number * 2 ^ 32)]

/-- Shadows of one head. -/
def State.headShadows (s : State) (h : Nat) : List (RegId × Nat × Nat × Nat) := (s.shadows.chosen (ofHead h)).list

/-- The commit of a head, with the other head of its pair. -/
def headCommit (h : Nat) : Prog :=
  .get fun s =>
    let hs := s.pairOf h
    if hs.any fun g => s.flag .DSP_HSTATUS_PENDING g then setF .BLK_STATUS_BUSY_REFUSED 1 0x48
    else if s.headCause hs = 0 then .each hs fun g => .all [
      setF .DSP_HSTATUS_PENDING 1 g, .act (.take (ofHead g)), putHead g fun v => { v with commitAt := some s.clock }]
    else rejectHeads hs 2 (s.headCause hs) (s.headCause hs)

def onHead (h : Nat) (p : Prog) : Prog := .get fun s => .on (s.coreAlive && decide (h < 4)) p

def execHeadCommit (head : Nat) (s : State) := s.does (onHead head (headCommit head))

/-- ABANDON of a head: its pending commit is withdrawn and its shadows equal the values in force again (R53, R391). -/
def headAbandon (h : Nat) : Prog :=
  .get fun s => .each (s.pairOf h) fun g => .all [
    .on (s.flag .DSP_HSTATUS_PENDING g) (.all [putHead g fun v => { v with commitAt := none }, setF .DSP_HSTATUS_PENDING 0 g]),
    .act (.keepShadows fun r i j => !ofHead g r i j), .act (.untake (ofHead g)), blkPending]

def execHeadAbandon (head : Nat) (s : State) := s.does (onHead head (headAbandon head))

/-- The shadows of no head: LEASE_MODE, the fetch budget and the level. -/
def applyGlobals : Prog :=
  .seq (applyTaken ofGlobals) (.act (.dsp fun d => { d with globals := false }))

/-- BLK_COMMIT of DSP: every head whose shadows differ from the values in force; the other shadows take effect with the first of
them, or at once when no head differs (log entry 56). -/
def dspCommit : Prog :=
  .get fun s =>
    let differs (h : Nat) : Bool := (s.headShadows h).any fun e => e.2.2.2 != s.fld e.1 e.2.1 e.2.2.1
    let hs := (List.range 4).filter fun h => differs h && !(match s.partner h with | some g => decide (g < h) && differs g | none => false)
    .all [
      .act (.take ofGlobals),
      if hs.isEmpty then .seq applyGlobals (commitDone 0x48)
      else .seq (.act (.dsp fun d => { d with globals := true })) (setF .BLK_STATUS_COMMIT_PENDING 1 0x48),
      .each hs headCommit, blkPending]

def dspAbandon : Prog := .seq (.each (List.range 4) headAbandon) (.seq (abandonBlock 0x48) (.act (.dsp fun d => { d with globals := false })))

/-! ### Panel Self Refresh (R397) -/

/-- Damage: the frame counts as damaged, and a head in PSR leaves it, with its pair. -/
def damage (h : Nat) : Prog :=
  .get fun s => .each (s.pairOf h) fun g => .all [
    putHead g fun v => { v with damaged := true, quiet := 0 },
    .on (s.flag .DSP_HSTATUS_PSR_ACTIVE g) (.seq (setF .DSP_HSTATUS_PSR_ACTIVE 0 g) (emitOut .aux [g, 0]))]

def State.psrReady (s : State) (h : Nat) : Bool :=
  s.raw .DSP_OUT_MODE h == 2 && s.flag .DSP_OUT_PSR_EN h && s.flag .DSP_HCTRL_ENABLE h && !(s.head h).damaged &&
    decide (s.raw .DSP_OUT_PSR_FRAMES h ≤ (s.head h).quiet)

/-- At a vertical blanking start, after PSR_FRAMES undamaged frames; `sinkOk`: the sink reports PSR capability in DPCD. -/
def execPsrEntry (head : Nat) (sinkOk : Bool) (s : State) := s.does (onHead head (.get fun s =>
  .on (sinkOk && (s.pairOf head).all (fun g => s.psrReady g && !s.flag .DSP_HSTATUS_PSR_ACTIVE g) &&
      (s.pairOf head).any (fun g => (s.head g).lastVblank == s.clock))
    (.each (s.pairOf head) fun g => .seq (setF .DSP_HSTATUS_PSR_ACTIVE 1 g) (emitOut .aux [g, 1]))))

/-! ### Vertical blanking (R380, R392, R393, R395, R399) -/

/-- The link trains again; video is muted until it has. -/
def retrain (h : Nat) : Prog := .all [
  setF .DSP_LINK_STATUS_UP 0 h, putHead h fun v => { v with training := true }]

/-- What a head shows before and after a commit decides what follows: a lost frame for a new pixel clock, a training for a new
output, route or link. -/
def headChanged (old : State) (h : Nat) : Prog :=
  .get fun s =>
    let differs (r : RegId) : Bool := s.fld r h != old.fld r h
    let on := s.flag .DSP_HCTRL_ENABLE h
    let was := old.flag .DSP_HCTRL_ENABLE h
    if !on then
      .on was (.all [setF .DSP_LINK_STATUS_UP 0 h, setF .DSP_LINK_STATUS_PLL_LOCK 0 h, setF .DSP_HSTATUS_LOCKED 0 h,
        putHead h fun v => { v with training := false, mute := 0 }])
    else .all [
      .on (!was || differs .DSP_PCLK_KHZ) (.seq (setF .DSP_LINK_STATUS_PLL_LOCK 0 h) (putHead h fun v => { v with mute := 1 })),
      .on (!was || differs .DSP_OUT_MODE || differs .DSP_OUT_ROUTE || (s.level 0x48 == 1 && (differs .DSP_LINK_CFG_RATE || differs .DSP_LINK_CFG_LANES)))
        (retrain h),
      match s.partner h with
      | some g => .each [h, g] fun k => setB .DSP_HSTATUS_LOCKED (s.flag .DSP_HCTRL_ENABLE g) k
      | none => setF .DSP_HSTATUS_LOCKED 0 h]

/-- The shadows of a head come into force. -/
def applyHead (h : Nat) : Prog :=
  .get fun s => .all [
    .on s.dsp.globals applyGlobals,
    applyTaken (ofHead h),
    headResult h 1 0, .get fun s' => setF .DSP_FETCH_USE_FETCH (s'.fetchSum [] / 100000000), headChanged s h]

/-- PRESENTs that can take effect now. -/
def State.duePresents (s : State) (h : Nat) : List Present :=
  (s.head h).presents.filter fun p => match p.readyAt with | some t => decide (t + 4 * us ≤ s.clock) | none => false

/-- B is the FB in force and of the shadow. -/
def applyPresents (h : Nat) : Prog :=
  .get fun s => .all [
    .each (s.duePresents h) fun p => .seq (setF .DSP_LAYER_FB p.fb h p.layer)
      (.on ((s.shadows.look .DSP_LAYER_FB h p.layer).isSome) (.act (.shadow .DSP_LAYER_FB h p.layer p.fb))),
    putHead h fun v => { v with presents := v.presents.filter fun p => !(s.duePresents h).contains p }]

/-- The release fence of R393. -/
def postFence (h : Nat) : Prog :=
  .get fun s => .all [
    setF .DSP_FENCE_SEQ (s.raw .DSP_HSTATUS_SEQ h) h,
    .on (s.raw .DSP_FENCE_ADDR_ADDR h != 0)
      (store (s.raw .DSP_FENCE_ADDR_ADDR h * 16) (leBytes 2 (s.raw .DSP_HSTATUS_SEQ h) ++ List.replicate 6 0 ++ leBytes 8 s.moment)),
    raiseIrq 0x48]

/-- Keep PRESENTs up to date: those whose earlier tiles have all been written or discarded are ready. -/
def readyPresents (h : Nat) : Prog :=
  .get fun s => putHead h fun v => { v with
    presents := v.presents.map fun p =>
      let left := p.before.any fun k => v.tiles.any (fun t => t.key == k) || s.sal.units.any (fun u => u.2.chan == p.chan && stampKey u.2.stampMoment u.2.stampWord == k)
      if p.readyAt.isNone ∧ !left then { p with readyAt := some s.clock } else p }

/-- The part of a vertical blanking start that is one head's own. -/
def frameEnd (h : Nat) : Prog :=
  .get fun s =>
    let v := s.head h
    .all [
      putHead h fun v => { v with
        quiet := if v.damaged then 0 else v.quiet + 1
        damaged := false
        lastVblank := s.clock
        mute := v.mute - 1 },
      .on (v.mute == 1) (setF .DSP_LINK_STATUS_PLL_LOCK 1 h),
      .on (s.flag .DSP_HCTRL_ENABLE h) (.seq (bump .DSP_FRAME_COUNT_FRAMES h) (withStamp (ptVblank h) fun w => emitOut .video [h, s.moment, w])),
      readyPresents h]

/-- The hold-over layer appears or disappears with hold-over. -/
def showHold (h : Nat) : Prog :=
  .get fun s =>
    let now := s.dev.st == .hold && s.flag .DSP_LAYER_ENABLE h holdLayer
    .on (now != (s.head h).holdShown) (.seq (putHead h fun v => { v with holdShown := now }) (damage h))

/-- At V: a pending commit at least 4 µs old is judged and applied, PRESENTs that are ready take effect, and one fence follows. -/
def applyVblank (hs : List Nat) : Prog :=
  .get fun s =>
    let due := hs.any fun h => match (s.head h).commitAt with | some t => decide (t + 4 * us ≤ s.clock) | none => false
    let cause := s.judged.headCause hs
    let clash := hs.any fun h => s.routeClash h (s.judged.next .DSP_OUT_ROUTE h)
    let presents := hs.any fun h => !(s.duePresents h).isEmpty
    let commits := due && cause == 0 && !clash
    .all [
      .on due (if cause ≠ 0 then rejectHeads hs 2 cause cause else if clash then rejectHeads hs 3 0 4
        else .seq (.each hs applyHead) (bump .BLK_COMMIT_COUNT_DONE_COUNT 0x48)),
      .each hs applyPresents,
      .on (commits || presents) (.each hs fun h => .all [bump .DSP_HSTATUS_SEQ h, postFence h, damage h]),
      .each hs showHold]

/-- Vertical blanking start of a head. The master of a locked pair acts for both; the slave's own only ends its frame. -/
def vblank (h : Nat) : Prog :=
  .seq (frameEnd h) (.get fun s =>
    match s.partner h with
    | none => applyVblank [h]
    | some g => .on (decide (h < g)) (applyVblank [h, g]))

def execVblankStart (head : Nat) (s : State) := s.does (onHead head (vblank head))

/-! ### PRESENT (R395) -/

def presentOk (s : State) (x : Message) : Bool :=
  let w := msgWord x 0
  let h := bits w 9 8
  let l := bits w 14 12
  let b := bits (msgWord x 1) 47 0
  x.body.length == 16 && within w (ones 8 0 + ones 2 8 + ones 3 12) && within (msgWord x 1) (ones 48 0) &&
    eType x.entry == tyDisplay && bits (eParam x.entry 32 1) 1 0 == h && bits (eParam x.entry 32 1) 6 4 == l &&
    bits (eParam x.entry 36 8) 47 0 == b && (s.layer false h l).on && LayerVals.ok s { s.layer false h l with fb := b }

/-- The tiles that a channel has enqueued to a head and that are not yet written: their stamp keys. -/
def State.tilesBefore (s : State) (h c : Nat) : List Nat :=
  (((s.head h).tiles.filter fun t => t.unit.chan == c).map (·.key)) ++
    ((s.sal.units.filter fun u => u.2.chan == c && u.2.enqueued).map fun u => stampKey u.2.stampMoment u.2.stampWord)

def presentMessage (x : Message) : Prog :=
  .get fun s =>
    let h := bits (msgWord x 0) 9 8
    let l := bits (msgWord x 0) 14 12
    let c := x.chan.getD 0
    if bits (msgWord x 0) 7 0 = 1 ∧ presentOk s x then .all [
      putHead h fun v => { v with
        presents := v.presents.filter (fun p => p.layer != l) ++ [⟨l, bits (msgWord x 1) 47 0, c, s.tilesBefore h c, none⟩] },
      readyPresents h, damage h]
    else .all [bump .DSP_MSG_REFUSED_MESSAGES, logLim 0x48 0x0007 2 h ms x.chan (h + 255 * 2 ^ 8)]

/-- The oldest message at DSP is taken. -/
def execPresent (s : State) := s.does (whenAlive (.get fun s => match s.message 0x48 with
  | none => .skip
  | some x => .seq (takeMessage x) (presentMessage x)))

/-! ### Tiles (R389, R390, R394) -/

structure TileHead where
  tx : Nat
  ty : Nat
  w : Nat
  h : Nat
  rle : Bool
  deriving DecidableEq, Repr

def tileEnc (b : List Byte) : Nat := fieldOf b 6 1
def tileHead (b : List Byte) : TileHead := ⟨fieldOf b 0 2, fieldOf b 2 2, fieldOf b 4 1 + 1, fieldOf b 5 1 + 1, tileEnc b == 1⟩

/-- Bytes of one line of a tile, and of one element of run-length data. -/
def lineBytes (w bpp : Nat) : Nat := ceilDiv (w * bpp) 8
def elemBytes (bpp : Nat) : Nat := max 1 (bpp / 8)

/-- Run-length data: at most `n` elements of `e` bytes, from at most `fuel` control bytes; none when it is malformed. -/
def unrle (e : Nat) : Nat → Nat → List Byte → Option (List Byte)
  | _, n, [] => if n = 0 then some [] else none
  | 0, _, _ :: _ => none
  | fuel + 1, n, c :: t =>
    let k := c.toNat % 128 + 1
    if n < k then none
    else if 128 ≤ c.toNat then
      (if t.length < e then none else (unrle e fuel (n - k) (t.drop e)).map fun r => (List.replicate k (t.take e)).flatten ++ r)
    else if t.length < k * e then none
    else (unrle e fuel (n - k) (t.drop (k * e))).map fun r => t.take (k * e) ++ r

/-- The lines of a tile, as raw data; none for a malformed one. -/
def tileData (b : List Byte) (bpp : Nat) (rleOk : Bool) : Option (List Byte) :=
  let t := tileHead b
  let d := b.drop 16
  let size := t.h * lineBytes t.w bpp
  if b.length < 16 ∨ t.tx % 64 ≠ 0 ∨ t.ty % 64 ≠ 0 ∨ 64 < t.w ∨ 64 < t.h ∨ 1 < tileEnc b ∨ fieldOf b 7 1 ≠ 0 ∨ fieldOf b 12 4 ≠ 0 ∨ fieldOf b 8 4 ≠ d.length
  then none
  else if t.rle then (if rleOk then unrle (elemBytes bpp) d.length (size / elemBytes bpp) d else none)
  else if d.length = size then some d else none

/-- Where a DISPLAY channel draws. -/
structure Canvas where
  head : Nat
  layer : Nat
  fb : Nat
  stride : Nat
  width : Nat
  height : Nat
  bpp : Nat
  rleOk : Bool
  hold : Bool
  deriving DecidableEq, Repr

def canvasOf (e : List Byte) : Canvas where
  head := bits (eParam e 32 1) 1 0
  layer := bits (eParam e 32 1) 6 4
  fb := bits (eParam e 36 8) 47 0
  stride := eParam e 44 2
  width := eParam e 46 2
  height := eParam e 48 2
  bpp := bppOf (eParam e 33 1)
  rleOk := bit (eParam e 34 1) 0
  hold := bit (eParam e 34 1) 1

def tileBad (h : Nat) (chan : Nat) (layer : Nat) (addr : Nat) : Prog :=
  .seq (bump .DSP_TILE_BAD_TILES) (logLim 0x48 0x0003 2 h ms (some chan) (h + layer * 2 ^ 8 + addr * 2 ^ 32))

/-- The layer of the canvas whose owner a channel is (R390). -/
def State.ownedLayer (s : State) (c : Canvas) : Option Nat :=
  let l := if c.hold then holdLayer else c.layer
  let v := s.layer false c.head l
  if v.on ∧ v.fb = c.fb then some l else none

/-- The line of the screen that a head scans; none in blanking, with the head off, or in PSR. -/
def State.scanLine (s : State) (h : Nat) : Option Nat :=
  let t := s.timing false h
  let line := (s.clock - (s.head ((s.pairOf h).headD h)).lastVblank) * t.khz / (t.htotal * 4000000)
  if !s.flag .DSP_HCTRL_ENABLE h || s.flag .DSP_HSTATUS_PSR_ACTIVE h || decide (line < t.blank) || decide (t.vtotal ≤ line) then none
  else some (line - t.blank)

/-- The scan is within the tile's lines of a layer. -/
def State.scanning (s : State) (h l : Nat) (t : TileHead) : Bool :=
  (l != holdLayer || (s.head h).holdShown) &&
    (match s.scanLine h with
    | none => false
    | some y => inRange y ((s.layer false h l).y + t.ty) ((s.layer false h l).y + t.ty + t.h - 1))

/-- Pixels of a tile's line inside the buffer. -/
def Canvas.cols (c : Canvas) (t : TileHead) : Nat := min t.w (c.width - t.tx)
def Canvas.rows (c : Canvas) (t : TileHead) : Nat := min t.h (c.height - t.ty)
def Canvas.rowAddr (c : Canvas) (t : TileHead) (i : Nat) : Nat := c.fb + (t.ty + i) * c.stride + t.tx * c.bpp / 8

/-- One line of a tile enters its buffer; in the last byte of a narrow format pixels beyond it stay. -/
def writeLine (c : Canvas) (t : TileHead) (i : Nat) (line : List Byte) : Prog :=
  .get fun s =>
    let n := c.cols t * c.bpp
    let a := c.rowAddr t i
    let old := s.mem.read (a + n / 8)
    let last := line.getD (n / 8) 0
    .seq (store a (line.take (n / 8)))
      (.on (n % 8 != 0) (store (a + n / 8) [BitVec.ofNat 8 (putBits old.toNat 0 (n % 8) last.toNat)]))

def writeTile (c : Canvas) (t : TileHead) (d : List Byte) : Prog := .all [
  .on (decide (c.cols t < t.w) || decide (c.rows t < t.h)) (bump .DSP_TILE_CLIP_TILES),
  .each (List.range (c.rows t)) fun i => writeLine c t i ((d.drop (i * lineBytes t.w c.bpp)).take (lineBytes t.w c.bpp))]

/-- What becomes of a tile now: it is written, it is bad, it waits for the scan, or a lease stands in its way. -/
inductive Verdict where
  | write (c : Canvas) (t : TileHead) (d : List Byte) (owner : Bool)
  | bad (a : Nat)
  | defer
  | lease (a : Nat)
  deriving DecidableEq, Repr

def State.tileVerdict (s : State) (u : Delivered) : Verdict :=
  let c := canvasOf u.entry
  let t := tileHead u.bytes
  match tileData u.bytes c.bpp c.rleOk with
  | none => .bad c.fb
  | some d =>
    if !s.inStore c.fb (c.stride * c.height) then .bad c.fb
    else match s.ownedLayer c with
    | some l => if s.scanning c.head l t then .defer else .write c t d true
    | none =>
      match (List.range (c.rows t)).find? fun i => s.leased (c.rowAddr t i) (lineBytes (c.cols t) c.bpp) with
      | some i => .lease (c.rowAddr t i)
      | none => .write c t d false

/-- The tile leaves the writer. -/
def endTile (h : Nat) (t : Tile) : Prog := .seq (putHead h fun v => { v with tiles := v.tiles.erase t }) (readyPresents h)

def waitTile (h : Nat) (t : Tile) (held : Bool) : Prog :=
  putHead h fun v => { v with tiles := v.tiles.map fun x => if x == t then { x with waited := true, held := x.held || held } else x }

/-- The writer handles one tile (R390); tiles of one channel keep their order. -/
def handleTile (h : Nat) (t : Tile) : Prog :=
  .get fun s =>
    let c := canvasOf t.unit.entry
    let ahead := ((s.head h).tiles.takeWhile (· != t)).any fun x => x.unit.chan == t.unit.chan
    if ahead then waitTile h t false
    else match s.tileVerdict t.unit with
    | .bad a => .seq (tileBad h t.unit.chan c.layer a) (endTile h t)
    | .defer => waitTile h t false
    | .lease a =>
      if s.raw .DSP_CFG_LEASE_MODE = 0 then .seq (.on (!t.held) (bump .DSP_LEASE_WAITS_WRITES)) (waitTile h t true)
      else .all [bump .DSP_LEASE_VIOL_WRITES, logRec 0x48 0x0002 2 (some t.unit.chan) (h + c.layer * 2 ^ 8 + a * 2 ^ 32), endTile h t]
    | .write c th d owner => .all [writeTile c th d, .on owner (damage c.head), endTile h t]

def onTile (h : Nat) (waited : Bool) (ready : State → Tile → Bool) : Prog :=
  .get fun s => match (s.head h).tiles.find? fun t => t.waited == waited && ready s t with
    | some t => handleTile h t
    | none => .skip

/-- A tile that has arrived is checked. -/
def execTileUpdate (head : Nat) (s : State) := s.does (onHead head (onTile head false fun _ _ => true))

/-- The first tile that waits and now can go on. -/
def execTileApply (head : Nat) (s : State) := s.does (onHead head (onTile head true fun s t =>
  !(((s.head head).tiles.takeWhile (· != t)).any fun x => x.unit.chan == t.unit.chan) &&
    (match s.tileVerdict t.unit with
    | .defer => false
    | .lease _ => s.raw .DSP_CFG_LEASE_MODE == 1 || !t.held
    | _ => true)))

/-! ### Underrun, link, PLL (R398, R400, R405) -/

/-- One line with an underrun. -/
def execDspUnderrun (head : Nat) (s : State) := s.does (onHead head (.get fun s => .on (s.flag .DSP_HCTRL_ENABLE head)
  (.seq (bump .DSP_UNDERRUN_COUNT_LINES head) (logLim 0x48 0x0001 2 head sec none (head + 255 * 2 ^ 8)))))

/-- The head stops sending; its timing and its leases stay. -/
def headLinkDown (h : Nat) : Prog := .all [
  logRec 0x48 0x0004 2 none (h + 255 * 2 ^ 8), setF .DSP_LINK_STATUS_UP 0 h,
  putHead h fun v => { v with training := false, lost := true }]

def execHpdLoss (head : Nat) (s : State) := s.does (onHead head (.get fun s => .on (s.head head).hpd
  (.seq (putHead head fun v => { v with hpd := false }) (.on (s.flag .DSP_HCTRL_ENABLE head) (headLinkDown head)))))

def execAuxFailure (head : Nat) (s : State) := s.does (onHead head (.get fun s =>
  .on (s.flag .DSP_HCTRL_ENABLE head && !(s.head head).lost) (headLinkDown head)))

/-- HPD is high again: the link retrains. -/
def execHpdReturn (head : Nat) (s : State) := s.does (onHead head (.seq
  (putHead head fun v => { v with hpd := true })
  (.get fun s => .on (s.flag .DSP_HCTRL_ENABLE head && (s.head head).lost && s.raw .DSP_OUT_MODE head != 0) (retrain head))))

/-- Training ends with a rate, lanes (0 one, 1 two, 2 four) and drive settings; in basic level they are the derived values (R404). -/
def execDspTrainingComplete (head rate lanes tx : Nat) (s : State) := s.does (onHead head (.get fun s =>
  let basic := s.level 0x48 == 0
  let r := if basic then rate else s.raw .DSP_LINK_CFG_RATE head
  let l := if basic then lanes else s.raw .DSP_LINK_CFG_LANES head
  .on ((s.head head).training && (s.head head).hpd && !s.laneOut (38 + head) && decide (rate < 7) && decide (lanes < 3) && s.raw .DSP_OUT_MODE head != 0 &&
      (decide (r < 4) || s.raw .DSP_OUT_MODE head == 1)) (.all [
    .on basic (.all [setF .DSP_LINK_CFG_RATE rate head, setF .DSP_LINK_CFG_LANES lanes head, setF .DSP_LINK_CFG_TX_SETTING (tx % 16) head]),
    setF .DSP_LINK_STATUS_UP 1 head, setF .DSP_LINK_STATUS_RATE r head, setF .DSP_LINK_STATUS_LANES l head,
    .on (s.head head).lost (logRec 0x48 0x0005 1 none (head + 255 * 2 ^ 8)),
    putHead head fun v => { v with training := false, lost := false }])))

/-- The pixel PLL has not relocked: the head stays muted, and tries again with the next frame. -/
def execDspPllUnlock (head : Nat) (s : State) := s.does (onHead head (.get fun s =>
  .on (decide (0 < (s.head head).mute) && s.raw .DSP_LINK_STATUS_PLL_LOCK head == 0) (.seq
    (logRec 0x48 0x0006 2 none (head + 255 * 2 ^ 8)) (putHead head fun v => { v with mute := 2 }))))

/-- An IRQ_HPD pulse on a head's input is served over AUX; one from a DisplayPort sink on a cable port is served by the head routed
there, or passed on to the sources of the streams that pass through (R376, R422). -/
def execIrqHpd (head : Nat) (port : Option Nat) (s : State) := s.does (onHead head (.get fun s =>
  match port with
  | none => .on ((s.head head).hpd && s.flag .DSP_HCTRL_ENABLE head && s.raw .DSP_OUT_MODE head == 1) (emitOut .aux [head, 2])
  | some k => .on (decide (k < 6)) (.all [
      .on (s.raw .DSP_OUT_ROUTE head == k + 1) (emitOut .aux [head, 2, k]),
      .each (s.chans.filter fun c => eType (s.entry c) == tyStream && s.chanState c == csLive && !bit (eParam (s.entry c) 32 1) 4 && eBerth (s.entry c) / 3 == k)
        fun c => vdm (bits (eParam (s.entry c) 32 1) 2 0) 0 6 dpSvid [2 + 8 + 128 + 256]])))

/-! ### The picture (R383, R385, R386) -/

/-- A narrow component widened to 10 bits by repeating its bits. -/
def widen (w c : Nat) : Nat :=
  if w = 8 then c * 4 + c / 64 else if w = 5 then c * 32 + c else if w = 6 then c * 16 + c / 4 else c

/-- Red, green, blue in 10 bits, and alpha in 8. -/
structure Pixel where
  r : Nat
  g : Nat
  b : Nat
  a : Nat
  deriving DecidableEq, Repr

def argb (n : Nat) (a : Nat) : Pixel := ⟨widen 8 (bits n 23 16), widen 8 (bits n 15 8), widen 8 (bits n 7 0), a⟩

/-- The pixel of a layer's buffer at (x, y). -/
def State.source (s : State) (h l : Nat) (v : LayerVals) (x y : Nat) : Pixel :=
  let bpp := bppOf v.format
  let a := v.fb + y * v.stride + x * bpp / 8
  if bpp < 16 then
    let i := bits (s.mem.read a).toNat ((x * bpp) % 8 + bpp - 1) ((x * bpp) % 8)
    let p := s.raw .DSP_PAL_ARGB h ((if l = holdLayer then 8 else l) * 256 + i)
    argb p (bits p 31 24)
  else
    let n := s.load a (bpp / 8)
    match v.format with
    | 4 => ⟨widen 5 (bits n 15 11), widen 6 (bits n 10 5), widen 5 (bits n 4 0), 255⟩
    | 5 => argb n 255
    | 6 => argb n (bits n 31 24)
    | _ => ⟨bits n 29 20, bits n 19 10, bits n 9 0, 255⟩

def blend (a8 src out : Nat) : Nat := (a8 * src + (255 - a8) * out + 127) / 255

def Pixel.onto (p out : Pixel) (galpha : Nat) : Pixel :=
  let a8 := (p.a * galpha + 127) / 255
  ⟨blend a8 p.r out.r, blend a8 p.g out.g, blend a8 p.b out.b, 255⟩

/-- The composed pixel of a head at screen position (x, y), 10 bits per component. The picture is a function of the state and is
not stored. -/
def State.pixel (s : State) (h x y : Nat) : Pixel :=
  let bg := s.raw .DSP_BG_RGB h
  (layerList.filter fun l => l != holdLayer || (s.head h).holdShown).foldl (fun out l =>
    let v := s.layer false h l
    if v.on ∧ v.x ≤ x ∧ x < v.x + v.width ∧ v.y ≤ y ∧ y < v.y + v.height then (s.source h l v (x - v.x) (y - v.y)).onto out v.galpha else out)
    ⟨bits bg 29 20, bits bg 19 10, bits bg 9 0, 255⟩

/-- A component as it is sent. -/
def sentComponent (bpc10 : Bool) (c : Nat) : Nat := if bpc10 then c else min 255 ((c + 2) / 4)

/-- The head sends video: enabled, link up, and nothing mutes it (R392, R400). -/
def State.showsVideo (s : State) (h : Nat) : Bool :=
  s.flag .DSP_HCTRL_ENABLE h && s.flag .DSP_LINK_STATUS_UP h && !s.flag .DSP_HCTRL_MUTE h && s.dev.st != .safe &&
    (s.head h).mute == 0 && !(s.head h).training && s.flag .DSP_LINK_STATUS_PLL_LOCK h

end Sys2Proof.Machine
end

