-- ==== Sys2Proof/Machine/KeyInstrs.lean ====
section
/-! DEFINITION. The key instructions of the Secure profile (R166), tokens and authorisation blocks (R436, R457), life-cycle steps
(R433 to R435). -/
namespace Sys2Proof.Machine

/-! ### Authorisation (R436, R457) -/

/-- SHA-384 of the device identity. -/
def deviceHash : List Byte := sized 48 (Config.sha384 Config.deviceId)

/-- A Moalvo token for a target state (R436); `binding` is what BINDING must hold. -/
def tokenOk (tok binding : List Byte) (target : Nat) : Bool :=
  tok.length == 3512 && fieldOf tok 0 4 == 0x544B4E31 && fieldOf tok 4 1 == target && fieldOf tok 5 3 == 0 &&
  (tok.drop 8).take 48 == deviceHash && (tok.drop 56).take 48 == binding && fieldOf tok 3509 3 == 0 &&
  Config.verify 0 (tok.take 104) ((tok.drop 104).take 3405)

/-- Fields of the request at address `a` (R455). -/
def State.reqField (s : State) (a off n : Nat) : Nat := s.load (a + off) n
def State.reqAuthAt (s : State) (a : Nat) : Nat := s.reqField a 28 4
def State.reqBodyLen (s : State) (a : Nat) : Nat := s.reqField a 8 4

/-- Length of the authorisation block, 0 for an unknown KIND. -/
def State.authLen (s : State) (a : Nat) : Nat :=
  match s.load (a + s.reqAuthAt a) 2 with
  | 1 => 3416
  | 2 => 3520
  | _ => 0

/-- The block lies wholly within the body and is well formed; no block at all is well placed too. -/
def State.authPlaced (s : State) (a : Nat) : Bool :=
  s.reqAuthAt a == 0 ||
  (s.authLen a != 0 && decide (64 ≤ s.reqAuthAt a) && decide (s.reqAuthAt a + s.authLen a ≤ 64 + s.reqBodyLen a) &&
    s.load (a + s.reqAuthAt a + 2) 6 == 0)

/-- What the owner signs: the header with STATUS, RSP_LEN and AUTH_OFF as zero, the body without the block itself (log entry 47),
the device identity hash, KEY_NONCE. -/
def State.authMessage (s : State) (a : Nat) : List Byte :=
  let body := s.mem.reads (a + 64) (s.reqBodyLen a)
  let off := s.reqAuthAt a - 64
  s.mem.reads a 16 ++ List.replicate 8 0 ++ s.mem.reads (a + 24) 4 ++ [0, 0, 0, 0] ++ s.mem.reads (a + 32) 32 ++
    body.take off ++ body.drop (off + s.authLen a) ++ deviceHash ++ leBytes 8 (s.raw .KEY_NONCE_NONCE)

/-- The owner's block of a request verifies: the role is Crypto Officer. -/
def State.ownerAuth (s : State) (a : Nat) : Bool :=
  let at_ := a + s.reqAuthAt a
  s.reqAuthAt a != 0 && s.authPlaced a && s.load at_ 2 == 1 && s.key.owner.isSome && s.load (at_ + 3413) 3 == 0 &&
  Config.verify 1 (s.authMessage a) (s.mem.reads (at_ + 8) 3405)

/-- The token of a request allows a target: the role is Vendor. -/
def State.tokenAuth (s : State) (a target : Nat) : Bool :=
  let at_ := a + s.reqAuthAt a
  s.reqAuthAt a != 0 && s.authPlaced a && s.load at_ 2 == 2 &&
  tokenOk (s.mem.reads (at_ + 8) 3512) (if target = lcReturned then s.key.returned else List.replicate 48 0) target

/-! ### Life-cycle (R433 to R435) -/

/-- The transitions of R434: none is not listed, else whether the owner authorises it (false: a Moalvo token). -/
def lcAllowed (src dst : Nat) : Option Bool :=
  match src, dst with
  | 0, 1 => some false
  | 1, 2 => some false
  | 2, 3 => some true
  | 2, 4 | 3, 4 => some false
  | 2, 5 | 3, 5 => some true
  | 0, 5 | 1, 5 | 4, 5 => some false
  | _, _ => none

/-- Status of a transition request at an address: 0 goes ahead. -/
def State.lcStatus (s : State) (a target : Nat) : Nat :=
  match lcAllowed s.key.lifecycle target with
  | none => 5
  | some true => if s.key.owner.isNone then 5 else if s.ownerAuth a then 0 else 4
  | some false => if s.tokenAuth a target && (target != lcReturned || !s.key.returned.isEmpty) then 0 else 4

/-- LCSTEP (R435): the fuse group burns, the record is written, a cold reset follows. -/
def lcStep (target : Nat) : Prog := .all [
  .act (.key fun k => { k with lifecycle := max k.lifecycle target }), logRec 0x58 0x0009, coldReset 2]

/-! ### The instructions -/

/-- M bytes a key instruction touches: the protection unit, then fitted DRAM (R145). `right` is 8 to read, 9 to write. -/
def keyMem (m : Mach) (rs1 : Reg) (n right : Nat) : Check := fun s =>
  let a := (s.reg m rs1).toNat
  if !(s.core (coreKey m)).allowsAll a n right then some (if right = 8 then 4 else 5, a)
  else if !s.inDram a n then some (7, a) else none

/-- Operations on the vault end once Epmas has zeroised it (R467). -/
def State.vaultShut (s : State) : Bool := s.flag .KEY_STATUS_ZEROISED

def State.slotKey (s : State) (n : Nat) : List Byte := match s.slot n with | some v => v.key | none => []
def State.slotNode (s : State) (n : Nat) : Nat := match s.slot n with | some v => v.node | none => 0

/-- A slot's node was invalidated or freed since its key was placed. -/
def State.slotOrphaned (s : State) (n : Nat) : Bool :=
  match s.slot n with
  | none => false
  | some v => v.doomed || !(s.node v.node).inUse || (s.node v.node).epoch != v.epoch

/-- A key instruction: its status goes to rd; `go` is done when that is 0. -/
def keyInstr (m : Mach) (i : Instr) (rd : Reg) (check : Check) (status : State → Nat) (go : State → Prog) : Prog :=
  issue m i 0 check (.get fun s => .all [
    wr m rd (BitVec.ofNat 64 (status s)), stepPc m, .on (status s == 0) (go s)])

/-- KLOAD: slots 0 to 7 are not for blobs; a blob is 16-byte aligned (R447, R448). -/
def kloadStatus (s : State) (a slot : Nat) : Nat :=
  if s.vaultShut then 5 else if a % 16 ≠ 0 then 6 else (s.openBlob (s.mem.reads a 96) (s.slot slot).isSome).1

/-- The key of a blob placed in a slot. -/
def loadBlob (s : State) (a slot : Nat) (pool : Bool) : Prog :=
  let b := s.mem.reads a 96
  fillSlot slot (fieldOf b 6 2) (s.openBlob b false).2 (if pool then some a else none)

def execKload (m : Mach) (rd rs1 rs2 : Reg) (s : State) :=
  s.does (keyInstr m (.kload m rd rs1 rs2) rd (keyMem m rs1 96 8)
    (fun s => if 256 ≤ (s.reg m rs2).toNat then 6 else kloadStatus s (s.reg m rs1).toNat (s.reg m rs2).toNat)
    fun s => loadBlob s (s.reg m rs1).toNat (s.reg m rs2).toNat false)

/-- KDERIVE (R166, R442). -/
def kderiveStatus (s : State) (label : List Byte) (parent child : Nat) : Nat :=
  if s.vaultShut then 5
  else if (s.slot parent).isNone then 1
  else if s.slotOrphaned parent then 3
  else
    let c := leNat (label.take 2)
    if !(s.node c).inUse || (s.node c).depth == 0 || (s.node c).parent != s.slotNode parent then 6
    else if (s.slot child).isSome then 2 else 0

def execKderive (m : Mach) (rd rs1 rs2 : Reg) (s : State) :=
  s.does (keyInstr m (.kderive m rd rs1 rs2) rd (keyMem m rs1 32 8)
    (fun s =>
      let v := (s.reg m rs2).toNat
      if 65536 ≤ v then 6 else kderiveStatus s (s.mem.reads (s.reg m rs1).toNat 32) (v % 256) (v / 256))
    fun s =>
      let v := (s.reg m rs2).toNat
      let label := s.mem.reads (s.reg m rs1).toNat 32
      let parent := s.slotNode (v % 256)
      let c := leNat (label.take 2)
      fillSlot (v / 256) c (Config.kdf (s.slotKey (v % 256)) label (kdfContext parent (s.node parent).epoch c)) none)

/-- KWRAP: the blob of a slot's key under the key of its parent's slot. -/
def kwrapStatus (s : State) (a slot parent : Nat) : Nat :=
  if s.vaultShut then 5
  else if a % 16 ≠ 0 then 6
  else if (s.slot slot).isNone || (s.slot parent).isNone then 1
  else if s.slotOrphaned slot || s.slotOrphaned parent then 3
  else if (s.node (s.slotNode slot)).depth < 2 || (s.node (s.slotNode slot)).parent != s.slotNode parent then 6 else 0

def execKwrap (m : Mach) (rd rs1 rs2 : Reg) (s : State) :=
  s.does (keyInstr m (.kwrap m rd rs1 rs2) rd (keyMem m rs1 96 9)
    (fun s =>
      let v := (s.reg m rs2).toNat
      if 65536 ≤ v then 6 else kwrapStatus s (s.reg m rs1).toNat (v % 256) (v / 256))
    fun s =>
      let v := (s.reg m rs2).toNat
      store (s.reg m rs1).toNat (s.blobUnder (s.slotNode (v % 256)) (s.slotKey (v % 256)) (s.slotKey (v / 256))))

def execKdrop (m : Mach) (rd rs1 rs2 : Reg) (s : State) :=
  s.does (keyInstr m (.kdrop m rd rs1 rs2) rd noCheck
    (fun s => if 256 ≤ (s.reg m rs2).toNat then 6 else 0)
    fun s => emptyVaultSlot (s.reg m rs2).toNat)

def execLcstep (m : Mach) (rd rs1 rs2 : Reg) (s : State) :=
  s.does (keyInstr m (.lcstep m rd rs1 rs2) rd (keyMem m rs1 64 8)
    (fun s => if 8 ≤ (s.reg m rs2).toNat then 6 else s.lcStatus (s.reg m rs1).toNat (s.reg m rs2).toNat)
    fun s => lcStep (s.reg m rs2).toNat)

end Sys2Proof.Machine
end

