-- ==== Sys2Proof/Machine/SafeState.lean ====
section
/-! DEFINITION. Entry to SAFE (R42, R43, R426, R491), and how a self-test target goes back to service (R488). -/
namespace Sys2Proof.Machine

/-! ### Targets of the self-test (R487) -/

def setSlt (kind target : Nat) (f : SltSet → SltSet) : Prog :=
  .act (.slt fun p => { p with sets := p.sets.put (sltKey kind target) (f ((p.sets.get? (sltKey kind target)).getD blankSet)) })

def sltPan := 0
def sltEngine := 1
def sltBerth := 2
def sltShared := 3
def sltLane := 4
def sltEye := 5
def sltPll := 6
def sltMonitor := 7
def sltSeal := 8
def sltSecure := 9
def sltDdr := 10

/-- Targets of each kind. R487 numbers pans, engines, berths, segments, pipes and byte lanes; the numbers of the others are the
model's (log entry 57): cable lanes 4 · port + lane, then Ethernet ports, PCI Express links and heads; PLLs: reference, cable ports,
Ethernet ports, PCI Express links, heads, DRAM; the sensors and rails of R471. -/
def sltTargets : Nat → Nat
  | 0 => 16
  | 1 => 96
  | 2 => 32
  | 3 => 24
  | 4 => 42
  | 5 => 24
  | 6 => 26
  | 7 => 25
  | 8 => 24
  | 9 => 1
  | 10 => 16
  | _ => 0

/-- Pans in the pool: those that no set holds and that have not failed (R276). -/
def refreshPans : Prog := .get fun s =>
  let out := ((List.range 16).filter fun t => (s.sltSet sltPan t).out || (s.sltSet sltPan t).failed).length
  .seq (.on (decide (1 < out) && decide (15 ≤ s.raw .SAL_STATUS_PANS_ONLINE)) (logRec 0x19 0x000A 3)) (setF .SAL_STATUS_PANS_ONLINE (16 - out))

/-- A target goes back to service, unless it has failed. -/
def returnTarget (kind target : Nat) : Prog :=
  .get fun s => .on (!(s.sltSet kind target).failed) (
    if kind = sltPan then .seq (setSlt kind target fun x => { x with out := false }) refreshPans
    else if kind = sltEngine then .act (.grn fun g => { g with closed := g.closed.filter (· != target) })
    else if kind = sltBerth then .on (s.berthState target == 3) (setF .SAL_BERTH_STATE_STATE 0 0 target)
    else if kind = sltSeal then .act (.key fun k => { k with pipesOut := k.pipesOut.filter (· != target) })
    else .skip)

/-- The slice in progress ends without a result. -/
def stopSlice : Prog := .get fun s => match s.slt.running with
  | none => .skip
  | some r => .all [.act (.slt fun p => { p with running := none }), setF .SLT_STATUS_RUNNING 0, returnTarget r.kind r.target]

/-! ### SAFE -/

/-- A cable port in SAFE (R426): modes exited; a Source leaves EPR and offers vSafe5V, with 30 ms for the Request. -/
def safePort (p : Nat) : Prog :=
  .all [
    .get fun s => .on (s.raw .CBL_PORT_STATUS_MODE p != 0) (.seq (vdm p 0 5 (if s.avrath p then avrathSvid else dpSvid)) (exitModes p)),
    linkDown p, setLanes p [0, 1, 2, 3] lnDisabled,
    .get fun s => .on (s.isSource p) (.all [
      .on (s.flag .CBL_PORT_STATUS_EPR p) (.seq (setF .CBL_PORT_STATUS_EPR 0 p) (pd p pdEprMode [5])),
      sendCaps p, setCbl p fun c => { c with safeAt := some s.clock }])]

/-- Every block takes its safe state (R491). -/
def safeBlocks : Prog := .all [
  stopSlice,
  .each (List.range 6) safePort,
  .each (List.range 10) ethLinkDown,
  .each (List.range 8) busOff,
  .get fun s => .all [
    emitOut .gpio [s.raw .GPIO_SAFE_EN_EN, s.raw .GPIO_SAFE_LEVEL_LEVEL &&& s.raw .GPIO_SAFE_EN_EN],
    .each (s.sal.queues.map (·.1)) emptySlotQueue,
    .each (s.sal.units.filter fun e => match e.2.place with | .waiting _ => true | _ => false) fun e => dropUnit e.1,
    .act (.brg fun b => { b with movers := [] }),
    .each (List.range 16) fun m => setF .MOV_STATE_STATE 0 0 m]]

/-- Entry to SAFE sets the latch and stores its cause (R43). -/
def enterSafe (cause : Nat) (detail : Nat := 0) : Prog :=
  .all [.act (.dev fun p => { p with safeLatch := true, latchCause := cause }), setF .SYS_STATE_SAFE_CAUSE cause,
    logRec 0x01 0x0005 4 none (cause + detail * 2 ^ 8), enterState .safe, safeBlocks]

/-- Still below the floor 1 ms after the record, with no raise to come: SAFE (R28). -/
def paceSafeTimeout : Prog :=
  .get fun s =>
    match s.dev.belowAt with
    | some t => .on (s.flowing && decide (t + ms ≤ s.clock) && decide (s.raw .SYS_PACE_PACE < s.paceFloor)) (enterSafe 2)
    | none => .skip

def execPaceSafeTimeout (s : State) := s.does paceSafeTimeout

end Sys2Proof.Machine
end

