-- ==== Sys2Proof/Machine/Epmas.lean ====
section
/-! DEFINITION. Calls of Epmas and its services (R451 to R468). The values of a request's body come as operands of a service's
command (log entry 48); its header and authorisation block are read from DRAM. -/
namespace Sys2Proof.Machine

/-! ### Calls (R454 to R457) -/

/-- KEY_STATUS.APPROVED (R464). -/
def State.approved (s : State) : Bool :=
  s.customer && s.boot.epmas && !s.flag .KEY_STATUS_ERROR && s.flag .KEY_STATUS_ENTROPY_OK

/-- Service codes of R458. -/
def serviceCodes : List Nat :=
  [0x01, 0x02, 0x10, 0x11, 0x12, 0x20, 0x21, 0x22, 0x23, 0x24, 0x30, 0x31, 0x32, 0x40, 0x41, 0x50, 0x51, 0x60, 0x61, 0x70, 0x71, 0x72,
   0x73, 0x7F]

/-- The response goes over the body, STATUS with DONE last; the call has ended (R454 step 4, R457). -/
def finishCall (a code : Nat) (rsp : List Byte) : Prog :=
  .get fun s => .all [
    store (a + 64) rsp, store (a + 20) (leBytes 4 rsp.length),
    store (a + 16) (leBytes 4 (code + (if s.approved then 2 ^ 8 else 0) + 2 ^ 31)),
    .act (.key fun k => { k with calls := k.calls.tail }),
    bump .KEY_CALL_STATUS_DONE_COUNT,
    .on (code == 4 || code == 5) (logRec 0x58 0x0006 2 none (keyDetail 0 0 (s.reqField a 12 4))),
    .on (s.reqAuthAt a != 0) (withDrbg 8 fun b => setF .KEY_NONCE_NONCE (leNat b)),
    raiseIrq 0x58]

/-- Requests at the front that name no service end at once with BAD_REQUEST. -/
def settleCalls : Nat → Prog
  | 0 => .skip
  | n + 1 => .get fun s => match s.key.calls with
    | [] => .skip
    | a :: _ => .on (s.key.invalidating.isNone && !serviceCodes.contains (s.reqField a 4 2)) (.seq (finishCall a 7 []) (settleCalls n))

/-- A write of KEY_CALL: by a control core only, at most 8 waiting; an address outside fitted DRAM is refused (log entry 48). -/
def keyCall (m : Master) (addr : Nat) : Prog :=
  .get fun s =>
    let a := bits addr 47 6 * 64
    let core := match m with | .core _ => true | _ => false
    if !core || !s.inDram a 64 then logRec 0x58 0x0006
    else if 8 ≤ s.key.calls.length then setF .KEY_CALL_STATUS_FULL 1
    else .seq (.act (.key fun k => { k with calls := k.calls ++ [a] })) (settleCalls 8)

def execKeyCall (m : Master) (addr : Nat) (s : State) := s.does (whenAlive (keyCall m addr))

/-- What R458 says of a service: code, life-cycle states, role (0 none, 1 User, 2 Crypto Officer, 3 by its own rule), whether it
writes the ledger and is refused in the reserve, whether it needs a key, whether its body is empty. -/
structure Service where
  code : Nat
  states : List Nat
  role : Nat
  ledger : Bool
  keys : Bool
  bare : Bool
  deriving DecidableEq, Repr

def pd2 : List Nat := [lcProvisioned, lcDeployed]

/-- The header is well formed and the body's length fits (R455, R457). -/
def State.reqOk (s : State) (v : Service) (a : Nat) : Bool :=
  s.reqField a 0 4 == 0x45505131 && s.reqField a 6 2 == 0 && decide (s.reqBodyLen a ≤ 65536) && s.reqField a 32 8 == 0 &&
  s.reqField a 40 8 == 0 && s.reqField a 48 8 == 0 && s.reqField a 56 8 == 0 && s.authPlaced a &&
  (!v.bare || s.reqBodyLen a == (if s.reqAuthAt a = 0 then 0 else s.authLen a))

/-- What ends a call before its service looks at its operands; `rsp` is the length of its response. -/
def State.refuses (s : State) (v : Service) (a rsp : Nat) : Nat :=
  if s.key.failed && v.code != 0x01 && v.code != 0x7F then 9
  else if !s.reqOk v a then 7
  else if !v.states.contains s.key.lifecycle then 5
  else if v.role = 1 ∧ s.key.firmware = [] then 5
  else if s.vaultShut && v.keys then 5
  else if s.key.lost && v.keys then 13
  else if v.role = 2 && !s.ownerAuth a then 4
  else if v.ledger && decide (s.ledgerLeft < 64) then 8
  else if s.reqField a 24 4 < rsp then 12
  else 0

/-- The service of the request at the front: refused, ended by its own check, or done. The request's status is in each case
written; `go` ends the call itself. -/
def serve (v : Service) (rsp : Nat) (own : State → Nat → Nat) (go : State → Nat → Prog) : Prog :=
  whenAlive (.get fun s => match s.key.calls with
    | [] => .skip
    | a :: _ =>
      .on (s.reqField a 4 2 == v.code && s.key.invalidating.isNone && s.boot.epmas) (.seq
        (let r := s.refuses v a rsp
         if r ≠ 0 then finishCall a r []
         else if own s a ≠ 0 then finishCall a (own s a) [] else go s a)
        (settleCalls 8)))

def noOwn : State → Nat → Nat := fun _ _ => 0

/-! ### Status and random -/

/-- State, anchor, floors, device identity. -/
def State.statusBytes (s : State) : List Byte :=
  leBytes 4 s.key.lifecycle ++ leBytes 4 s.key.anchor ++ (s.key.floors.map (leBytes 4)).flatten ++ Config.deviceId

def execStatus (s : State) := s.does (.get fun s =>
  serve ⟨0x01, [0, 1, 2, 3, 4, 5], 0, false, false, true⟩ s.statusBytes.length noOwn fun s a => finishCall a 0 s.statusBytes)

def execRandom (length : Nat) (s : State) := s.does (
  serve ⟨0x02, [1, 2, 3, 4], 1, false, false, false⟩ length (fun _ _ => if length = 0 ∨ 4096 < length then 6 else 0)
    fun _ a => withDrbg length fun b => finishCall a 0 b)

/-! ### Nodes (R442, R445, R451) -/

/-- Nodes that NODE_ALLOC may take a child under. -/
def State.mayParent (s : State) (n : Nat) : Bool :=
  [2, 3, 5].contains n || (decide (8 ≤ n) && (s.node n).inUse && (s.node n).depth == 2 && bit (s.node n).usage 2)

def State.freeNode (s : State) : Option Nat := ((List.range 1016).map (· + 8)).find? fun n => !(s.node n).inUse

def execNodeAlloc (parent usage : Nat) (s : State) := s.does (
  serve ⟨0x10, pd2, 2, true, true, false⟩ 2
    (fun s _ => if !s.mayParent parent || decide (8 ≤ usage) then 6 else if s.freeNode.isNone then 11 else 0)
    fun s a =>
      let n := s.freeNode.getD 0
      .seq (ledgerWrite fun k => { k with nodes := k.nodes.put n ⟨parent, (s.node parent).depth + 1, true, usage, (s.node n).epoch⟩ })
        (finishCall a 0 (leBytes 2 n)))

/-- Nodes that may be invalidated. -/
def State.mayInvalidate (s : State) (n : Nat) : Bool := [2, 3, 5].contains n || (decide (8 ≤ n ∧ n < 1024) && (s.node n).inUse)

def newEpochs (ns : List Nat) (m : NMap Node) : NMap Node :=
  ns.foldl (fun m n => let x := (m.get? n).getD blankNode; m.put n { x with epoch := (x.epoch + 1) % 2 ^ 16 }) m

/-- The new ledger copy is written; point P comes with the OTP step (R444, R451 step 2). -/
def startInvalidation (ns : List Nat) (a : Nat) (ref : Option (List Byte)) : Prog :=
  .act (.key fun k => { k with invalidating := some ⟨ns, a, ref, none⟩, written := some (newEpochs ns k.nodes) })

def execNodeInvalidate (node : Nat) (s : State) := s.does (
  serve ⟨0x11, pd2, 2, false, true, false⟩ 2
    (fun s _ => if !s.mayInvalidate node then 6 else if (s.node node).epoch = 65535 ∨ s.ledgerLeft = 0 then 8 else 0)
    fun _ a => startInvalidation [node] a none)

/-- The signed return request (R494), 3,504 bytes. -/
def State.returnRequest (s : State) (ref : List Byte) (point : Nat) : List Byte :=
  let head := leBytes 4 0x52545031 ++ ref ++ deviceHash ++ leBytes 2 (s.node 2).epoch ++ leBytes 2 (s.node 3).epoch ++
    leBytes 2 (s.node 5).epoch ++ [0, 0] ++ leBytes 8 point ++ leBytes 4 s.key.anchor ++ List.replicate 8 0
  head ++ sized 3405 (Config.sign head) ++ [0, 0, 0]

/-- Step 5 of R451: channels SEALED, the call's STATUS written. -/
def endInvalidation : Prog :=
  .get fun s => match s.key.invalidating with
  | some ⟨ns, a, ref, some point⟩ =>
    .on (!(s.key.slots.any fun e => e.2.doomed)) (.all [
      sealOrphans,
      .act (.key fun k => { k with invalidating := none }),
      match ref with
      | none => finishCall a 0 (leBytes 2 (s.node (ns.headD 0)).epoch)
      | some r => .seq (.act (.key fun k => { k with returned := Config.sha384 (s.returnRequest r point) }))
          (finishCall a 0 (s.returnRequest r point)),
      settleCalls 8])
  | _ => .skip

/-- Point P: the OTP step burns and every slot at or below the nodes is doomed. -/
def execInvalidationPoint (s : State) := s.does (whenAlive (.get fun s =>
  match s.key.invalidating, s.key.written with
  | some ⟨ns, a, ref, none⟩, some nodes => .all [
      ledgerWrite fun k => { k with
        nodes := nodes
        written := none
        invalidating := some ⟨ns, a, ref, some s.moment⟩
        slots := k.slots.map fun e => if ns.any (fun n => s.below e.2.node n) then (e.1, { e.2 with doomed := true }) else e },
      endInvalidation]
  | _, _ => .skip))

/-- A doomed slot is zeroised: no parcel is in progress, since parcels are sealed and opened whole. -/
def execSlotZeroise (slot : Nat) (s : State) := s.does (whenAlive (.get fun s =>
  match s.slot slot with
  | some v => .on v.doomed (.all [
      zeroSlot slot, logRec 0x58 0x0001 (severityOf 0x58 0x0001) none (keyDetail v.node slot 0), endInvalidation])
  | none => .skip))

def execNodeFree (node : Nat) (s : State) := s.does (
  serve ⟨0x12, pd2, 2, true, true, false⟩ 0
    (fun s _ => if decide (8 ≤ node) && (s.node node).inUse && !(s.key.nodes.any fun e => e.2.inUse && e.1 != node && e.2.parent == node) then 0 else 6)
    fun _ a => .seq (ledgerWrite fun k => { k with
        nodes := k.nodes.upd node fun x => { x with inUse := false, epoch := (x.epoch + 1) % 2 ^ 16 } })
      (finishCall a 0 []))

/-! ### Keys (R447 to R450, R459) -/

/-- Slots of working keys. -/
def workSlot (n : Nat) : Bool := decide (8 ≤ n ∧ n < 128)

/-- A node that a working key may belong to, and the slot it goes to. -/
def State.placeStatus (s : State) (node slot : Nat) : Nat :=
  if !workSlot slot || !(s.node node).inUse || (s.node node).depth < 2 then 6
  else match s.slotOfNode (s.node node).parent with
  | none => 1
  | some p => if s.slotOrphaned p then 3 else if (s.slot slot).isSome then 2 else 0

/-- Place a key and answer with its blob. -/
def placeKey (a node slot : Nat) (key : List Byte) : Prog :=
  .get fun s => .seq (fillSlot slot node key none) (finishCall a 0 ((s.makeBlob node key).getD []))

def execKeyGenerate (node slot : Nat) (s : State) := s.does (
  serve ⟨0x20, pd2, 1, false, true, false⟩ 96 (fun s _ => s.placeStatus node slot)
    fun _ a => withDrbg 32 fun key => placeKey a node slot key)

def execKeyLoad (blob : List Byte) (slot : Nat) (s : State) := s.does (
  serve ⟨0x21, pd2, 1, false, true, false⟩ 0
    (fun s _ => if !workSlot slot then 6 else (s.openBlob blob (s.slot slot).isSome).1)
    fun s a => .seq (fillSlot slot (fieldOf blob 6 2) (s.openBlob blob false).2 none) (finishCall a 0 []))

def execKeyDrop (slot : Nat) (s : State) := s.does (
  serve ⟨0x22, pd2, 1, false, true, false⟩ 0 (fun _ _ => if slot < 8 ∨ 256 ≤ slot then 6 else 0)
    fun _ a => .seq (emptyVaultSlot slot) (finishCall a 0 []))

/-- Label of the transport key. -/
def transportLabel : List Byte := [0x58, 0x50, 0x52, 0x54] ++ List.replicate 28 0

/-- KEY_EXPORT: the peer's STATUS response ends in its device identity. -/
def execKeyExport (slot : Nat) (peer : List Byte) (s : State) := s.does (
  serve ⟨0x23, pd2, 1, false, true, false⟩ 1257
    (fun s _ =>
      if (s.slot slot).isNone then 1
      else if s.slotOrphaned slot then 3
      else if !bit (s.node (s.slotNode slot)).usage 1 then 5
      else if !Config.verify 0 (peer.drop 20) (peer.drop 20) then 4 else 0)
    fun s a => .seq (.act .draw) (
      let e := Config.encaps (peer.drop 20) s.drawn
      let key := Config.kdf e.1 transportLabel (deviceHash ++ Config.sha384 (peer.drop 20))
      finishCall a 0 (sized 1185 e.2 ++ s.blobHead (s.slotNode slot) ++ sized 40 (Config.kwWrap key (s.slotKey slot)))))

/-- KEY_IMPORT reverses it; `record` is what KEY_EXPORT gave, `sender` the device identity it came from. -/
def importKey (record sender : List Byte) : Option (List Byte) :=
  (Config.decaps (record.take 1185)).bind fun secret =>
    Config.kwUnwrap (Config.kdf secret transportLabel (Config.sha384 sender ++ deviceHash)) (record.drop 1217)

def execKeyImport (record sender : List Byte) (node slot : Nat) (s : State) := s.does (
  serve ⟨0x24, pd2, 1, false, true, false⟩ 96
    (fun s _ =>
      if s.placeStatus node slot ≠ 0 then s.placeStatus node slot
      else if !bit (s.node node).usage 0 then 5
      else if (importKey record sender).isNone then 4 else 0)
    fun _ a => placeKey a node slot ((importKey record sender).getD []))

/-! ### Attestation and data (R458, R460) -/

def State.quote (s : State) (nonce : List Byte) : List Byte :=
  nonce ++ leBytes 8 s.moment ++ leBytes 4 s.key.lifecycle ++ leBytes 4 s.key.anchor ++ (s.key.floors.map (leBytes 4)).flatten ++
    s.key.kernel ++ s.key.firmware ++ s.cbl.hash ++ leBytes 4 (s.raw .KEY_ORPHANS_SLOTS)

def execAttest (nonce : List Byte) (s : State) := s.does (.get fun s =>
  let q := s.quote nonce
  serve ⟨0x30, pd2, 1, false, true, false⟩ (q ++ sized 3405 (Config.sign q)).length (fun _ _ => if nonce.length = 32 then 0 else 6)
    fun _ a => finishCall a 0 (q ++ sized 3405 (Config.sign q)))

/-- The slot holds a key of the storage domain. -/
def State.storageStatus (s : State) (slot n : Nat) : Nat :=
  if (s.slot slot).isNone then 1
  else if s.slotOrphaned slot then 3
  else if !s.below (s.slotNode slot) 3 || decide (65472 < n) then 6 else 0

def execDataSeal (slot : Nat) (data : List Byte) (s : State) := s.does (
  serve ⟨0x31, pd2, 1, false, true, false⟩ (data.length + 28) (fun s _ => s.storageStatus slot data.length)
    fun s a => withDrbg 12 fun iv =>
      let r := Config.gcmSeal (s.slotKey slot) iv [] data
      finishCall a 0 (iv ++ sized data.length r.1 ++ sized 16 r.2))

/-- IV, ciphertext and tag as DATA_SEAL gave them. -/
def State.openData (s : State) (slot : Nat) (d : List Byte) : Option (List Byte) :=
  Config.gcmOpen (s.slotKey slot) (d.take 12) [] ((d.drop 12).take (d.length - 28)) (d.drop (d.length - 16))

def execDataOpen (slot : Nat) (data : List Byte) (s : State) := s.does (
  serve ⟨0x32, pd2, 1, false, true, false⟩ (data.length - 28)
    (fun s _ =>
      if s.storageStatus slot (data.length - 28) ≠ 0 then s.storageStatus slot (data.length - 28)
      else if data.length < 28 then 6
      else if (s.openData slot data).isNone then 4 else 0)
    fun s a => finishCall a 0 (sized (data.length - 28) ((s.openData slot data).getD [])))

/-! ### Images (R440) -/

/-- The image at a DRAM address with the signature block that its SIGREF names (R127). -/
def State.imageBytes (s : State) (a : Nat) : List Byte := s.mem.reads a (s.load (a + 12) 4)
def State.sigBytes (s : State) (a : Nat) : List Byte := s.mem.reads (s.load (a + 16) 8) 3472

/-- IMAGE_AUTH: the KIND is the signature block's own. -/
def State.imageStatus (s : State) (a : Nat) : Nat :=
  let sig := s.sigBytes a
  let kind := fieldOf sig 4 1
  if s.signatureOk kind (s.imageBytes a) sig && decide (kind < 4) then 0
  else if decide (kind < 4) && decide (fieldOf sig 8 4 < s.floorOf kind) then 10 else 4

def execImageAuth (image : Nat) (s : State) := s.does (
  serve ⟨0x40, [0, 1, 2, 3, 4], 1, false, false, false⟩ 0 noOwn
    fun s a => .seq (.on (s.imageStatus image != 0) (logRec 0x58 0x0007)) (finishCall a (s.imageStatus image) []))

/-- The floor of KIND 1 rises to the SVN of the running image; it is never lowered. -/
def execSvnCommit (s : State) := s.does (
  serve ⟨0x41, pd2, 1, true, true, false⟩ 0 (fun s _ => if s.key.firmwareSvn < s.floorOf 1 then 10 else 0)
    fun _ a => .seq (ledgerWrite fun k => { k with floors := [k.firmwareSvn, k.floors.getD 1 0, k.floors.getD 2 0] }) (finishCall a 0 []))

/-! ### Ceilings, self-test, SAFE (R461, R486, R42) -/

/-- A contract above a lowered ceiling is negotiated again, and timed (R461). -/
def lowerCeiling (p : Nat) : Prog :=
  .get fun s => .on (s.overCeiling p) (.all [
    setCbl p fun c => { c with ceilingAt := some s.clock },
    if s.isSource p then sendCaps p else pd p 7])

def execCeilingSet (port srcMv srcMa snkMv snkMa : Nat) (s : State) := s.does (
  serve ⟨0x50, pd2, 2, false, false, false⟩ 0
    (fun _ _ => if 6 ≤ port || [srcMv, srcMa, snkMv, snkMa].any fun v => decide (65536 ≤ v) then 6 else 0)
    fun _ a => .all [
      watchOffers (.all [setF .CBL_CEILING_SRC_MV srcMv port, setF .CBL_CEILING_SRC_MA srcMa port, setF .CBL_CEILING_SNK_MV snkMv port,
        setF .CBL_CEILING_SNK_MA snkMa port]),
      lowerCeiling port, finishCall a 0 []])

/-- Kinds 3, 7, 8 and 9 of R487, which an owner cannot clear. -/
def keptKinds : Nat := 2 ^ 3 + 2 ^ 7 + 2 ^ 8 + 2 ^ 9

def execSelftestCfg (interval retry kinds : Nat) (s : State) := s.does (
  serve ⟨0x51, pd2, 2, false, false, false⟩ 0
    (fun _ _ => if (kinds &&& keptKinds) != keptKinds || !RegId.SLT_SCHED_INTERVAL_S.legal interval ||
      !RegId.SLT_SCHED_RETRY_MS.legal retry || !RegId.SLT_KINDS_ENABLE.legal kinds then 6 else 0)
    fun _ a => .all [setF .SLT_SCHED_INTERVAL_S interval, setF .SLT_SCHED_RETRY_MS retry, setF .SLT_KINDS_ENABLE kinds, finishCall a 0 []])

def execSafeEnter (s : State) := s.does (
  serve ⟨0x60, [0, 1, 2, 3, 4], 1, false, false, true⟩ 0 (fun s _ => if s.flowing then 0 else 5)
    fun _ a => .seq (finishCall a 0 []) (enterSafe 3))

/-- Release from SAFE (R42, R43): the latch and its cause are cleared, then the cold reset. -/
def execSafeRelease (s : State) := s.does (
  serve ⟨0x61, pd2, 2, false, false, true⟩ 0 (fun s _ => if s.dev.st = .safe then 0 else 5)
    fun _ a => .all [finishCall a 0 [], .act (.dev fun d => { d with safeLatch := false, latchCause := 0 }), setF .SYS_STATE_SAFE_CAUSE 0,
      coldReset 4])

/-! ### Life-cycle and ownership (R434, R458, R462, R467) -/

def execLcTransition (target : Nat) (s : State) := s.does (
  serve ⟨0x70, [0, 1, 2, 3, 4], 3, false, false, false⟩ 0 (fun s a => s.lcStatus a target)
    fun _ a => .seq (finishCall a 0 []) (lcStep target))

def execReturnPrepare (reference : List Byte) (s : State) := s.does (
  serve ⟨0x71, pd2, 2, false, true, false⟩ 3504
    (fun s _ => if reference.length ≠ 16 then 6
      else if [2, 3, 5].any (fun n => (s.node n).epoch == 65535) || s.ledgerLeft == 0 then 8 else 0)
    fun _ a => startInvalidation [2, 3, 5] a (some reference))

/-- OWNER_SET: the record's own keys sign the block; accepted once. -/
def execOwnerSet (record : List Byte) (s : State) := s.does (
  serve ⟨0x72, [lcProvisioned], 3, false, false, false⟩ 0
    (fun s a =>
      if s.key.owner.isSome then 5
      else if s.reqAuthAt a != 0 && s.load (a + s.reqAuthAt a) 2 == 1 &&
        Config.verify 2 (record ++ s.authMessage a) (s.mem.reads (a + s.reqAuthAt a + 8) 3405) then 0 else 4)
    fun _ a => .all [.act (.key fun k => { k with owner := some (Config.sha384 record) }), emitOut .flash [0x30000] record, finishCall a 0 []])

/-- TEST_ENTER: RUN to TEST in RETURNED, under a Moalvo token for RETURNED. -/
def execTestEnter (s : State) := s.does (
  serve ⟨0x73, [lcReturned], 3, false, false, false⟩ 0
    (fun s a => if s.dev.st ≠ .run then 5 else if s.tokenAuth a lcReturned then 0 else 4)
    fun _ a => .seq (finishCall a 0 []) (enterState .test))

/-- ZEROISE: every slot, ZEROISED, the record; sealed channels move to SEALED. Nothing of the ledger or OTP changes. -/
def execZeroise (s : State) := s.does (
  serve ⟨0x7F, [0, 1, 2, 3, 4, 5], 0, false, false, true⟩ 0 noOwn
    fun s a => .all [
      .each (s.key.slots.map (·.1)) zeroSlot, sealOrphans, setF .KEY_STATUS_ZEROISED 1,
      logRec 0x58 0x0008 (severityOf 0x58 0x0008) none (keyDetail 0 0 (s.reqField a 12 4)), finishCall a 0 []])

/-! ### The pool (R449) -/

/-- The pool slot for a load: an empty one, else the least recently used. -/
def State.poolSlot (s : State) : Nat :=
  match ((List.range 128).map (· + 128)).find? fun n => (s.slot n).isNone with
  | some n => n
  | none => ((s.key.slots.filter fun e => decide (128 ≤ e.1)).foldl (fun b e => match b with
      | none => some (e.1, e.2.used)
      | some (_, u) => if e.2.used < u then some (e.1, e.2.used) else b) none).elim 128 (·.1)

def endPoolWait (c : Nat) : Prog := .act (.key fun k => { k with poolWaits := k.poolWaits.filter fun w => w.1 != c })

def execPoolLoad (chan : Nat) (s : State) := s.does (whenAlive (.get fun s =>
  match s.key.poolWaits.find? fun w => w.1 == chan with
  | none => .skip
  | some (_, blob, _) =>
    let r := if s.key.lost || s.vaultShut then 5 else (s.openBlob (s.mem.reads blob 96) false).1
    let code := if r = 3 then 0x0001 else 0x000C
    .seq (endPoolWait chan) (
      if r = 0 then .seq (emptyVaultSlot s.poolSlot) (loadBlob s blob s.poolSlot true)
      else .all [
        .on (s.chanState chan == csLive || s.chanState chan == csHeld) (setChan chan csSealed),
        logRec 0x58 code (severityOf 0x58 code) (some chan) (keyDetail (fieldOf (s.mem.reads blob 96) 6 2) 0xFF chan)])))

/-- The unit that waited is dropped: the head of its slot on a cable port, or the parcel that came in. -/
def dropWaiting (c : Nat) : Prog :=
  .get fun s =>
    let mine (u : Nat) : Bool := match s.sal.units.get? u with | some f => f.chan == c | none => false
    match s.sal.queues.find? fun e => match e.2 with | x :: _ => mine x.unit && !x.ended | [] => false with
    | some (q, x :: _) => .all [countDrop c, releaseCopy x, setQueue q List.tail]
    | _ => .each (List.range 6) fun p => .on (match (s.link p).inbox with
        | (_, b) :: _ => s.partWaits b && bits (fieldOf b 4 4) 16 0 == c
        | [] => false) (.all [countDrop c, dropPart p (match (s.link p).inbox with | (_, b) :: _ => b | [] => []), popInbox p])

def execPoolBusyTimeout (chan : Nat) (s : State) := s.does (whenAlive (.get fun s =>
  match s.key.poolWaits.find? fun w => w.1 == chan with
  | none => .skip
  | some (_, _, since) => .on (decide (since + 100 * us ≤ s.clock)) (.all [
      endPoolWait chan, dropWaiting chan, logLim 0x58 0x000B 2 0 ms (some chan) (keyDetail 0 0xFF chan)])))

/-! ### Failures (R446, R465, R466) -/

def execKeyVaultEcc (slot : Nat) (s : State) := s.does (whenAlive (.get fun s =>
  match s.slot slot with
  | some v => .seq (zeroSlot slot) (logRec 0x58 0x000A (severityOf 0x58 0x000A) none (keyDetail v.node slot 0))
  | none => .skip))

/-- Epmas enters its error state (R466). -/
def epmasError (code : Nat) : Prog := .all [
  setF .KEY_STATUS_ERROR 1, .act (.key fun k => { k with failed := true }), logRec 0x58 code]

/-- The continuous health tests judge a sample. -/
def execEntropySample (healthy : Bool) (s : State) := s.does (whenAlive (.get fun s =>
  .on (!healthy && !s.key.failed) (.seq (setF .KEY_STATUS_ENTROPY_OK 0) (epmasError 0x0003))))

end Sys2Proof.Machine
end

