-- ==== Sys2Proof/Machine/SelfTest.lean ====
section
/-! DEFINITION. Gauges, the bittern ring, the runtime self-test, test access (R471 to R502). -/
namespace Sys2Proof.Machine

/-! ### Gauges (R471, R474) -/

/-- What a periodic gauge samples; `value` is the reading of a temperature sensor or a rail monitor. A monitor out of service is
excluded (R487). -/
def State.periodic (s : State) (g : Nat) (value : Int) : Option Int :=
  let sel := s.raw .GAU_SEL_LOW 0 g
  match s.raw .GAU_CFG_SOURCE 0 g with
  | 2 => some (s.panFlakes sel + s.lagoonFlakes sel : Nat)
  | 3 => some (s.raw .LNK_EYE_MON_HEIGHT (bits sel 2 0) (bits sel 5 4) : Nat)
  | 4 => some (s.raw .SYS_PACE_PACE : Nat)
  | 5 => if bits sel 4 0 < 16 ∧ !(s.sltSet sltMonitor (bits sel 4 0)).failed then some value else none
  | 6 => if bits sel 3 0 < 9 ∧ !(s.sltSet sltMonitor (16 + bits sel 3 0)).failed then some value else none
  | _ => none

def execPeriodicSample (gauge : Nat) (value : Int) (s : State) := s.does (whenAlive (.get fun s =>
  .on (decide (gauge < 256) && s.raw .GAU_CFG_PERIOD_US 0 gauge != 0 && s.moment % (s.raw .GAU_CFG_PERIOD_US 0 gauge * us) == 0)
    (match s.periodic gauge value with
    | some v => sample gauge v
    | none => .skip)))

def snapGauge (g : Nat) : Prog := .get fun s =>
  let a := s.gauge g
  .all [
    setF .GAU_COUNT_COUNT a.count 0 g, setF .GAU_SUM_SUM (enc 64 a.sum) 0 g, setF .GAU_MIN_VALUE (enc 64 a.low) 0 g,
    setF .GAU_MAX_VALUE (enc 64 a.high) 0 g, setF .GAU_SNAP_MOMENT_MOMENT s.moment 0 g,
    .each (List.range 32) fun k => setF .GAU_BIN_COUNT ((a.bins.get? k).getD 0) 0 (32 * g + k)]

def clearGauge (g : Nat) : Prog := .act (.gau fun m => m.del g)

/-- OP 1 snapshot, 2 clear, 3 both, for one gauge or all at one Moment. -/
def gauCmd (g op : Nat) (all : Bool) : Prog :=
  let l := if all then List.range 256 else [g % 256]
  .all [.on (op == 1 || op == 3) (.each l snapGauge), .on (op == 2 || op == 3) (.each l clearGauge)]

def execSnapshot (gauge : Nat) (all : Bool) (s : State) := s.does (whenAlive (gauCmd gauge 1 all))
def execClear (gauge : Nat) (all : Bool) (s : State) := s.does (whenAlive (gauCmd gauge 2 all))
def execSnapshotClear (gauge : Nat) (all : Bool) (s : State) := s.does (whenAlive (gauCmd gauge 3 all))

/-! ### The bittern ring (R476 to R479) -/

def recBytes (r : Rec) : List Byte :=
  leBytes 8 r.moment ++ leBytes 4 (r.seq + r.pos * 2 ^ 20) ++ leBytes 1 r.blk ++ leBytes 1 r.sev ++ leBytes 2 r.code ++
    leBytes 4 (match r.chan with | some c => c % 2 ^ 17 + 2 ^ 31 | none => 2 ^ 32 - 1) ++ leBytes 12 r.detail

/-- Records the ring holds, and how many it can. -/
def State.btnCap (s : State) : Nat := 2 ^ (s.raw .BTN_RING_CFG_LOG2_SIZE - 5)
def State.btnFill (s : State) : Nat :=
  if s.ringFull 0 then s.btnCap else (s.raw .BTN_HEAD_HEAD + s.btnCap - s.raw .BTN_TAIL_TAIL % s.btnCap) % s.btnCap

/-- The oldest staged record leaves; once there is room, discards are told of first (R477). -/
def unstage : Prog := .all [.act .unstage, .get fun s => .on (s.btn.discards != 0 && decide (s.btn.staged.length < stagingCap)) (.all [
  .act (.stage ⟨s.moment, s.btn.logSeq, s.raw .SYS_STATE_CHAIN_POS, 0x61, 2, 1, none, s.btn.discards⟩),
  .act (.btn fun b => ((b.logSeq + 1) % 2 ^ 20, 0, b.last))])]

/-- A record goes to the ring at HEAD; the interrupt comes for its severity and when the ring's content reaches the watermark (R478). -/
def ringPut (r : Rec) : Prog := .get fun s =>
  let head := (s.raw .BTN_HEAD_HEAD + 1) % s.btnCap
  .all [
    store (s.raw .BTN_RING_BASE_BASE * 2 ^ 16 + 32 * s.raw .BTN_HEAD_HEAD) (recBytes r), setF .BTN_HEAD_HEAD head,
    .on (head == s.raw .BTN_TAIL_TAIL % s.btnCap) (fillRing 0), unstage,
    .get fun t => .on (decide (s.raw .BTN_RING_CFG_IRQ_SEV ≤ r.sev) || (!s.ringFull 0 && t.btnFill == s.raw .BTN_WATERMARK_RECORDS))
      (raiseIrq 0x61)]

/-- One staged record moves to the ring; a full ring wraps, over its oldest record, or stops by MODE. -/
def ringWrite : Prog := .get fun s =>
  match s.btn.staged with
  | [] => .skip
  | r :: _ => .on (s.flag .BTN_RING_CFG_ENABLE && s.boot.trained) (
    if s.btnFill < s.btnCap then ringPut r
    else if s.raw .BTN_RING_CFG_MODE = 0 then .all [
      setF .BTN_TAIL_TAIL ((s.raw .BTN_TAIL_TAIL + 1) % s.btnCap), bump .BTN_LOST_RECORDS, setF .BTN_STATUS_WRAPPED 1, ringPut r]
    else .skip)

def execRingWrite (s : State) := s.does (whenAlive ringWrite)

/-- A read of word 7 removes the oldest staged record while the ring is off. -/
def btnPop : Prog := .get fun s => .on (!s.flag .BTN_RING_CFG_ENABLE && !s.btn.staged.isEmpty) unstage
def execBtnPop (s : State) := s.does (whenAlive btnPop)

def logOk (x : Message) : Bool :=
  x.body.length == 24 && bits (msgWord x 0) 7 0 == 1 && within (bits (msgWord x 0) 31 0) (ones 8 0 + ones 2 8 + ones 12 16) && fieldOf x.body 20 4 == 0

/-- BTN takes its oldest message: one record of a program, or a refusal. -/
def execLog (s : State) := s.does (whenAlive (.get fun s => match s.message 0x61 with
  | none => .skip
  | some x => .seq (takeMessage x) (
    if logOk x then logRec 0x61 (0x8000 + bits (msgWord x 0) 27 16) (bits (msgWord x 0) 9 8) x.chan (fieldOf x.body 8 12)
    else bump .BTN_MSG_REFUSED_MESSAGES)))

/-! ### Runtime self-test (R486 to R490, R510) -/

def sltDetail (kind target signature : Nat) : Nat := kind + target * 2 ^ 8 + signature % 2 ^ 64 * 2 ^ 32

/-- Slices of a set; at P3 kinds 1 to 3 take twice as many. SECURE's number is Epmas's. -/
def State.slicesPerSet (s : State) (kind : Nat) : Nat :=
  if kind = sltPan then 16 else if 1 ≤ kind ∧ kind ≤ 3 ∧ s.raw .SYS_POWER_ACTIVE = 3 then 2 else 1

/-- The device state lets a kind run (R486). -/
def State.sltMayRun (s : State) (kind : Nat) : Bool :=
  inRange s.key.lifecycle lcManufacture lcReturned && bit (s.raw .SLT_KINDS_ENABLE) kind &&
    (s.flowing || ((s.dev.st == .safe || s.dev.st == .test) && (kind == sltSeal || kind == sltSecure)))

/-- The target is there to be tested: a lane must be idle, an eye in use, a berth on; a gated engine is not (R199, R487, R510). -/
def State.sltReady (s : State) (kind t : Nat) : Bool :=
  if kind = sltEngine then !(s.dev.st == .hold && !bit (s.fld .GRN_HOLD_MASK_ENGINES 0 (t / 32)) (t % 32)) || s.grn.closed.contains t
  else if kind = sltBerth then s.berthState t == 0 || ((s.sltSet kind t).failed && s.berthState t == 2)
  else if kind = sltLane then
    (if t < 24 then [lnDisabled, lnFail, lnDeep].contains (s.laneState (t / 4) (t % 4))
     else if t < 34 then !s.flag .ETH_CFG_ENABLE (t - 24)
     else if t < 38 then !s.flag .PCI_CFG_ENABLE (t - 34)
     else s.raw .DSP_OUT_MODE (t - 38) == 0)
  else if kind = sltEye then s.laneState (t / 4) (t % 4) == lnActive || s.laneState (t / 4) (t % 4) == lnHalf
  else true

/-- A slice takes hold of its target. -/
def holdTarget (kind t : Nat) : Prog :=
  if kind = sltPan then .seq (setSlt kind t fun x => { x with out := true }) refreshPans
  else if kind = sltEngine then .act (.grn fun g => { g with closed := t :: g.closed.filter (· != t) })
  else if kind = sltBerth then .get fun s => .on (s.berthState t == 0) (setF .SAL_BERTH_STATE_STATE 3 0 t)
  else if kind = sltSeal then .act (.key fun k => { k with pipesOut := t :: k.pipesOut.filter (· != t) })
  else .skip

/-- A slice starts, when no other runs and its time has come. -/
def sliceStart (kind t : Nat) (retry : Bool) : Prog := .get fun s =>
  let x := s.sltSet kind t
  .on (!s.quiet 0x68 && s.slt.running.isNone && decide (t < sltTargets kind) && s.sltMayRun kind && s.sltReady kind t && (retry == (x.retryAt != 0)) &&
      decide (x.retryAt ≤ s.clock)) (.all [
    holdTarget kind t, setSlt kind t fun x => { x with retryAt := 0 },
    .act (.slt fun p => { p with running := some ⟨kind, t, s.clock, x.forced⟩ }),
    setF .SLT_STATUS_RUNNING 1, setF .SLT_STATUS_KIND kind, setF .SLT_STATUS_TARGET t])

def execSliceStart (kind target : Nat) (s : State) := s.does (whenAlive (sliceStart kind target false))
def execSliceRetry (kind target : Nat) (s : State) := s.does (whenAlive (sliceStart kind target true))

def State.retryTime (s : State) : Nat := s.clock + s.raw .SLT_SCHED_RETRY_MS * ms
def State.intervalTicks (s : State) : Nat := s.raw .SLT_SCHED_INTERVAL_S * sec

/-- Counts of a kind after one of its sets has ended; a full pass ends when every target in service has passed since the last. -/
def sltCounts (kind : Nat) : Prog := .get fun s =>
  let l := (List.range (sltTargets kind)).map (s.sltSet kind)
  let passed (since : Nat) := l.filter fun x => x.done == 0 && x.lastAt != 0 && decide (since < x.lastAt)
  let cycle := (s.slt.cycles.get? kind).getD 0
  .all [
    setF .SLT_KIND_STATUS_DONE (l.filter fun x => x.lastAt != 0 && decide (s.clock ≤ x.lastAt + s.intervalTicks)).length 0 kind,
    setF .SLT_KIND_STATUS_FAILED (l.filter (·.failed)).length 0 kind,
    .on ((passed cycle).length + (l.filter (·.failed)).length == sltTargets kind) (.seq
      (.act (.slt fun p => { p with cycles := p.cycles.put kind s.clock })) (setF .SLT_KIND_CYCLE_MOMENT s.moment 0 kind))]

/-- SLT_CAPACITY_LOW: more than four engines closed, or every engine of GRN_HOLD_MASK, when the lowest that has passed opens (R490,
R508). -/
def capacityCheck : Prog := .get fun s =>
  let open_ := (List.range 96).any fun e => bit (s.fld .GRN_HOLD_MASK_ENGINES 0 (e / 32)) (e % 32) && !s.grn.closed.contains e
  .all [
    .on (decide (4 < s.grn.closed.length) || !open_) (logRec 0x68 0x0007 3),
    .on (!open_) (match (List.range 96).find? fun e => !s.grn.closed.contains e && (s.sltSet sltEngine e).lastAt != 0 with
      | some e => setF .GRN_HOLD_MASK_ENGINES (s.raw .GRN_HOLD_MASK_ENGINES 0 (e / 32) ||| 2 ^ (e % 32)) 0 (e / 32)
      | none => .skip)]

/-- The reference PLL has lost lock: edges stop and every link goes down (R518). -/
def refLost : Prog := .get fun s => .on (s.raw .TMB_STATUS_REF_LOCK == 1) (.all [
  setF .TMB_STATUS_REF_LOCK 0, logRec 0x02 0x0002 3, .each (List.range 6) linkDown, .each (List.range 10) ethLinkDown, .each (List.range 4) pciLinkDown,
  .each (List.range 4) fun h => setF .DSP_LINK_STATUS_UP 0 h])

/-- Loss of lock of a PLL (R487 kind 6). -/
def pllLost (t : Nat) : Prog :=
  if t = 0 then refLost
  else if t < 7 then linkDown (t - 1)
  else if t < 17 then ethLinkDown (t - 7)
  else if t < 21 then pciLinkDown (t - 17)
  else if t < 25 then .seq (setF .DSP_LINK_STATUS_PLL_LOCK 0 (t - 21)) (putHead (t - 21) fun v => { v with mute := 2 })
  else .skip

/-- What a failed slice does (R487, R466, R490). `worse`: the two references of a monitor disagree; a recalibration has failed. -/
def sliceFailed (kind t : Nat) (worse : Bool) : Prog :=
  if kind = sltPan then refreshPans
  else if kind = sltEngine then capacityCheck
  else if kind = sltBerth then .seq (.act (.sal fun p => { p with failed := t :: p.failed.filter (· != t) })) (.get fun s => .on (s.berthState t != 2) (drainBerth t))
  else if kind = sltShared then enterSafe 1 (kind + t * 2 ^ 8)
  else if kind = sltLane then .on (decide (t < 24)) (setLane (t / 4) (t % 4) lnFail)
  else if kind = sltEye then logRec 0x68 0x0005 2 none (sltDetail kind t 0)
  else if kind = sltPll then pllLost t
  else if kind = sltMonitor then .on (decide (t < 8) || t == 16 || worse) (enterSafe 1 (kind + t * 2 ^ 8))
  else if kind = sltSecure then epmasError 0x0002
  else if kind = sltDdr then .seq (logRec 0x68 0x0006 2 none (sltDetail kind t 0)) (.on worse (enterSafe 1 (kind + t * 2 ^ 8)))
  else .skip

/-- A read of the eye and a drift that recalibration mends take no target out of service. -/
def takesOut (kind : Nat) (worse : Bool) : Bool := kind != sltEye && !(kind == sltDdr && !worse)

def endFailed (kind t : Nat) (worse : Bool) (signature : Nat) : Prog := .all [
  .on (takesOut kind worse) (.all [
    bump .SLT_FAILS_COUNT, logRec 0x68 0x0001 3 none (sltDetail kind t signature),
    .get fun s => setSlt kind t fun x => { x with failed := true, done := 0, forced := false, retryAt := s.retryTime }]),
  .on (!takesOut kind worse) (.get fun s => setSlt kind t fun x => { x with done := 0, forced := false, lastAt := s.clock }),
  sliceFailed kind t worse]

def endPassed (kind t : Nat) (last : Bool) : Prog := .get fun s =>
  let x := s.sltSet kind t
  let whole := if kind = sltSecure then last else decide (s.slicesPerSet kind ≤ x.done + 1)
  if whole then .all [
    setSlt kind t fun x => { x with done := 0, lastAt := s.clock, forced := false, failed := false, out := false },
    .on (kind == sltBerth) (.act (.sal fun p => { p with failed := p.failed.filter (· != t) })),
    returnTarget kind t, .on x.failed (logRec 0x68 0x0004 1 none (sltDetail kind t 0))]
  else .all [
    setSlt kind t fun x => { x with done := x.done + 1, retryAt := if x.forced then s.retryTime else 0 },
    .on (kind != sltPan) (returnTarget kind t)]

/-- The slice in progress completes. -/
def execSliceEnd (pass last worse : Bool) (signature : Nat) (s : State) := s.does (whenAlive (.get fun s =>
  match s.slt.running with
  | none => .skip
  | some r => .on (!(r.kind == sltEngine && s.grn.threads.any fun h => h.2.busy && h.1 / 16 == r.target)) (.all [
      .act (.slt fun p => { p with running := none }), setF .SLT_STATUS_RUNNING 0, bump .SLT_STATUS_SLICES,
      if pass then endPassed r.kind r.target last else endFailed r.kind r.target worse signature, sltCounts r.kind])))

/-- Kinds whose slices a blocked request aborts (R487). -/
def abortable (kind : Nat) : Bool := kind ≤ sltLane || kind == sltSeal || kind == sltSecure

def execSliceAbort (s : State) := s.does (whenAlive (.get fun s =>
  match s.slt.running with
  | none => .skip
  | some r => .on (abortable r.kind && !r.forced) (.all [
      stopSlice, setSlt r.kind r.target fun x => { x with retryAt := s.retryTime }, bump .SLT_ABORTS_COUNT,
      logLim 0x68 0x0002 0 0 sec none (sltDetail r.kind r.target 0)])))

/-- The deadline of a set has passed; that of a target that is power-gated, and every one in SAFE, stands still (R489). -/
def State.gated (s : State) (kind t : Nat) : Bool :=
  s.dev.st == .safe || !s.sltReady kind t && (kind == sltEngine || (kind == sltEye && s.laneState (t / 4) (t % 4) == lnDeep))

def execSltForced (kind target : Nat) (s : State) := s.does (whenAlive (.get fun s =>
  let x := s.sltSet kind target
  .on (decide (target < sltTargets kind) && s.flowing && bit (s.raw .SLT_KINDS_ENABLE) kind && !x.forced && !s.gated kind target &&
      decide (x.lastAt + s.intervalTicks ≤ s.clock)) (.all [
    setSlt kind target fun x => { x with forced := true },
    .act (.slt fun p => { p with running := p.running.map fun r => if r.kind = kind ∧ r.target = target then { r with forced := true } else r }),
    bump .SLT_FORCED_COUNT, logRec 0x68 0x0003 2 none (sltDetail kind target 0)])))

/-- While deadlines stand still they move with time; every set's first deadline counts from entry to RUN. -/
def SltPart.hold (p : SltPart) (still : Nat → Nat → Bool) : SltPart :=
  { p with sets := p.sets.map fun e => if still (e.1 / 256) (e.1 % 256) then (e.1, { e.2 with lastAt := e.2.lastAt + 1 }) else e }

def startSets : Prog := .get fun s => .each (List.range 11) fun k => .all [
  .each (List.range (sltTargets k)) fun t => setSlt k t fun x => { x with lastAt := s.clock },
  .act (.slt fun p => { p with cycles := p.cycles.put k s.clock }), setF .SLT_KIND_CYCLE_MOMENT s.moment 0 k, sltCounts k]

/-! ### Test access (R492, R493) -/

/-- A TAP instruction takes effect: 0 BYPASS, 1 IDCODE, 2 SAMPLE/PRELOAD, 3 USERCODE, 4 EXTEST, 5 EXTEST_PULSE, 6 EXTEST_TRAIN. -/
def tap (code : Nat) : Prog := whenAon (emitOut .tap [code])

def teClosed : Prog := logRec 0x68 0x0008 2

/-- The EXTEST family decodes as BYPASS outside SAFE, TEST and BOOT with BOOT_FAIL. -/
def extest (code : Nat) : Prog := .get fun s =>
  if s.dev.st = .safe ∨ s.dev.st = .test ∨ (s.dev.st = .boot ∧ s.raw .SYS_STATE_BOOT_FAIL = 1) then tap code
  else .seq (tap 0) (whenAon teClosed)

def execBypass (s : State) := s.does (tap 0)
def execIdcode (s : State) := s.does (tap 1)
def execSamplePreload (s : State) := s.does (tap 2)
def execUsercode (s : State) := s.does (tap 3)
def execExtest (s : State) := s.does (extest 4)
def execExtestPulse (s : State) := s.does (extest 5)
def execExtestTrain (s : State) := s.does (extest 6)

/-- The test-engine window: closed, a read returns zero and a write is ignored; open, its layout belongs to Moalvo's test programs, so
a read returns a free value and a write goes out to the test engine (log entry 66). -/
def execTestEngineAccess (write : Bool) (offset value : Nat) (s : State) := s.does (whenAlive (.get fun s =>
  if s.key.lifecycle = lcManufacture ∨ s.key.lifecycle = lcReturned then
    (if write then emitOut .tap [offset, value] else withFree (2 ^ 64) fun v => emitOut .bus [v])
  else .seq (.on (!write) (emitOut .bus [0])) teClosed))

end Sys2Proof.Machine
end

