-- ==== Sys2Proof/Machine/Power.lean ====
section
/-! DEFINITION. Supplies, rails, clocks, boot, block resets, the boot flash, thermal protection (R513 to R537, R556). -/
namespace Sys2Proof.Machine

/-! ### Thermal protection (R556) -/

/-- Junction at which Epmas enters SAFE: 130 °C for IA parts, 110 °C for CA parts. -/
def safeTemp : Nat := if Config.grade = 1 then 110 else 130

/-- A core sensor (0 to 7) has read `reading`, in 1/16 °C, for 1 ms. -/
def execThermalHigh (sensor reading : Nat) (s : State) := s.does (
  .on (s.flowing && s.boot.epmas && decide (sensor < 8) && decide (16 * safeTemp ≤ reading)) (.seq
    (logRec 0x01 0x000A 4 none (sensor + reading % 2 ^ 16 * 2 ^ 32)) (enterSafe 3)))

/-- A core sensor has read 140 °C or more for 100 µs: as PORn, with a thermal hold to follow. -/
def execThermalTrip (temp : Int) (s : State) := s.does (.on (s.aonAlive && decide (140 ≤ temp)) (.all [
  pornReset 1, .act (.dev fun d => { d with thermalHold := true, temp := temp })]))

/-- The AON domain and then the main rails, where a supply is there. -/
def powerUp : Prog := .get fun s => .seq (.on (s.dev.vin || s.dev.vbus != 0) aonUp)
  (.get fun s => .on (s.dev.vin && !s.boot.standby) railsOn)

/-- The AON sensor reads below 100 °C: the hold is released and the hub starts as at power-up. -/
def execThermalRelease (temp : Int) (s : State) := s.does (.on (s.dev.thermalHold && decide (temp < 100)) (.seq
  (.act (.dev fun d => { d with thermalHold := false, temp := temp })) powerUp))

/-! ### Supplies and rails (R42, R514, R515, R525, R532) -/

/-- VIN is at 4.5 V or more: the AON domain starts, unless it runs or a thermal hold stands, and the rails follow. It also starts a
hub whose PORn is released with VIN present. -/
def execPowerUp (s : State) := s.does (.seq (.act (.dev fun d => { d with vin := true })) powerUp)

/-- The rails of the last group have been in range for 0.5 ms: the next group is enabled. -/
def execRailGroupEnable (s : State) := s.does (
  .on (s.dev.st == .aon && decide (1 ≤ s.boot.groups) && decide (s.boot.groups < 4) && decide (s.boot.railAt + ms / 2 ≤ s.clock)) (.seq
    (.act (.boot fun b => { b with groups := b.groups + 1, railAt := s.clock })) (emitOut .rails [s.boot.groups + 1])))

/-- The last group is not in range 5 ms after its enable, or in BOOT the regulator reads back outside 0.72 V ± 15 mV (R516). -/
def execRailFault (readback : Bool) (s : State) := s.does (
  let rising := s.dev.st == .aon && decide (1 ≤ s.boot.groups) && decide (s.boot.railAt + 5 * ms ≤ s.clock)
  let group := if readback then 2 else s.boot.groups
  .on (if readback then s.dev.st == .boot else rising) (.all [
    removeRails false, setF .SYS_BOOT_INFO_RAIL_FAULT 1,
    .act (.boot fun b => { b with railGroup := some group, railFaultAt := some s.clock, faults := b.faults + 1 })]))

/-- 1 s after a rail fault the hub tries again, unless it was the third in a row. -/
def execRailRetry (s : State) := s.does (match s.boot.railFaultAt with
  | some t => .on (decide (t + sec ≤ s.clock) && decide (s.boot.faults < 3)) (.seq (.act (.boot fun b => { b with railFaultAt := none })) railsOn)
  | none => .skip)

/-- Roles by the straps: a member of a bonded link takes the strap of its primary (R545). -/
def bondedRoles (bond roles : Nat) : Nat :=
  (List.range 4).foldl (fun n i => if bit roles (bondPrimary bond i) then n + 2 ^ i else n) 0

/-- PGOOD rises with every group enabled: BOOT. The balls GPIO0 to GPIO7 are the straps (R545). A rail fault that waited is recorded. -/
def execPgoodRise (balls : Nat) (s : State) := s.does (
  .on (s.dev.st == .aon && s.boot.groups == 4) (.all [
    .act (.boot fun b =>
      let bond := if bits balls 2 0 < 5 then bits balls 2 0 else 0
      { b with
        strapBond := bond
        strapRole := bondedRoles bond (bits balls 6 3)
        strapRef := bits balls 7 7
        pgoodAt := s.clock
        refAt := s.clock
        railGroup := none
        railFaultAt := none
        faults := 0 }),
    enterState .boot, sampleStraps,
    (match s.boot.railGroup with
    | some g => logRec 0x01 0x0007 3 none g
    | none => .skip)]))

/-- PGOOD has been low for 10 µs with the rails enabled. -/
def execPgoodFall (s : State) := s.does (whenAlive (removeRails false))

/-- SYS_STANDBY. -/
def standbyWrite (enter : Bool) (key : Nat) : Prog := if key = resetKey then .on enter (removeRails true) else keyBad
def execStandbyEnter (key : Nat) (s : State) := s.does (whenAlive (standbyWrite true key))

def execWakeNFall (s : State) := s.does (.seq (.act (.boot fun b => { b with faults := 0 })) railsOn)

/-- PORn low: OFF. -/
def execPorn (s : State) := s.does (.seq (pornReset 1) (.act (.dev fun d => { d with thermalHold := s.dev.thermalHold })))

/-- VIN and every VBUS are below 4.5 V: OFF, and a thermal hold is cleared. -/
def execPowerLoss (s : State) := s.does (.seq (pornReset 5) (.act (.dev fun d => { d with
  thermalHold := false
  vin := false
  vbus := 0 })))

/-- VIN falls while a VBUS is up: the rails stay only while a sink contract is enough. -/
def execVinLoss (s : State) := s.does (.on (s.dev.vin && s.dev.vbus != 0) (.seq (.act (.dev fun d => { d with vin := false })) supplyCheck))

/-! ### Clocks (R517, R518) -/

def execRefLock (s : State) := s.does (whenAlive (.on (s.raw .TMB_STATUS_REF_LOCK == 0) (.all [
  setF .TMB_STATUS_REF_LOCK 1, chooseMaster, .each (List.range 6) startTraining])))

/-- No lock within 2 ms of PGOOD, and again every 100 ms. -/
def execRefFault (s : State) := s.does (
  .on (s.dev.st == .boot && s.raw .TMB_STATUS_REF_LOCK == 0 &&
      decide (s.boot.refAt + (if s.raw .SYS_BOOT_INFO_REF_FAULT = 1 then 100 else 2) * ms ≤ s.clock)) (.seq
    (setF .SYS_BOOT_INFO_REF_FAULT 1) (.act (.boot fun b => { b with refAt := s.clock }))))

def execRefLost (s : State) := s.does (whenAlive (.seq refLost chooseMaster))

/-- Phase of the Moment against the second that a pulse marks, nearest second. -/
def phaseOf (t : Int) : Int := (t + (sec / 2 : Nat)) % (sec : Nat) - (sec / 2 : Nat)

/-- A pulse per second on PPS_IN, for a grandmaster that takes its reference from REF10_IN. -/
def execPpsPulse (s : State) := s.does (whenAlive (
  .on (s.raw .TMB_CFG_REF_SRC == 1 && s.raw .TMB_STATUS_REF_LOCK == 1 && s.tmb.slave.isNone) (.seq
    (correct s.tmb.acquired (phaseOf (s.asTime s.moment))) (.act (.tmb fun t => { t with acquired := true })))))

/-! ### Boot (R42, R43, R438, R526) -/

/-- The keys of slots 0 to 5, derived at boot in PROVISIONED and DEPLOYED (R442, R446). -/
def deriveSlots : Prog := .get fun s =>
  let root := Config.kdf (Config.rootSecret s.key.lifecycle) (Config.bootLabel 0) (kdfContext 0 (s.node 0).epoch 0)
  .on s.customer (.seq (fillSlot 0 0 root none)
    (.each [1, 2, 3, 4, 5] fun n => fillSlot n n (Config.kdf root (Config.bootLabel n) (kdfContext 0 (s.node 0).epoch n)) none))

/-- The board record (R523); a bad one latches zero. -/
def boardOk (b : List Byte) : Bool := b.length == 32 && fieldOf b 0 4 == 0x42445231 && crc32 (b.take 28) == fieldOf b 28 4

def readBoard (b : List Byte) : Prog :=
  let b := if boardOk b then b else List.replicate 32 0
  .all [
    setB .SYS_BOOT_INFO_BOARD_OK (boardOk b), .on (!boardOk b) (logRec 0x78 0x0002),
    setF .GPIO_SAFE_EN_EN (fieldOf b 4 6), setF .GPIO_SAFE_LEVEL_LEVEL (fieldOf b 10 6),
    .act (.boot fun x => { x with linkAuto := fieldOf b 16 1 % 64, boardRate := fieldOf b 17 1 })]

/-- The ledger at power-up (R444): 0 the copy of VERSION = anchor checks, 1 only that of anchor + 1, 2 neither. -/
def readLedger (ledger : Nat) : Prog := .get fun s =>
  .on (s.customer || s.key.lifecycle == lcManufacture || s.key.lifecycle == lcBlank) (match ledger, s.key.written with
  | 1, some nodes => .seq (.act (.key fun k => { k with nodes := nodes, written := none, anchor := k.anchor + 1 })) (logRec 0x58 0x0004)
  | 2, _ => .seq (.act (.key fun k => { k with lost := true })) (setF .KEY_STATUS_ERROR 1)
  | _, _ => .act (.key fun k => { k with written := none }))

/-- The boot ROM's tests pass and Epmas is loaded from `slot` and authenticated, `fallback` after the other slot failed; with `ok`
false neither slot holds an authentic one. With the SAFE latch set the hub enters SAFE (R43); otherwise Epmas reads the ledger,
derives the root, reads the board record and locks the ceilings. -/
def execEpmasAuthenticated (ok : Bool) (slot : Nat) (fallback flash8d : Bool) (kernel board : List Byte) (ledger : Nat) (s : State) := s.does (
  .on (s.dev.st == .boot && !s.boot.epmas) (
    if !ok then setF .SYS_STATE_BOOT_FAIL 1
    else .all [
      .act (.boot fun b => { b with epmas := true }), .act (.key fun k => { k with kernel := kernel }),
      setF .SYS_BOOT_INFO_EPMAS_SLOT (slot % 2), setB .SYS_BOOT_INFO_FLASH_8D flash8d,
      .on fallback (.seq (setF .SYS_BOOT_INFO_FALLBACK 1) (logRec 0x01 0x0008 2 none (3 + (1 - slot % 2) * 2 ^ 8))),
      readBoard board,
      if s.dev.safeLatch then enterSafe s.dev.latchCause
      else .all [
        setF .KEY_STATUS_ENTROPY_OK 1, readLedger ledger, deriveSlots,
        withDrbg 8 fun b => setF .KEY_NONCE_NONCE (leNat b), withDrbg 4 fun b => .act (.tun fun t => { t with bootId := leNat b }),
        setF .KEY_STATUS_CEILINGS_LOCKED 1]]))

/-- DRAM training ends; `gib` GiB are fitted. The rate is the one written since PORn, else the board record's (R537). -/
def execDramTrained (ok : Bool) (gib : Nat) (s : State) := s.does (
  .on (s.dev.st == .boot && s.boot.epmas && !s.boot.trained && s.raw .TMB_STATUS_REF_LOCK == 1) (
    if !ok then setF .SYS_BOOT_INFO_DDR_FAULT 1
    else .all [
      .on (!s.boot.rateWritten) (setF .DDR_CFG_RATE s.boot.boardRate),
      .get fun s => setF .DDR_STATUS_RATE_ACTIVE (s.raw .DDR_CFG_RATE),
      setF .DDR_STATUS_TRAINED 1, setF .DDR_STATUS_GIB (max 1 (min gib 64)),
      .act (.boot fun b => { b with trained := true, gib := max 1 (min gib 64) })]))

/-- The start-up self-test ends: kinds, targets and severities (as in SLICE_END) of what failed. -/
def execStartupSelftestDone (failures : List (Nat × Nat × Bool)) (s : State) := s.does (
  .on (s.dev.st == .boot && s.boot.epmas && !s.boot.tested) (.seq
    (.act (.boot fun b => { b with tested := true }))
    (.each (failures.filter fun f => decide (f.2.1 < sltTargets f.1)) fun f => .seq
      (.on (f.1 == sltEngine) (holdTarget f.1 f.2.1)) (.seq (.on (f.1 == sltSeal) (holdTarget f.1 f.2.1)) (endFailed f.1 f.2.1 f.2.2 0)))))

/-- Hub firmware is authenticated from `slot` (its SHA-384, its SVN, where the control cores start it) and the control cores released:
RUN. With `ok` false both slots failed. -/
def execFirmwareAuthenticated (ok : Bool) (slot : Nat) (fallback : Bool) (hash : List Byte) (svn start : Nat) (s : State) := s.does (
  .on (s.dev.st == .boot && s.boot.epmas && s.boot.trained) (
    if !ok || s.key.lifecycle == lcScrapped then setF .SYS_STATE_BOOT_FAIL 1
    else .on s.boot.tested (.all [
      .on fallback (.seq (setF .SYS_BOOT_INFO_FALLBACK 1) (logRec 0x01 0x0008 2 none (1 + (1 - slot % 2) * 2 ^ 8))),
      setF .SYS_BOOT_INFO_FW_SLOT (slot % 2), .act (.key fun k => { k with firmware := hash, firmwareSvn := svn }),
      .act (.boot fun b => { b with fwStart := start }),
      .each (List.range 4) fun n => setCore n fun _ => { Core.reset with pc := start },
      enterState .run, setF .SYS_BOOT_INFO_BOOT_MS (min 65535 ((s.clock - s.boot.pgoodAt) / ms)), startSets,
      .each ((List.range 6).filter (bit s.boot.linkAuto)) fun p => .seq (setF .LNK_CFG_ENABLE 1 p) (startTraining p)])))

/-! ### Block reset (R530) -/

/-- A link or a controller restarts with its block. -/
def restartPart (blk : Nat) : Prog :=
  if 0x10 ≤ blk ∧ blk ≤ 0x15 then .all [linkDown (blk - 0x10), setLink (blk - 0x10) fun _ => blankPort]
  else if 0x20 ≤ blk ∧ blk ≤ 0x29 then .seq (ethLinkDown (blk - 0x20)) (.act (.eth fun m => m.del (blk - 0x20)))
  else if 0x31 ≤ blk ∧ blk ≤ 0x34 then pciLinkDown (blk - 0x31)
  else .act (.can fun m => m.del (blk - 0x40))

def resettable (blk : Nat) : Bool := inRange blk 0x10 0x15 || inRange blk 0x20 0x29 || inRange blk 0x31 0x34 || inRange blk 0x40 0x47

def blkReset (blk key : Nat) : Prog :=
  .get fun s =>
    if key ≠ resetKey ∨ !resettable blk then keyBad
    else if s.raw .BLK_STATUS_QUIESCED blk = 0 then refuse blk
    else .all [
      restartPart blk,
      .act (.keepRegs fun r i _ => r.owner i != blk || r.info.kept || r == .PCI_CFG_ROLE),
      .act (.keepShadows fun r i _ => r.owner i != blk || r.info.kept), .act (.untake fun r i _ => r.owner i == blk && !r.info.kept),
      logRec 0x01 0x0009 1 none blk]

def execBlkReset (blk key : Nat) (s : State) := s.does (whenAlive (blkReset blk key))

/-! ### The boot flash (R520, R524, R536) -/

/-- Areas that control cores program, and those of the security core alone; bytes outside every area have no programmer. -/
def flashArea (a : Nat) : Nat :=
  if a < 0x2000 ∨ inRange a 0x40000 0x4FFFF ∨ inRange a 0x80000 0xFFFFF ∨ inRange a 0x400000 0x3BFFFFF then 1
  else if inRange a 0x10000 0x3FFFF ∨ inRange a 0x100000 0x2FFFFF then 2
  else if 0x3C00000 ≤ a then 3 else 0

def mayProgram : Master → Nat → Bool
  | .core _, n => n == 1 || n == 3
  | .secure, n => n != 0
  | _, n => n == 3

/-- Every boundary of R520 is a multiple of 4 KiB, so the first byte of each 4 KiB piece decides. -/
def flashAllowed (m : Master) (a n : Nat) : Bool :=
  n == 0 || (List.range ((a + n - 1) / 4096 - a / 4096 + 1)).all fun i => mayProgram m (flashArea ((a / 4096 + i) * 4096))

/-- XSPI_CMD: 1 READ, 2 PROGRAM, 3 ERASE of 64 KiB. -/
def xspiCmd (m : Master) (op len : Nat) : Prog :=
  .get fun s =>
    let a := s.raw .XSPI_ADDR_ADDR
    let at_ := if op = 3 then a / 65536 * 65536 else a
    let n := if op = 3 then 65536 else len
    .on (s.raw .XSPI_STATUS_BUSY == 0 && inRange op 1 3) (
      if op ≠ 1 ∧ !flashAllowed m at_ n then .seq (setF .XSPI_STATUS_RESULT 2) (logRec 0x78 0x0001 2 none a)
      else .all [
        setF .XSPI_STATUS_BUSY 1, setF .XSPI_STATUS_RESULT 0, .act (.boot fun b => { b with xspi := some (op, at_, s.raw .XSPI_BUF_ADDR, n) }),
        emitOut .flash [op, at_, n] (if op = 2 then s.mem.reads (s.raw .XSPI_BUF_ADDR) n else [])])

def execXspiRead (m : Master) (len : Nat) (s : State) := s.does (whenAlive (xspiCmd m 1 (len % 2 ^ 24)))
def execXspiProgram (m : Master) (len : Nat) (s : State) := s.does (whenAlive (xspiCmd m 2 (len % 2 ^ 24)))
def execXspiErase (m : Master) (s : State) := s.does (whenAlive (xspiCmd m 3 0))

/-- The command ends; `data` is what the flash has read. -/
def execXspiComplete (data : List Byte) (error : Bool) (s : State) := s.does (whenAlive (match s.boot.xspi with
  | none => .skip
  | some (op, _, buf, n) => .all [
      .on (op == 1 && !error) (store buf (data.take n)),
      setF .XSPI_STATUS_BUSY 0, setF .XSPI_STATUS_RESULT (if error then 3 else 1), .act (.boot fun b => { b with xspi := none })]))

end Sys2Proof.Machine
end

