-- ==== Sys2Proof/Machine/Commits.lean ====
section
/-! DEFINITION. Commits and quiescing of the blocks (R53, R56 to R59), what each block checks, its natural boundary, the rejected
combinations (R504), and the generation commit of the channel table (R83 to R90). -/
namespace Sys2Proof.Machine

/-! ### Blocks and the traffic they carry (R58) -/

def boundBlk (s : State) (q : Nat) : Nat := portBlk (s.groupOf (s.raw .SAL_QCFG_BERTH 0 q)) (s.raw .SAL_QCFG_PORT 0 q)

/-- A block carries traffic of HOLD channels (R58): the core of the data path while one is LIVE, and the blocks its entry names or
that a unit of it came in through. -/
def State.carriesHold (s : State) (blk : Nat) : Bool :=
  let live := s.holdChans.filter fun c => s.chanState c == csLive
  live.any fun c =>
    let e := s.entry c
    [0x03, 0x04, 0x05, 0x19, 0x1A].contains blk || boundBlk s (eQslot e) == blk || (eLink e != 7 && (blk == 0x18 || blk == 0x10 + eLink e)) ||
      s.sal.units.any fun u => u.2.chan == c && portBlk u.2.group u.2.port == blk

/-- The block has work in progress. -/
def State.blkBusy (s : State) (blk : Nat) : Bool :=
  if blk = 0x01 then s.flag .SYS_POWER_TRANSIT
  else if blk = 0x03 then !s.chn.misses.isEmpty
  else if blk = 0x04 then s.grn.threads.any fun t => t.2.busy
  else if blk = 0x05 then !s.grn.harvest.isEmpty
  else if 0x10 ≤ blk ∧ blk ≤ 0x15 then s.flag .LNK_STATUS_UP (blk - 0x10) && !(s.link (blk - 0x10)).held.isEmpty
  else if blk = 0x18 then s.tun.ports.any fun t => !t.2.parts.isEmpty
  else if blk = 0x19 then !s.sal.units.isEmpty
  else if blk = 0x1A then !s.rak.sending.isEmpty
  else if 0x20 ≤ blk ∧ blk ≤ 0x29 then (s.rak.sending.get? (portKey gEth (blk - 0x20))).isSome
  else if blk = 0x30 then s.brg.movers.any (fun m => m.2.run.isSome) || (s.message 0x30).isSome
  else if 0x31 ≤ blk ∧ blk ≤ 0x34 then !(s.reqsOf (blk - 0x31)).isEmpty
  else if blk = 0x38 then !s.sig.inbox.isEmpty || (s.message 0x38).isSome
  else if 0x40 ≤ blk ∧ blk ≤ 0x47 then !(s.canPort (blk - 0x40)).bufs.isEmpty
  else if blk = 0x48 then (s.message 0x48).isSome || s.dsp.heads.any fun h => !h.2.tiles.isEmpty
  else if blk = 0x50 then s.cbl.ports.any fun p => p.2.req.isSome
  else if blk = 0x58 then !s.key.calls.isEmpty
  else if blk = 0x61 then !s.btn.staged.isEmpty
  else if blk = 0x68 then s.slt.running.isSome
  else if blk = 0x78 then !s.brg.loc.isEmpty || !s.brg.busy.isEmpty
  else false

/-- Header commands of a block that exists. -/
def onBlk (blk : Nat) (p : Prog) : Prog := whenAlive (.on (blockIds.contains blk) p)

/-- The request takes effect; a link goes down (R205). -/
def quiesced (blk : Nat) : Prog := .all [
  setF .BLK_STATUS_QUIESCED 1 blk, .on (decide (0x10 ≤ blk ∧ blk ≤ 0x15)) (linkDown (blk - 0x10))]

def quiesce (blk : Nat) : Prog := .get fun s =>
  if s.dev.st == .hold && s.carriesHold blk then refuse blk
  else .seq (setF .BLK_CTRL_QUIESCE 1 blk) (.on (!s.flag .BLK_STATUS_QUIESCED blk && !s.blkBusy blk) (quiesced blk))

def execQuiesce (blk : Nat) (s : State) := s.does (onBlk blk (quiesce blk))

def execQuiesceDone (blk : Nat) (s : State) := s.does (onBlk blk (.get fun s =>
  .on (s.flag .BLK_CTRL_QUIESCE blk && !s.flag .BLK_STATUS_QUIESCED blk && !s.blkBusy blk) (quiesced blk)))

/-- QUIESCE 0 releases the block; an enabled link trains again. -/
def release (blk : Nat) : Prog := .get fun s => .all [
  setF .BLK_CTRL_QUIESCE 0 blk, setF .BLK_STATUS_QUIESCED 0 blk,
  .on (s.flag .BLK_STATUS_QUIESCED blk && decide (0x10 ≤ blk ∧ blk ≤ 0x15)) (startTraining (blk - 0x10))]

def execQuiesceRelease (blk : Nat) (s : State) := s.does (onBlk blk (release blk))

/-! ### Agreements (R56 step 1). Each check answers the position of the first agreement that fails, 0 when none does. -/

/-- The first of a list of checks that fails, counted from 1. -/
def firstFalse (l : List Bool) : Nat :=
  if l.all id then 0 else (l.takeWhile id).length + 1

/-- Indices at which a commit has taken a value of one of the fields. -/
def State.takenAt (s : State) (rs : List RegId) : List Nat :=
  ((s.taken.filter fun e => rs.contains e.2.reg).map fun e => keyIdx e.1).eraseDups

def State.pairGrn (s : State) : Bool :=
  let eng := (List.range 3).map fun w => s.next .GRN_ENG_MASK_ENGINES 0 w
  let hold := (List.range 3).map fun w => s.next .GRN_HOLD_MASK_ENGINES 0 w
  hold.any (· != 0) && (hold.zip eng).all fun x => within x.1 x.2

def State.pairsLnk (s : State) (p : Nat) : List Bool :=
  let m := s.next .LNK_CFG_PAIRMAP p
  [!(m == 1 || m == 2) || bits (s.next .LNK_CFG_RATES p) 1 0 != 0, decide (s.next .LNK_ADAPT_GATE_LO p < s.next .LNK_ADAPT_GATE_HI p)]

def State.pairTun (s : State) : Bool :=
  decide (s.next .TUN_TIMERS_ALLOT_TIMEOUT_US * 1000 < (s.next .TUN_CFG_LEAD - 1) * 16384)

def State.nextGroup (s : State) (q : Nat) : Nat := s.groupOf (s.next .SAL_QCFG_BERTH 0 q)

def State.pairsSal (s : State) : List Bool :=
  let slots := s.takenAt [.SAL_QCFG_BERTH, .SAL_QCFG_PORT, .SAL_QCFG_LIMIT, .SAL_QCFG_PAN_LIMIT]
  [slots.all fun q => decide (s.next .SAL_QCFG_PAN_LIMIT 0 q ≤ s.next .SAL_QCFG_LIMIT 0 q),
   slots.all fun q => s.portOk (s.next .SAL_QCFG_BERTH 0 q) (s.next .SAL_QCFG_PORT 0 q),
   (List.range 256).all fun t => s.next .SAL_MCT_VALID 0 t == 0 ||
     s.nextGroup (s.next .SAL_MCT_QSLOT 0 t) == s.groupOf (s.next .SAL_MCT_BERTH 0 t)]

def State.pairRak (s : State) : Bool :=
  (s.takenAt [.RAK_METER_TYPE, .RAK_METER_ALG, .RAK_METER_CIR_KBPS, .RAK_METER_PIR_KBPS]).all fun m =>
    !(s.next .RAK_METER_TYPE 0 m == 1 && s.next .RAK_METER_ALG 0 m == 0) ||
      decide (s.next .RAK_METER_CIR_KBPS 0 m ≤ s.next .RAK_METER_PIR_KBPS 0 m)

/-- The first agreement of ETH, MODE with FEC, is unshadowed. -/
def State.pairsEth (s : State) (n : Nat) : List Bool :=
  [true,
   (List.range 8).all fun tc => s.next .ETH_TC_CBS_EN n tc == 0 || decide (s.next .ETH_TC_IDLE_SLOPE_KBPS n tc ≤ s.ethRate n),
   s.next .ETH_SLU_CFG_GATE_EN n == 0 || (decide (1 ≤ s.next .ETH_SLU_CYCLE_CYCLE_NS n) && decide (1 ≤ s.next .ETH_SLU_CFG_LIST_LEN n))]

def State.pairsBrg (s : State) : List Bool :=
  let rs := List.range 64
  [rs.all fun r => s.next .BRG_REGION_BASE 0 r * 2 ^ 12 % 2 ^ s.next .BRG_REGION_SIZE 0 r == 0,
   rs.all fun r => s.next .BRG_REGION_PREFETCH 0 r == 0 || s.next .BRG_REGION_KIND 0 r == 1 || s.next .BRG_REGION_KIND 0 r == 3]

/-- A bit rate of 80 MHz / (brp · tq) does not exceed `khz`. -/
def rateWithin (khz brp tq : Nat) : Bool := decide (80000 ≤ khz * (brp * tq))

def State.pairsCan (s : State) (n : Nat) : List Bool :=
  [decide (s.next .CAN_NBT_SJW n ≤ s.next .CAN_NBT_TSEG2 n) && decide (s.next .CAN_DBT_DSJW n ≤ s.next .CAN_DBT_DTSEG2 n),
   rateWithin 1000 (s.next .CAN_NBT_BRP n) (1 + s.next .CAN_NBT_TSEG1 n + s.next .CAN_NBT_TSEG2 n) &&
     rateWithin 8000 (s.next .CAN_DBT_DBRP n) (1 + s.next .CAN_DBT_DTSEG1 n + s.next .CAN_DBT_DTSEG2 n)]

/-- A fixed PDO lies within a ceiling. -/
def pdoWithin (mv ma v : Nat) : Bool := v == 0 || (decide (bits v 19 10 * 50 ≤ mv) && decide (bits v 9 0 * 10 ≤ ma))

def State.pairsCbl (s : State) : List Bool :=
  let ports := List.range 6
  [s.shadow .BLK_CTRL_LEVEL 0x50 == 0 || ports.all fun p =>
     ((List.range 7).all fun i => pdoWithin (s.raw .CBL_CEILING_SRC_MV p) (s.raw .CBL_CEILING_SRC_MA p) (s.next .CBL_SRC_PDO_PDO p i)) &&
     ((List.range 4).all fun i => pdoWithin (s.raw .CBL_CEILING_SNK_MV p) (s.raw .CBL_CEILING_SNK_MA p) (s.next .CBL_SNK_PDO_PDO p i)),
   ports.all fun p => s.next .CBL_PORT_CFG_SPLIT_EN p == 0 ||
     (s.next .CBL_PORT_CFG_AVRATH_EN p == 1 && s.next .CBL_PORT_CFG_DP_EN p == 1),
   ports.all fun p => s.next .CBL_PORT_CFG_EPR_EN p == 0 ||
     decide (20000 < s.raw .CBL_CEILING_SRC_MV p) || decide (20000 < s.raw .CBL_CEILING_SNK_MV p)]

/-- Classes A and B of R472. -/
def classA (pt : Nat) : Bool := inRange pt 0 0x37 || inRange pt 0x3C 0xD0
def classB (pt : Nat) : Bool := inRange pt 0xD1 0x165

def State.pairGau (s : State) : Bool :=
  (s.takenAt [.GAU_CFG_SOURCE, .GAU_CFG_LOG2, .GAU_CFG_PERIOD_US, .GAU_SEL_LOW, .GAU_SEL_POINT_B, .GAU_WIDTH_WIDTH]).all fun g =>
    let src := s.next .GAU_CFG_SOURCE 0 g
    (src != 1 || (classA (bits (s.next .GAU_SEL_LOW 0 g) 8 0) && classB (s.next .GAU_SEL_POINT_B 0 g))) &&
    (!inRange src 2 6 || s.next .GAU_CFG_PERIOD_US 0 g != 0) &&
    (s.next .GAU_CFG_LOG2 0 g == 1 || s.next .GAU_WIDTH_WIDTH 0 g != 0)

/-- The position of the first agreement of a block that a commit would break (R56, R480). -/
def State.pairFault (s : State) (blk : Nat) : Nat :=
  if blk = 0x04 then firstFalse [s.pairGrn]
  else if 0x10 ≤ blk ∧ blk ≤ 0x15 then firstFalse (s.pairsLnk (blk - 0x10))
  else if blk = 0x18 then firstFalse [s.pairTun]
  else if blk = 0x19 then firstFalse s.pairsSal
  else if blk = 0x1A then firstFalse [s.pairRak]
  else if 0x20 ≤ blk ∧ blk ≤ 0x29 then firstFalse (s.pairsEth (blk - 0x20))
  else if blk = 0x30 then firstFalse s.pairsBrg
  else if 0x40 ≤ blk ∧ blk ≤ 0x47 then firstFalse (s.pairsCan (blk - 0x40))
  else if blk = 0x50 then firstFalse s.pairsCbl
  else if blk = 0x60 then firstFalse [s.pairGau]
  else 0

/-! ### Natural boundaries -/

/-- Some of the fields would change at some index. -/
def State.changes (s : State) (rs : List RegId) (inst : Nat := 0) : Bool :=
  s.taken.any fun e => rs.contains e.2.reg && keyInst e.1 == inst && e.2.val != s.fld e.2.reg inst (keyIdx e.1)

/-- Queue slots whose binding a commit changes. -/
def State.rebound (s : State) : List Nat :=
  ((s.taken.filter fun e => [RegId.SAL_QCFG_BERTH, .SAL_QCFG_PORT, .SAL_QCFG_TC].contains e.2.reg &&
    e.2.val != s.fld e.2.reg 0 (keyIdx e.1)).map fun e => keyIdx e.1).eraseDups

/-- Units whose ENQ has still to take effect, of those dispatched. -/
def State.unrouted (s : State) : List Nat :=
  (s.sal.units.filter fun u => !u.2.enqueued && (match u.2.place with | .running .. => true | .harvested => true | _ => false)).map (·.1)

/-- A commit of SAL may be judged (R283). -/
def State.salReady (s : State) : Bool :=
  let routes := !s.rebound.isEmpty || s.changes [.SAL_MCT_BERTH, .SAL_MCT_QSLOT, .SAL_MCT_VALID]
  !routes || (s.superseded.isEmpty && s.sal.early.all (fun u => !s.unrouted.contains u) && s.rebound.all fun q => (s.queue q).isEmpty)

/-- The superseded versions that shadow slots hold. -/
def State.oldVersions (s : State) : List (List Byte) := s.chn.shadows.map fun e => s.mem.reads (s.shadowAddr e.1) 64

/-- OLD_REFS of a meter and of a region (R313, R338). -/
def State.meterRefs (s : State) (m : Nat) : Nat :=
  (s.oldVersions.filter fun e => (eMeterKind e == 1 || eMeterKind e == 2) && eMeter e == m).length
def State.regionRefs (s : State) (r : Nat) : Nat :=
  (s.oldVersions.filter fun e => eType e == tyMem && eParam e 44 1 % 64 == r).length

def State.meterHeld (s : State) : Bool :=
  s.taken.any fun e => [RegId.RAK_METER_TYPE, .RAK_METER_ALG, .RAK_METER_SLOT].contains e.2.reg &&
    e.2.val != s.fld e.2.reg 0 (keyIdx e.1) && s.meterRefs (keyIdx e.1) != 0
def State.regionHeld (s : State) : Bool :=
  s.taken.any fun e => [RegId.BRG_REGION_KIND, .BRG_REGION_BASE, .BRG_REGION_SIZE, .BRG_REGION_TARGET, .BRG_REGION_CTRL].contains e.2.reg &&
    e.2.val != s.fld e.2.reg 0 (keyIdx e.1) && s.regionRefs (keyIdx e.1) != 0

/-- The natural boundary of a block has come, as far as the state shows it. -/
def State.atBoundary (s : State) (blk : Nat) : Bool :=
  if blk = 0x18 then s.moment % 2 ^ 16 == 0
  else if blk = 0x19 then s.salReady
  else if blk = 0x1A then !s.meterHeld
  else if 0x20 ≤ blk ∧ blk ≤ 0x29 then (s.rak.sending.get? (portKey gEth (blk - 0x20))).isNone
  else if blk = 0x30 then !s.regionHeld
  else if blk = 0x50 then s.cbl.ports.all fun p => p.2.ams == 0
  else true

/-- A commit that waits for superseded versions is recorded once, with the meter or the region's address (R318, R351). -/
def waitNote (blk : Nat) : Prog := .get fun s =>
  let m := ((s.taken.filter fun e => e.2.reg.owner (keyInst e.1) == 0x1A && s.meterRefs (keyIdx e.1) != 0).map fun e => keyIdx e.1).headD 0
  let r := ((s.taken.filter fun e => e.2.reg.owner (keyInst e.1) == 0x30 && s.regionRefs (keyIdx e.1) != 0).map fun e => keyIdx e.1).headD 0
  if blk = 0x1A ∧ s.meterHeld ∧ !s.rak.noted then
    .seq (.act (.rak fun r => { r with noted := true })) (logRec 0x1A 0x0002 2 none (m * 2 ^ 32))
  else .on (blk == 0x30 && s.regionHeld && !s.brg.noted)
    (.seq (.act (.brg fun b => { b with noted := true })) (logRec 0x30 0x0006 2 none (s.regionBase r)))

/-! ### Applying -/

def meterFields : List RegId :=
  [.RAK_METER_TYPE, .RAK_METER_ALG, .RAK_METER_RESET_TO, .RAK_METER_SLOT, .RAK_METER_CIR_KBPS, .RAK_METER_PIR_KBPS, .RAK_METER_CBS, .RAK_METER_PBS]

/-- Meters that a commit changes start again (R310). -/
def applyRak : Prog := .get fun s =>
  let ms := ((s.taken.filter fun e => meterFields.contains e.2.reg && e.2.val != s.fld e.2.reg 0 (keyIdx e.1)).map fun e => keyIdx e.1).eraseDups
  .seq (applyCommit 0x1A) (.each ms fun m => .get fun s => .act (.rak fun r => { r with
    meters := r.meters.put m (if s.flag .RAK_METER_RESET_TO 0 m then ⟨0, 0, s.moment⟩
      else ⟨s.raw .RAK_METER_CBS 0 m * unitsPerByte, s.raw .RAK_METER_PBS 0 m * unitsPerByte, s.moment⟩) }))

/-- A controller whose timing or mode changes leaves the bus until 11 recessive bits have passed (R369). -/
def applyCan (n : Nat) : Prog := .get fun s =>
  let off := s.changes [.CAN_NBT_BRP, .CAN_NBT_TSEG1, .CAN_NBT_TSEG2, .CAN_NBT_SJW, .CAN_DBT_DBRP, .CAN_DBT_DTSEG1, .CAN_DBT_DTSEG2,
    .CAN_DBT_DSJW, .CAN_CFG_FD, .CAN_CFG_LISTEN] n
  .seq (applyCommit (0x40 + n)) (.on (off && s.flag .CAN_CFG_ENABLE n) (setCan n fun c => { c with away := true }))

/-- Ports whose PDOs change tell their partners: a source by new capabilities, a sink by asking for the source's again. -/
def applyCbl : Prog := .get fun s =>
  let sinks := (List.range 6).filter fun p => s.isSink p && (List.range 4).any fun i => s.judged.next .CBL_SNK_PDO_PDO p i != s.fld .CBL_SNK_PDO_PDO p i
  .seq (watchOffers (applyCommit 0x50)) (.each sinks fun p => pd p 7)

/-- The new pair map of a port that is up needs a lane change (R201); combinations 6 to 8 of R504. -/
def commitLnk (p : Nat) : Prog := .get fun s =>
  let m := s.judged.next .LNK_CFG_PAIRMAP p
  let t := s.tunPort p
  let tx := max (total t.shares) (match t.pending with | some r => r.total | none => 0)
  let rx := max t.rxTotal (match t.rxNext with | some r => r.1 | none => 0)
  let rate := s.raw .LNK_STATUS_RATE p
  let changed := m != s.fld .LNK_CFG_PAIRMAP p
  let moves := changed && s.flag .LNK_STATUS_UP p && !s.split p && m != s.raw .LNK_STATUS_PAIRMAP_ACTIVE p
  if changed && (m == 1 || m == 2) && s.split p then rejectCommit (0x10 + p) 3 6
  else if changed && (decide (shareLimit rate (mapTx m).length < tx) || decide (shareLimit rate (mapRx m).length < rx)) then
    rejectCommit (0x10 + p) 3 7
  else if !moves then applyLnk p
  else .on ((s.link p).change.isNone && !s.portBusy p) (
    if s.flag .LNK_STATUS_REV_READY p && oneLane (s.raw .LNK_STATUS_PAIRMAP_ACTIVE p) m then requestMap p m
    else .seq (rejectCommit (0x10 + p) 3 8) (lnkRec p 0x0008 0xFF))

/-- A commit that has passed its agreements. -/
def applyBlk (blk : Nat) : Prog :=
  if 0x10 ≤ blk ∧ blk ≤ 0x15 then commitLnk (blk - 0x10)
  else if blk = 0x1A then applyRak
  else if 0x20 ≤ blk ∧ blk ≤ 0x29 then applyEth (blk - 0x20)
  else if 0x40 ≤ blk ∧ blk ≤ 0x47 then applyCan (blk - 0x40)
  else if blk = 0x50 then applyCbl
  else applyCommit blk

/-! ### The channel table (R83 to R90, R504 numbers 1 to 5) -/

def State.stageCount (s : State) : Nat := s.raw .CHN_STAGE_COUNT_COUNT
def State.stageRec (s : State) (i : Nat) : List Byte := s.mem.reads (s.stageAddr i) 512
def stChan (r : List Byte) : Nat := fieldOf r 320 4 % 2 ^ 17
def stNewAnnex (r : List Byte) : Bool := bit (fieldOf r 324 1) 0

/-- The annex a staged record gives its channel. -/
def State.stAnnex (s : State) (r : List Byte) : List Byte :=
  if stNewAnnex r then (r.drop 64).take 256 else s.mem.reads (s.annexAddr (stChan r)) 256

def State.dataImageHas (s : State) (w : Nat) : Bool :=
  s.images.any fun i => s.raw .GRN_IMG_DIR_PROFILE 0 i == 0 && s.imageHas i w

/-- The checks of R86 on one record, in order; `before` the channels of earlier records. -/
def State.stageChecks (s : State) (r : List Byte) (before : List Nat) : List Bool :=
  let e := r.take 64
  let free := eType e == tyFree
  let annex := s.stAnnex r
  [eGen e == (s.raw .CHN_GEN_ACTIVE_GEN + 1) % 256,
   !entryReserved e && decide (fieldOf r 320 4 < 2 ^ 17) && decide (fieldOf r 324 1 < 2) && (r.drop 325).all (· == 0),
   ! [csHeld, csSealed, csFaulted].contains (eState e) && (!free || eState e == csIdle || eState e == csDraining),
   free || eLevel e == 1 || (eOffset e == 0 && recipeServes e),
   free || eLevel e == 0 || (eRecipe e == 0 && s.dataImageHas (eOffset e)),
   !eSealed e || (eLink e != 7 && !s.keyOrphaned e),
   eType e != tyMulti || (fieldOf annex 0 1 == eParam e 32 1 &&
     (List.range (eParam e 32 1)).all fun i => s.flag .SAL_MCT_VALID 0 (fieldOf annex (1 + i) 1)),
   !before.contains (stChan r),
   !free || eParam e 32 32 == 0]

/-- The first record that fails, and its check: index and check number. -/
def State.stageFault (s : State) : Option (Nat × Nat) :=
  let rs := (List.range s.stageCount).map s.stageRec
  let l := (List.range s.stageCount).map fun i => (i, firstFalse (s.stageChecks (rs.getD i []) ((rs.take i).map stChan)))
  l.find? fun x => x.2 != 0

/-- STATE after a commit (R72). -/
def State.stagedState (s : State) (c : Nat) (e : List Byte) : Nat :=
  let cur := s.chanState c
  let st := eState e
  if st = cur then cur
  else if cur = csHeld ∧ st ≠ csIdle ∧ st ≠ csDraining then csHeld
  else if cur = csSealed ∧ s.keyOrphaned e then csSealed
  else if cur = csFaulted ∧ st = csLive then csArmed
  else if cur = csIdle ∧ st = csDraining then csIdle
  else if st = csIdle ∧ s.flying c ≠ 0 then csDraining
  else st

/-- The entries that a commit stages, by channel, with the STATE they take. -/
def State.stagedEntries (s : State) : List (Nat × List Byte) :=
  (List.range s.stageCount).map fun i =>
    let r := s.stageRec i
    (stChan r, withState (r.take 64) (s.stagedState (stChan r) (r.take 64)))

/-- Every entry after the commit. -/
def State.entriesAfter (s : State) : List (Nat × List Byte) :=
  let st := s.stagedEntries
  ((s.chans.filter fun c => !(st.any fun x => x.1 == c)).map fun c => (c, s.entry c)) ++ st

/-- A LIVE STREAM entry. -/
def liveStream (e : List Byte) : Bool := eType e == tyStream && eState e == csLive
/-- It is the source that a head feeds. -/
def headFed (e : List Byte) (h port : Nat) : Bool :=
  liveStream e && bit (eParam e 32 1) 4 && !bit (eParam e 35 1) 7 && bits (eParam e 35 1) 1 0 == h && bits (eParam e 32 1) 2 0 == port

/-- The lanes and direction of a STREAM entry match its port's multiplexer (R420, R422). -/
def State.streamFits (s : State) (e : List Byte) : Bool :=
  let mux := s.raw .CBL_MUX_STATE (bits (eParam e 32 1) 2 0)
  let source := bit (eParam e 32 1) 4
  (if source then [2, 4, 6] else [3, 5, 7]).contains mux && (if eParam e 33 1 == 4 then mux ≤ 3 else decide (4 ≤ mux))

/-- The combination of R504 that a CHN commit would form, 0 for none; judged over all entries after it (R505). -/
def State.chnCombo (s : State) (after : List (Nat × List Byte)) : Nat :=
  let es := after.map (·.2)
  let holds := (after.filter fun x => eHold x.2 && eType x.2 != tyFree).map (·.1)
  if s.hostLoc && s.judged.next .CHN_CACHE_CFG_PIN_HOLD == 0 && !holds.isEmpty then 1
  else if s.hostLoc && (decide (1024 < holds.length) || (List.range 128).any fun k => decide (12 < (holds.filter (· % 128 == k)).length)) then 2
  else if 4096 < (es.filter cyclic).length then 3
  else if (List.range 4).any fun h =>
      let route := s.fld .DSP_OUT_ROUTE h
      (route != 0 && !es.any fun e => headFed e h (route - 1)) ||
        (List.range 6).any fun p => es.any (fun e => headFed e h p) && route != p + 1 then 4
  else if es.any fun e => liveStream e && !s.streamFits e then 5
  else 0

/-- Step 2 of R89: every record is checked once. -/
def chnCheck : Prog := .get fun s =>
  .on (s.flag .BLK_STATUS_COMMIT_PENDING 0x03 && !s.chn.checked) (match s.stageFault with
    | none => .act (.chn fun h => { h with checked := true })
    | some (i, k) => .all [
        setF .CHN_STAGE_FAULT_INDEX i, setF .CHN_STAGE_FAULT_CHECK k, setF .CHN_STAGE_FAULT_VALID 1,
        rejectCommit 0x03 2 (k + i * 2 ^ 8)])

/-- The other conditions of R84. -/
def State.mayCommit (s : State) : Bool :=
  let busy := (List.range s.stageCount).filter fun i => let c := stChan (s.stageRec i); s.flyingVer c (eGen (s.entry c)) != 0
  decide (busy.length + s.chn.shadows.length ≤ 8192) && (s.stageCount == 0 || !s.superseded.contains ((s.raw .CHN_GEN_ACTIVE_GEN + 1) % 256))

/-- A superseded version with units in flight goes to a shadow slot, with its annex when that is replaced (R76, R88). -/
def keepVersion (r : List Byte) : Prog := .get fun s =>
  let c := stChan r
  let old := s.entry c
  .on (s.flyingVer c (eGen old) != 0) (match (List.range 8192).find? fun k => (s.chn.shadows.get? k).isNone with
    | none => .skip
    | some k => .all [
        store (s.shadowAddr k) (old ++ (if stNewAnnex r then s.mem.reads (s.annexAddr c) 256 else List.replicate 256 0) ++ leBytes 4 c ++
          [if stNewAnnex r then 1 else 0] ++ List.replicate 187 0),
        .act (.chn fun h => { h with shadows := h.shadows.put k (c, eGen old) })])

/-- A staged entry and annex take effect. With the table in host memory the entry enters the cache and goes out by a posted write,
which a link that is down loses (R64, R89, R330). -/
def placeEntry (r : List Byte) (e : List Byte) : Prog := .get fun s =>
  let c := stChan r
  .all [
    keepVersion r,
    .on (stNewAnnex r) (store (s.annexAddr c) ((r.drop 64).take 256)),
    putEntry c e,
    .on s.hostLoc (.seq (cacheIn c) (.on (!s.hostLinkUp)
      (pwErr (s.raw .CHN_HOST_BASE_BASE * 2 ^ 23 + c * 64) (bondPrimary (s.raw .BRG_CFG_BOND) (s.raw .CHN_CFG_HOST_CTRL)) 3 c)))]

/-- What follows the commit point for one channel: a key lost since the check seals it (R90); a tunnel is established (R225). -/
def afterCommit (c : Nat) : Prog := .get fun s =>
  let e := s.entry c
  .seq (.on (eSealed e && (eState e == csLive || eState e == csHeld) && s.keyOrphaned e) (setChan c csSealed)) (channelEntered c)

/-- The commit point and the steps after it (R87 to R89). -/
def chnApply (after : List (Nat × List Byte)) : Prog := .get fun s =>
  let rs := (List.range s.stageCount).map s.stageRec
  let gen := (s.raw .CHN_GEN_ACTIVE_GEN + 1) % 256
  .all [
    .each rs fun r => placeEntry r (((after.find? fun x => x.1 == stChan r).map (·.2)).getD (r.take 64)),
    applyTaken (ofBlk 0x03),
    .on (s.stageCount != 0) (.all [
      setF .CHN_GEN_ACTIVE_GEN gen, setF .CHN_GEN_STAMP_MOMENT s.moment]),
    setF .CHN_STAGE_COUNT_COUNT 0, .act (.chn fun h => { h with checked := false }), commitDone 0x03,
    .each rs fun r => afterCommit (stChan r), .on (!rs.isEmpty) allotAll]

/-- The first moment at which the conditions of R84 hold: the commit is judged and takes effect, or is rejected. -/
def commitPoint : Prog := .seq chnCheck (.get fun s =>
  .on (s.flag .BLK_STATUS_COMMIT_PENDING 0x03 && s.chn.checked && s.mayCommit) (
    let after := s.entriesAfter
    let k := s.chnCombo after
    if k = 0 then chnApply after
    else .seq (.act (.chn fun h => { h with checked := false })) (rejectCommit 0x03 3 k)))

def execCommitPoint (s : State) := s.does (whenAlive commitPoint)

/-! ### COMMIT, ABANDON and the boundary (R53, R56, R85, R306) -/

def sluiceFields : List RegId :=
  [.ETH_SLU_CFG_GATE_EN, .ETH_SLU_CFG_LIST_LEN, .ETH_SLU_CYCLE_CYCLE_NS, .ETH_SLU_EXT_EXT_NS, .ETH_SLU_BASE_BASE, .ETH_SLU_LIST_GATES,
   .ETH_SLU_LIST_INTERVAL_NS]

/-- ConfigChangeTime of a commit written now (R306). -/
def State.changeTime (s : State) (n : Nat) : Nat :=
  let l := s.operList n
  let base := s.next .ETH_SLU_BASE_BASE n
  let cyc := 4 * s.next .ETH_SLU_CYCLE_CYCLE_NS n
  let soon := s.moment + 2 * us
  if s.next .ETH_SLU_CFG_GATE_EN n = 0 then (if l.en ∧ l.cycle ≠ 0 then s.moment + (l.cycle - l.position s.moment) else soon)
  else if soon ≤ base then base
  else base + ceilDiv (soon - base) cyc * cyc

/-- A commit of an Ethernet port that changes its sluice: checked at once, with its time of effect (R306 step 1). -/
def sluiceCommit (n : Nat) : Prog := .get fun s =>
  let k := s.judged.pairFault (0x20 + n)
  .on (s.changes sluiceFields n) (
    if k ≠ 0 then rejectCommit (0x20 + n) 2 k
    else
      let t := s.judged.changeTime n
      .all [setEth n fun e => { e with changeAt := some t }, setF .ETH_SLU_CHANGE_TIME t n, setF .ETH_SLU_STATUS_CHANGE_PENDING 1 n])

/-- COMMIT is written 1. -/
def commitWrite (blk : Nat) : Prog := .get fun s =>
  if s.flag .BLK_STATUS_COMMIT_PENDING blk then refuse blk
  else if blk = 0x48 then dspCommit
  else .all [
    .act (.take (ofBlk blk)), setF .BLK_STATUS_COMMIT_PENDING 1 blk,
    .on (blk == 0x03) (.act (.chn fun h => { h with checked := false })),
    .on (blk == 0x19) (.act (.sal fun p => { p with early := s.unrouted })),
    .on (blk == 0x1A) (.act (.rak fun r => { r with noted := false })),
    .on (blk == 0x30) (.act (.brg fun b => { b with noted := false })),
    .on (decide (0x20 ≤ blk ∧ blk ≤ 0x29)) (sluiceCommit (blk - 0x20))]

/-- ABANDON is written 1: shadows equal the values in force, and a pending commit or sluice change is withdrawn. -/
def abandonWrite (blk : Nat) : Prog :=
  if blk = 0x48 then dspAbandon
  else .all [
    abandonBlock blk,
    .on (blk == 0x03) (.act (.chn fun h => { h with checked := false })),
    .on (decide (0x20 ≤ blk ∧ blk ≤ 0x29)) (.all [
      setEth (blk - 0x20) fun e => { e with changeAt := none }, setF .ETH_SLU_STATUS_CHANGE_PENDING 0 (blk - 0x20)])]

/-- The natural boundary: the pending commit is judged against every commit already applied, then applied or rejected. The heads of
DSP have boundaries of their own (R380). -/
def commitBoundary (blk : Nat) : Prog := .get fun s =>
  .on (s.flag .BLK_STATUS_COMMIT_PENDING blk && blk != 0x48) (
    if blk = 0x03 then chnCheck
    else if 0x20 ≤ blk ∧ blk ≤ 0x29 ∧ (s.ethPort (blk - 0x20)).changeAt.isSome then sluiceChange (blk - 0x20)
    else if !s.atBoundary blk then waitNote blk
    else
      let k := s.judged.pairFault blk
      if k ≠ 0 then rejectCommit blk 2 k else applyBlk blk)

def execCommit (blk : Nat) (s : State) := s.does (onBlk blk (commitWrite blk))
def execAbandon (blk : Nat) (s : State) := s.does (onBlk blk (abandonWrite blk))
def execCommitBoundary (blk : Nat) (s : State) := s.does (onBlk blk (commitBoundary blk))

end Sys2Proof.Machine
end

