-- ==== Sys2Proof/Machine/Images.lean ====
section
/-! DEFINITION. Program images of the pool: registering and unregistering (R127 to R131). -/
namespace Sys2Proof.Machine

/-- An expert entry whose program lies in the image of a directory slot. -/
def State.namesImage (s : State) (i : Nat) (e : List Byte) : Bool := eType e != 0 && eLevel e == 1 && s.imageHas i (eOffset e)

/-- REFS (R129): entries in force, staged entries of a pending commit, shadow slots. -/
def State.imageRefs (s : State) (i : Nat) : Nat :=
  (s.chans.filter fun c => s.namesImage i (s.entry c)).length +
  (if s.raw .BLK_STATUS_COMMIT_PENDING 0x03 = 1 then
    ((List.range (s.raw .CHN_STAGE_COUNT_COUNT)).filter fun k => s.namesImage i (s.mem.reads (s.stageAddr k) 64)).length else 0) +
  (s.chn.shadows.filter fun e => s.namesImage i (s.mem.reads (s.shadowAddr e.1) 64)).length

/-- Bytes left in the pool from a word on. -/
def poolLeft (w : Nat) : Nat := 4 * (poolWords - w)

/-- MAGIC, PROFILE, FORMAT, LENGTH, the entry table and the CRC (R127, R129). -/
def State.headerOk (s : State) (w : Nat) : Bool :=
  let h := s.mem.reads (poolBase + 4 * w) 32
  let len := fieldOf h 12 4
  fieldOf h 0 4 == 0x47524E31 && decide (fieldOf h 4 1 < 3) && fieldOf h 5 1 == 1 && decide (fieldOf h 6 2 ≤ 4096) &&
  fieldOf h 8 4 % 8 == 0 && len % 4 == 0 && decide (32 ≤ len) && decide (len ≤ poolLeft w) &&
  decide (fieldOf h 8 4 + 8 + 16 * fieldOf h 6 2 ≤ len) &&
  (let img := s.mem.reads (poolBase + 4 * w) len
   crc32 (img.take 28 ++ [0, 0, 0, 0] ++ img.drop 32) == fieldOf h 28 4)

/-- The image at a pool word overlaps a registered one. -/
def State.overlaps (s : State) (w n : Nat) : Bool :=
  s.images.any fun i => decide (s.raw .GRN_IMG_DIR_BASE 0 i < w + n) &&
    decide (w < s.raw .GRN_IMG_DIR_BASE 0 i + s.raw .GRN_IMG_DIR_LENGTH 0 i)

/-- The KIND that signs an image of a profile (log entry 49): Data 0, Control 1, Secure 3. -/
def kindOfProfile : Nat → Nat
  | 0 => 0
  | 1 => 1
  | _ => 3

/-- RESULT of REGISTER: 1 when it is applied. -/
def State.registerResult (s : State) (slot : Nat) : Nat :=
  let w := s.raw .GRN_IMG_BASE_WORD
  let a := poolBase + 4 * w
  let profile := s.load (a + 4) 1
  if s.flag .GRN_IMG_DIR_VALID 0 slot then 6
  else if !s.headerOk w then 2
  else if s.overlaps w (s.load (a + 12) 4 / 4) then 3
  else if (s.flag .GRN_CFG_REQUIRE_SIG || profile != 0) &&
    !s.signatureOk (kindOfProfile profile) (s.mem.reads a (s.load (a + 12) 4)) (s.mem.reads (s.load (a + 16) 8) 3472) then 5
  else 1

def imgStatus (slot result : Nat) : Prog := .all [setF .GRN_IMG_STATUS_RESULT result, setF .GRN_IMG_STATUS_SLOT slot]

/-- GRN_IMG_CMD REGISTER: a slot that holds an image keeps it. -/
def imgRegister (slot : Nat) : Prog :=
  .get fun s =>
    let w := s.raw .GRN_IMG_BASE_WORD
    let a := poolBase + 4 * w
    let r := s.registerResult slot
    .all [
      .on (r == 1) (.all [
        setF .GRN_IMG_DIR_BASE w 0 slot, setF .GRN_IMG_DIR_PROFILE (s.load (a + 4) 1) 0 slot,
        setF .GRN_IMG_DIR_LENGTH (s.load (a + 12) 4 / 4) 0 slot, setF .GRN_IMG_DIR_IMAGE_ID (s.load (a + 24) 4) 0 slot,
        setF .GRN_IMG_DIR_VALID 1 0 slot]),
      .on (r == 5) (logRec 0x58 0x0007),
      imgStatus slot r]

def execRegister (slot : Nat) (s : State) := s.does (whenAlive (imgRegister (slot % 64)))

/-- GRN_IMG_CMD UNREGISTER (R129, R130): refused while the image is used; the engines' stores drop its lines. -/
def imgUnregister (slot : Nat) : Prog :=
  .get fun s =>
    if !s.flag .GRN_IMG_DIR_VALID 0 slot then imgStatus slot 7
    else if s.imageRefs slot ≠ 0 then imgStatus slot 4
    else .all [
      .act (.keepRegs fun r _ i => !(i == slot && [RegId.GRN_IMG_DIR_BASE, .GRN_IMG_DIR_VALID, .GRN_IMG_DIR_PROFILE, .GRN_IMG_DIR_LENGTH,
        .GRN_IMG_DIR_IMAGE_ID].contains r)),
      imgStatus slot 1]

def execUnregister (slot : Nat) (s : State) := s.does (whenAlive (imgUnregister (slot % 64)))

end Sys2Proof.Machine
end

