-- ==== Sys2Proof/Machine/Recipes.lean ====
section
/-! DEFINITION. Dispatch of units to threads (R96, R97), and the 24 recipes (R126, R312, R563). A recipe's program runs to completion
in the dispatch itself. -/
namespace Sys2Proof.Machine

/-! ### What a recipe decides -/

/-- What becomes of a unit: dropped with a reason; forwarded on ROUTE with a new header in place of its first `skip` bytes; or
consumed. `also` is what the recipe sends beside it. -/
inductive Fate where
  | drop (code : Nat)
  | forward (head : List Byte) (skip : Nat) (multi : Bool)
  | consume

structure Decision where
  fate : Fate
  /-- at once, whatever the order of the channel: counters and meters -/
  now : Prog
  /-- units and messages released behind the unit, in order -/
  units : List Emitted
  msgs : List Message

def dropAs (code : Nat) : Decision := ⟨.drop code, .skip, [], []⟩
def asIs : Decision := ⟨.forward [] 0 false, .skip, [], []⟩

/-- A T slot of a recipe: the descriptor in force that its binding names. -/
def State.recipeTable (s : State) (r slot : Nat) : Desc := s.descAt (s.raw .GRN_RECIPE_BIND_SLOT 0 (8 * r + slot))

/-- A message that a recipe sends to a block. -/
def recipeMsg (blk : Nat) (f : Flow) (body : List Byte) : Message := ⟨blk, body, some f.chan, 0xFFFF, f.entry⟩

/-! ### MEM -/

/-- A memory request lies in the window of its entry and has the rights it needs. -/
def memAllowed (f : Flow) : Bool :=
  let b := f.bytes
  let lo := bits (eParam f.entry 32 8) 47 0
  let hi := lo + eParam f.entry 40 4
  let rights := eParam f.entry 46 1
  if tlpCompletion b then true
  else if tlpMemory b || tlpAtomic b then
    decide (lo ≤ tlpAddr b) && decide (tlpAddr b + 4 * tlpDws b ≤ hi) &&
      (!(tlpHasData b) || bit rights 1) && (tlpHasData b && tlpMemory b || bit rights 0)
  else false

/-- MEM_COPY. The unit spells a MOVE body of R334 (log entry 58). -/
def memCopy (f : Flow) : Decision :=
  let lo := bits (eParam f.entry 32 8) 47 0
  let hi := lo + eParam f.entry 40 4
  let src := fieldOf f.bytes 8 8
  let dst := fieldOf f.bytes 16 8
  let n := fieldOf f.bytes 24 8
  if f.bytes.length = 32 ∧ n ≠ 0 ∧ lo ≤ src ∧ src + n ≤ hi ∧ lo ≤ dst ∧ dst + n ≤ hi ∧ eParam f.entry 46 1 % 4 = 3 then
    ⟨.consume, .skip, [], [recipeMsg 0x30 f f.bytes]⟩
  else dropAs 0x8007

/-! ### STORAGE -/

/-- STOR_NVME_SQ: the entries, then a doorbell write behind them; its value is not stated (log entry 59). -/
def nvmeSq (f : Flow) (tail : Nat) : Decision :=
  ⟨.forward [] 0 false, .act .draw, [⟨eRoute f.entry, 2, writeTlp (bits (eParam f.entry 40 8) 47 0) (leBytes 4 tail)⟩], []⟩

/-- STOR_NVME_CQ: the entries, then RAISE of VECTOR behind them (R332). -/
def nvmeCq (f : Flow) : Decision :=
  ⟨.forward [] 0 false, .skip, [], [recipeMsg 0x30 f
    (leBytes 8 (1 + eParam f.entry 32 1 % 4 * 2 ^ 16 + eParam f.entry 48 2 % 2048 * 2 ^ 32) ++ leBytes 8 (eRoute f.entry))]⟩

/-- STOR_TLP: TLPs whose requester is RID. -/
def storTlp (f : Flow) : Decision :=
  let rid := if tlpCompletion f.bytes then cplRid f.bytes else tlpRid f.bytes
  if rid = eParam f.entry 34 2 then asIs else dropAs 0x8007

/-! ### NET -/

/-- Key of T0: destination address and VID. -/
def netKey (f : Flow) : Nat := beNat (f.bytes.take 6) + frameVid f.bytes * 2 ^ 48

/-- T0 finds the frame. -/
def State.netHit (s : State) (r : Nat) (f : Flow) : Bool :=
  exactOne (s.recipeTable r 0) && (s.search (s.recipeTable r 0) (netKey f)).isSome

def netL2 (s : State) (f : Flow) : Decision :=
  if (s.recipeTable 8 0).empty then dropAs 0x8001 else if s.netHit 8 f then asIs else dropAs 0x8002

/-- NET_VLAN's edit of the outermost tag: the new header and the bytes it replaces. -/
def vlanEdit (f : Flow) : List Byte × Nat :=
  let v := eParam f.entry 34 2
  let b := f.bytes
  let tci (old : Nat) : List Byte := beBytes 2 (bits v 14 12 * 2 ^ 13 + bits old 12 12 * 2 ^ 12 + bits v 11 0)
  if bit v 15 then
    (if taggedFrame b then (b.take 14 ++ tci (beNat ((b.drop 14).take 2)), 16) else (b.take 12 ++ [0x81, 0x00] ++ tci 0, 12))
  else if taggedFrame b then (b.take 12, 16) else ([], 0)

def netVlan (s : State) (f : Flow) : Decision :=
  if (s.recipeTable 9 0).empty then dropAs 0x8001
  else if s.netHit 9 f then ⟨.forward (vlanEdit f).1 (vlanEdit f).2 false, .skip, [], []⟩ else dropAs 0x8002

/-- The colour a charge would give, as METER does (R151, R311): 3 for an index that is no policer. -/
def State.colourOf (s : State) (m n cin : Nat) : Nat :=
  if s.raw .RAK_METER_TYPE 0 m ≠ 1 then 3
  else
    let b := s.bucket m
    let dt := s.moment - b.last
    (police (s.raw .RAK_METER_ALG 0 m) (accrue b.c (s.raw .RAK_METER_CIR_KBPS 0 m) dt (s.raw .RAK_METER_CBS 0 m))
      (accrue b.p (s.raw .RAK_METER_PIR_KBPS 0 m) dt (s.raw .RAK_METER_PBS 0 m)) (n * unitsPerByte) cin).1

/-- NET_TSN_STREAM (R312): stream filter, policer, then the lookup of recipe 8. -/
def netTsn (s : State) (f : Flow) : Decision :=
  let h := eParam f.entry 36 2
  let t1 := s.recipeTable 10 1
  let w := if t1.kind = 1 ∧ h < t1.entries then s.load (t1.base + h * t1.resWords * 8) 8 else 0
  let longest := bits w 29 16
  let dei := taggedFrame f.bytes && bit (beNat ((f.bytes.drop 14).take 2)) 12
  let cin := if bit w 14 && dei then 1 else 0
  let metered := bit w 15
  let m := bits w 13 0
  let colour := if metered then s.colourOf m f.length cin else 3
  let matched := bump .RAK_STREAM_MATCHED 0 h
  let charged := .seq matched (.on metered (charge m f.length cin fun _ => .skip))
  if (s.recipeTable 10 0).empty || t1.empty then dropAs 0x8001
  else if 4095 < h then dropAs 0x8003
  else if s.flag .RAK_STREAM_BLOCKED 0 h then ⟨.drop 0x8004, matched, [], []⟩
  else if longest ≠ 0 ∧ longest < f.length then
    ⟨.drop 0x8005, .all [matched, bump .RAK_STREAM_OVERSIZE 0 h, .on (s.flag .RAK_STREAM_BLOCK_EN 0 h)
      (.seq (setF .RAK_STREAM_BLOCKED 1 0 h) (logRec 0x1A 0x0001 2 none (h * 2 ^ 32)))], [], []⟩
  else if colour = 2 then ⟨.drop 0x8006, .seq charged (bump .RAK_STREAM_RED 0 h), [], []⟩
  else if !s.netHit 10 f then ⟨.drop 0x8002, charged, [], []⟩
  else if colour = 1 ∧ taggedFrame f.bytes then
    ⟨.forward (f.bytes.take 14 ++ [((f.bytes.drop 14).headD 0) ||| 0x10]) 15 false, charged, [], []⟩
  else ⟨.forward [] 0 false, charged, [], []⟩

/-! ### SIGNAL, PERIPH, CONTROL -/

/-- The input header of R352 in front of the whole frame. -/
def sigInput (f : Flow) (moment : Nat) : Decision :=
  ⟨.forward (leBytes 4 (eParam f.entry 32 4) ++ [0, 0, 0, 0] ++ leBytes 8 moment) 0 false, .skip, [], []⟩

/-- PER_CAN: a frame received passes when its filter is the entry's; one from elsewhere goes to the controller. -/
def perCan (f : Flow) : Decision :=
  if f.group = gControl ∧ bits (fieldOf f.bytes 6 1) 6 0 ≠ bits (eParam f.entry 34 2) 6 0 then dropAs 0x8007 else asIs

/-- PER_GPIO: an edge of a line in GPIO_MASK is forwarded; a signal message from elsewhere sets its line's level (log entry 60). -/
def perGpio (f : Flow) : Decision :=
  let n := fieldOf f.bytes 12 1
  if 48 ≤ n ∨ !bit (eParam f.entry 40 8) n then dropAs 0x8007
  else if f.group = gControl then asIs
  else ⟨.consume, .skip, [], [recipeMsg 0x38 f
    (leBytes 8 2 ++ leBytes 8 (2 ^ n) ++ leBytes 8 (if bit (fieldOf f.bytes 13 1) 0 then 2 ^ n else 0))]⟩

/-- CTL_REMOTE: the request leaves as a CTL parcel, or stays when HUB is this hub. -/
def ctlRemote (s : State) (f : Flow) : Decision :=
  let hub := eParam f.entry 32 1 % 8
  let m := eParam f.entry 33 1 % 32
  ⟨.consume, if hub = s.chainPos then mboxPut m s.chainPos f.cseq f.bytes
    else sendCtl f.cseq 3 hub (ctlBody hub m false s.chainPos f.bytes), [], []⟩

/-- A control request longer than MAX_REQ is refused. -/
def ctlFits (f : Flow) : Bool := decide (f.length ≤ eParam f.entry 34 2)

/-! ### The 24 recipes (R126) -/

/-- What the recipe of a unit's entry decides. -/
def State.recipe (s : State) (f : Flow) : Decision :=
  match eRecipe f.entry with
  | 0 => if memAllowed f then asIs else dropAs 0x8007
  | 1 => memCopy f
  | 3 => if fieldOf f.bytes 6 1 = 1 ∧ !bit (eParam f.entry 34 1) 0 then dropAs 0x8007 else asIs
  | 5 => nvmeSq f (Config.free s.drawn % 2 ^ 32)
  | 6 => nvmeCq f
  | 7 => storTlp f
  | 8 => netL2 s f
  | 9 => netVlan s f
  | 10 => netTsn s f
  | 13 => sigInput f (fieldOf f.bytes 8 8)
  | 14 => sigInput f f.stampMoment
  | 15 => ⟨.consume, pack (eParam f.entry 32 4) f.entry f.chan, [], []⟩
  | 16 => sigInput f f.stampMoment
  | 17 => perCan f
  | 19 => perGpio f
  | 20 => if ctlFits f then asIs else dropAs 0x8007
  | 21 => if ctlFits f then ctlRemote s f else dropAs 0x8007
  | 22 => ⟨.forward [] 0 true, .skip, [], []⟩
  | 23 => ⟨.forward [] 0 true, .skip, [], []⟩
  | _ => asIs

/-- Perform a decision for unit `u`: at once, or through its harvest slot (R100, R115). -/
def decide' (u : Nat) (f : Flow) (d : Decision) : Prog :=
  .seq d.now (match d.fate with
  | .drop code => .all [countDrop f.chan, setLastCode f.chan code, forgetUnit u, emptySlot u]
  | .consume =>
    match f.slot with
    | some n => .all [
        .act (.grn fun g => { g with harvest := g.harvest.upd n fun x => { x with retired := true, emitted := d.units, msgs := d.msgs } }),
        setUnit u fun f => { f with place := .harvested }]
    | none => .all [.each d.units (releaseEmitted f 0xFFFF), .each d.msgs sendMessage, forgetUnit u]
  | .forward head skip multi =>
    .seq (setUnit u fun f => { f with head := head, skip := skip }) (
      match f.slot with
      | some n => .all [
          .act (.grn fun g => { g with harvest := g.harvest.upd n fun x =>
            { x with retired := true, enq := some (eRoute f.entry, false, multi), emitted := d.units, msgs := d.msgs } }),
          setUnit u fun f => { f with place := .harvested }]
      | none => .all [
          performEnq u 0xFFFF (eRoute f.entry, false, multi), .each d.units (releaseEmitted f 0xFFFF), .each d.msgs sendMessage]))

/-! ### The choice of a unit and of an engine (R96) -/

/-- Units at a berth of which none of the same channel is earlier: a channel's units are dispatched in arrival order. -/
def State.firstUnits (s : State) (b : Nat) : List (Nat × Flow) :=
  let here := s.sal.units.filter fun u => u.2.berth == b && (match u.2.place with | .waiting _ => true | _ => false)
  here.filter fun u => (here.filter fun v => v.2.chan == u.2.chan && decide (v.1 < u.1)).isEmpty

/-- A unit that a thread may take: its entry is there, and its harvest slot, or one is free. -/
def State.mayDispatch (s : State) (f : Flow) : Bool :=
  f.place == .waiting false && (!f.wantSlot || decide (s.slotsUsed < 4096))

/-- Priority in dispatch: a unit that has waited longer than AGE_US counts as 15. -/
def State.prioOf (s : State) (f : Flow) : Nat :=
  if f.stampMoment + s.fld .GRN_DISPATCH_AGE_US * us < s.moment then 15 else ePrio (s.entry f.chan)

/-- The unit a berth dispatches next: highest priority first, then earlier ingress stamps. -/
def State.nextDispatch (s : State) (b : Nat) : Option (Nat × Flow) :=
  (sortBy (fun u => (15 - s.prioOf u.2) * 2 ^ 96 + stampKey u.2.stampMoment u.2.stampWord)
    ((s.firstUnits b).filter fun u => s.mayDispatch u.2)).head?

/-- The engine's bit is set in the mask of the device state, and no slice holds it. -/
def State.engineOpen (s : State) (e : Nat) : Bool :=
  bit (s.fld (if s.dev.st = .hold then .GRN_HOLD_MASK_ENGINES else .GRN_ENG_MASK_ENGINES) 0 (e / 32)) (e % 32) && !s.grn.closed.contains e

def State.freeThreads (s : State) (e : Nat) : List Nat :=
  let used := (List.range 16).filter fun t => (s.thread (threadKey e t)).busy
  if s.fld .GRN_DISPATCH_THREADS ≤ used.length then [] else (List.range 16).filter fun t => !used.contains t

/-- The open engine with the most free threads, the lowest on a tie, and its lowest free thread. -/
def State.pickThread (s : State) : Option (Nat × Nat) :=
  let best := ((List.range 96).filter s.engineOpen).foldl (fun b e => match b with
    | none => some (e, (s.freeThreads e).length)
    | some (d, n) => if n < (s.freeThreads e).length then some (e, (s.freeThreads e).length) else some (d, n)) none
  match best with
  | some (e, _) => (s.freeThreads e).head?.map fun t => (e, t)
  | none => none

/-! ### Starting a thread (R97, R101 to R103) -/

/-- Steps of a BUDGET code (R67). -/
def State.budget (s : State) (code : Nat) : Nat := if code = 0 then s.raw .GRN_CFG_DEFAULT_BUDGET else 16 * code + 15

/-- The unit's first 256 bytes and its metadata. -/
def unitSpace (f : Flow) (dispatched : Nat) : Memory :=
  let head := f.bytes.take 256
  let old := min 256 f.length
  Memory.writes [] 0 (head ++ List.replicate (256 - head.length) 0 ++ leBytes 8 f.stampMoment ++ leBytes 4 f.stampWord ++
    leBytes 4 f.chan ++ leBytes 4 f.length ++
    [BitVec.ofNat 8 f.berth, BitVec.ofNat 8 f.gen, BitVec.ofNat 8 f.kind, BitVec.ofNat 8 (f.rxBad.toNat + 2 * f.opened.toNat)] ++
    leBytes 2 old ++ leBytes 2 0 ++ leBytes 2 old ++ [0, 0] ++ leBytes 8 dispatched ++ leBytes 8 f.tag)

/-- The table list of the image in a directory slot (R128). -/
def State.imageDescs (s : State) (i : Nat) : List Desc :=
  let a := poolBase + 4 * s.raw .GRN_IMG_DIR_BASE 0 i
  (List.range 8).map fun k => s.descAt (s.load (a + s.load (a + 8) 4 + k) 1)

/-- The thread as dispatch leaves it. -/
def State.newThread (s : State) (u : Nat) (f : Flow) (old : Thread) : Thread :=
  let w := eOffset f.entry
  let img := s.imageAt w
  let base := match img with | some i => s.raw .GRN_IMG_DIR_BASE 0 i | none => 0
  let len := match img with | some i => s.raw .GRN_IMG_DIR_LENGTH 0 i | none => 0
  let put (m : NMap Word) (r v : Nat) : NMap Word := regPut m r (BitVec.ofNat 64 v)
  { blankThread with
    busy := true
    unit := u
    chan := f.chan
    gen := f.gen
    ver := eGen f.entry
    regs := put (put (put (put (put [] 1 f.chan) 2 f.length) 3 f.gen) 4 (eCtrl f.entry)) 5 f.berth
    pc := 4 * w
    lo := 4 * base
    hi := 4 * (base + len)
    budget := s.budget (eBudget f.entry)
    descs := match img with | some i => s.imageDescs i | none => []
    u := unitSpace f s.moment
    entry := f.entry
    k := if s.fld .GRN_K_CLEAR_MODE = 1 ∧ old.chan = f.chan then old.k else [] }

/-- A recipe that sends a message needs a free credit of its block. -/
def State.recipeReady (s : State) (e : List Byte) : Bool :=
  eLevel e == 1 || match eRecipe e with
  | 1 => s.creditFree 0x30
  | 6 => s.creditFree 0x30
  | 19 => s.creditFree 0x38
  | _ => true

/-- The unit runs on a thread under the generation in force. -/
def dispatchTo (u e t : Nat) : Prog := .get fun s => match s.sal.units.get? u with
  | none => .skip
  | some f0 =>
    let f := { f0 with
      gen := s.raw .CHN_GEN_ACTIVE_GEN
      entry := s.entry f0.chan
      place := .running e t }
    passPoint (ptDispatch e) 0 0 f.mark fun _ => .all [
      countUnit f.chan,
      setUnit u fun x => { x with gen := f.gen, entry := f.entry, place := f.place, passed := (ptDispatch e, s.moment) :: x.passed },
      if eLevel f.entry = 1 then setThread (threadKey e t) (s.newThread u f)
      else .seq (.get fun s => decide' u f (s.recipe f))
        (passPoint (ptRetire e) 0 0 { f.mark with passed := (ptDispatch e, s.moment) :: f.passed } fun _ => .skip)]

/-- A berth hands a unit to a free thread (R96). The unit's channel is judged again (R69): one that is not LIVE drops it, and its
harvest slot completes empty. -/
def unitDispatch (b : Nat) : Prog := .get fun s =>
  .on (s.flowing && s.flag .CHN_CFG_ENABLE && !s.quiet 0x04) (match s.nextDispatch b with
  | none => .skip
  | some (u, f) =>
    if s.chanState f.chan ≠ csLive then .seq (dropUnit u) (emptySlot u)
    else .on (s.recipeReady (s.entry f.chan)) (match s.pickThread with
      | none => .skip
      | some (e, t) => .seq (.on f.wantSlot (slotForUnit u)) (dispatchTo u e t)))

def execUnitDispatch (berth : Nat) (s : State) := s.does (unitDispatch berth)

end Sys2Proof.Machine
end

