-- ==== Sys2Proof/Machine/Bus.lean ====
section
/-! DEFINITION. The register space: the address map of R50, the fields at an address, what a read returns (R7 to R13, R51 to R55). -/
namespace Sys2Proof.Machine

/-! ### The map (R50, R54) -/

/-- Where a register address lies: base of its range, block, block ID, base of the instance. -/
structure Spot where
  base : Nat
  blk : Blk
  id : Nat
  unit : Nat
  deriving DecidableEq, Repr

/-- Ranges that hold registers: base, end, block, stride of its instances (0: one only). The first that contains an address decides. -/
def ranges : List (Nat × Nat × Blk × Nat) :=
  [(0x0000_0000, 0x0010_0000, .sys, 0), (0x0010_0000, 0x0020_0000, .tmb, 0), (0x0020_0000, 0x0040_0000, .chn, 0),
   (0x0040_0000, 0x0060_0000, .grn, 0), (0x0060_0000, 0x0080_0000, .hrv, 0), (0x0080_0000, 0x0086_0000, .lnk, 0x1_0000),
   (0x00A0_0000, 0x00C0_0000, .tun, 0), (0x00C0_0000, 0x00D0_0000, .sal, 0), (0x00D0_0000, 0x00E0_0000, .rak, 0),
   (0x00E0_0000, 0x00EA_0000, .eth, 0x1_0000), (0x0200_0000, 0x0210_0000, .brg, 0), (0x0210_0000, 0x0220_0000, .pci, 0x4_0000),
   (0x0230_0000, 0x0238_0000, .can, 0x1_0000), (0x0220_0000, 0x0240_0000, .sig, 0), (0x0240_0000, 0x0260_0000, .dsp, 0),
   (0x0260_0000, 0x0280_0000, .cbl, 0), (0x0280_0000, 0x02A0_0000, .key, 0), (0x02A0_0000, 0x02B0_0000, .gau, 0),
   (0x02B0_0000, 0x02C0_0000, .btn, 0), (0x02C0_0000, 0x02E0_0000, .slt, 0), (0x02E0_0000, 0x0300_0000, .ddr, 0),
   (0x0300_0000, 0x0400_0000, .loc, 0)]

def spotOf (a : Nat) : Option Spot :=
  (ranges.find? fun r => decide (r.1 ≤ a) && decide (a < r.2.1)).map fun r =>
    let n := if r.2.2.2 = 0 then 0 else (a - r.1) / r.2.2.2
    ⟨r.1, r.2.2.1, r.2.2.1.id n, r.1 + n * r.2.2.2⟩

/-- The fields of each block's register tables. -/
def blkFields : Blk → List RegId
  | .hdr => regsR53
  | .sys => regsR60 ++ regsR61 ++ regsR535
  | .tmb => regsR62 ++ regsR254
  | .chn => regsR91 ++ regsR92
  | .grn => regsR131 ++ regsR132
  | .hrv => regsR133 ++ regsR134
  | .lnk => regsR211 ++ regsR212
  | .tun => regsR252 ++ regsR253
  | .sal => regsR289 ++ regsR290
  | .rak => regsR317
  | .eth => regsR315 ++ regsR316
  | .brg => regsR348
  | .pci => regsR349 ++ regsR350
  | .sig => regsR371 ++ regsR372
  | .can => regsR373 ++ regsR374
  | .dsp => regsR402 ++ regsR403 ++ regsR404
  | .cbl => regsR428 ++ regsR429 ++ regsR430
  | .key => regsR469
  | .gau => regsR499
  | .btn => regsR500
  | .slt => regsR501
  | .ddr => regsR537 ++ regsR538
  | .loc => regsR346 ++ regsR536

/-! ### Fields at an address -/

/-- A field instance: field, instance, index, and its first bit counted from the base its offsets count from. -/
structure Hit where
  reg : RegId
  inst : Nat
  idx : Nat
  pos : Nat
  deriving DecidableEq, Repr

/-- Layers 8 to 11 of a head do not exist (R403). -/
def noRow (r : RegId) (j : Nat) : Bool := r.info.n1 == 13 && r.info.blk == .dsp && decide (8 ≤ j) && decide (j < 12)

/-- Instance of a field that an offset falls in. -/
def FieldInfo.instAt (f : FieldInfo) (lo : Nat) : Nat := if f.instStride = 0 then 0 else (lo - f.off) / f.instStride
def FieldInfo.rowBase (f : FieldInfo) (i j : Nat) : Nat := f.off + i * f.instStride + j * f.s1
def FieldInfo.rowAt (f : FieldInfo) (lo : Nat) : Nat := if f.n1 = 1 then 0 else (lo - f.rowBase (f.instAt lo) 0) / f.s1
/-- Bytes of one row of a register array. -/
def FieldInfo.rowBytes (f : FieldInfo) : Nat := max f.regBits (f.n2 * f.s2) / 8

/-- The instances of a field that overlap bytes [lo, lo + n), n at most 8. -/
def hitsOf (r : RegId) (lo n : Nat) : List Hit :=
  let f := r.info
  let i := f.instAt (lo + n - 1)
  if f.insts ≤ i then [] else
  let j := f.rowAt lo
  (((if f.n1 = 1 then [0] else [j, j + 1, j + 2]).filter fun j => decide (j < f.n1) && !noRow r j).map fun j =>
    let b := 8 * f.rowBase i j
    let c := if f.n2 = 1 then 0 else (8 * lo - b) / f.s2
    (((if f.n2 = 1 then [0] else (List.range (64 / f.s2 + 2)).map (c + ·)).filter fun c => decide (c < f.n2)).map fun c =>
      (⟨r, i, j * f.n2 + c, b + c * f.s2 + f.lsb⟩ : Hit)).filter fun h =>
        decide (h.pos < 8 * (lo + n)) && decide (8 * lo < h.pos + f.width)).flatten

/-- A register of a field's table occupies the byte at an offset (R13). -/
def occupies (r : RegId) (lo : Nat) : Bool :=
  let f := r.info
  let i := f.instAt lo
  let j := f.rowAt lo
  decide (f.off ≤ lo) && decide (i < f.insts) && decide (j < f.n1) && !noRow r j && decide (lo < f.rowBase i j + f.rowBytes)

/-- Offset of an address in its range, and in its instance. -/
def Spot.rel (p : Spot) (a : Nat) : Nat := a - p.base
def Spot.off (p : Spot) (a : Nat) : Nat := a - p.unit

/-- The field instances that an access overlaps: the header's, which every instance begins with (R53), and the block's own. The
header's positions are made to count from the base of the range as well. -/
def Spot.hits (p : Spot) (a n : Nat) : List Hit :=
  if p.off a < 0x100 then
    ((regsR53.map fun r => hitsOf r (p.off a) n).flatten).map fun h => { h with inst := p.id, pos := h.pos + 8 * (p.unit - p.base) }
  else ((blkFields p.blk).map fun r => hitsOf r (p.rel a) n).flatten

/-- The companion word of TMB_ASYM (R254), which holds no field of the table. -/
def Spot.asymFlag (p : Spot) (a : Nat) : Option Nat :=
  if p.blk = .tmb ∧ 0x208 ≤ p.rel a ∧ p.rel a < 0x238 ∧ (p.rel a - 0x208) % 8 = 4 then some ((p.rel a - 0x208) / 8) else none

def Spot.taken (p : Spot) (a : Nat) : Bool :=
  (if p.off a < 0x100 then regsR53.any fun r => occupies r (p.off a) else (blkFields p.blk).any fun r => occupies r (p.rel a)) ||
    (p.asymFlag (a / 4 * 4)).isSome

/-- Some word of the access belongs to a register. -/
def Spot.holds (p : Spot) (a n : Nat) : Bool := p.taken a || p.taken (a + n - 1) || (decide (4 < n) && p.taken (a + 4))

/-- The address lies in a 64-bit register, whose two words go together (R12); wider ones have words of their own (R562). -/
def Spot.pair (p : Spot) (a : Nat) : Bool :=
  decide (0x100 ≤ p.off a) && (blkFields p.blk).any fun r => r.info.regBits == 64 && occupies r (p.rel a)

/-- A member of a bonded link that is not its primary shows no PCI registers of its own (R319). -/
def State.bonded (s : State) (p : Spot) (a : Nat) : Bool :=
  p.blk == .pci && decide (0x100 ≤ p.off a) && (bondMembers (s.raw .BRG_CFG_BOND) (p.id - 0x31)).isEmpty

/-! ### Values that the hub computes when they are read -/

/-- Encoding of a device state in SYS_STATE (R41). -/
def devCode : Dev → Nat
  | .off => 0 | .aon => 1 | .boot => 2 | .run => 3 | .hold => 4 | .safe => 5 | .test => 6

def signedWord (v : Int) : Nat := enc 32 (max (-(2 ^ 31)) (min (2 ^ 31 - 1) v))

/-- Whole bytes of a credit, rounded toward minus infinity (R308, R311). -/
def creditBytes (c : Int) : Nat := signedWord (c / unitsPerByte)

/-- A meter's credits now (R309, R311). -/
def State.tokensC (s : State) (m : Nat) : Int :=
  accrue (s.bucket m).c (s.raw .RAK_METER_CIR_KBPS 0 m) (s.moment - (s.bucket m).last) (s.raw .RAK_METER_CBS 0 m)
def State.tokensP (s : State) (m : Nat) : Int :=
  accrue (s.bucket m).p (s.raw .RAK_METER_PIR_KBPS 0 m) (s.moment - (s.bucket m).last) (s.raw .RAK_METER_PBS 0 m)

/-- Units in flight under superseded generations; the oldest of those generations, going back from GEN. -/
def State.oldUnits (s : State) : Nat := (s.grn.threads.filter fun t => t.2.busy && t.2.gen != s.raw .CHN_GEN_ACTIVE_GEN).length
def State.oldestGen (s : State) : Nat :=
  let g := s.raw .CHN_GEN_ACTIVE_GEN
  s.superseded.foldl (fun o x => if (g + 256 - o) % 256 < (g + 256 - x) % 256 then x else o) g

/-- Units that run under descriptors that have changed since their dispatch (R103). -/
def State.descDrain (s : State) : Nat :=
  (s.grn.threads.filter fun t => t.2.busy && (match s.imageAt (t.2.lo / 4) with | some i => s.imageDescs i != t.2.descs | none => false)).length

def State.uartLevel (s : State) (k : Nat) : Nat := (uartGet s.brg.uartRx (6 + k)).length

/-- SLOT_INFO of a vault slot (R469). -/
def State.slotInfo (s : State) (n : Nat) (f : VaultSlot → Nat) : Nat := match s.slot n with | some v => f v | none => 0

/-- Readable values that no register file holds. -/
def State.live (s : State) (r : RegId) (i j : Nat) : Option Nat :=
  match r with
  | .BLK_ID_BLOCK => some i
  | .SYS_IDENT_GRADE => some (Config.grade % 2)
  | .SYS_STATE_STATE => some (devCode s.dev.st)
  | .SYS_STATE_LIFECYCLE | .KEY_STATUS_LIFECYCLE => some s.key.lifecycle
  | .SYS_PACE_PACE_FLOOR => some s.paceFloor
  | .SYS_HOLD_STATUS_LOST => some (s.lostPorts.foldl (fun n p => n + 2 ^ p) 0)
  | .TMB_MOMENT_MOMENT => some s.moment
  | .TMB_ASYM_ASYM_PS => some (enc 32 (s.asym j).1)
  | .CHN_GEN_ACTIVE_NEXT => some ((s.raw .CHN_GEN_ACTIVE_GEN + 1) % 256)
  | .CHN_DRAIN_OLDEST_GEN => some s.oldestGen
  | .CHN_DRAIN_GENS_ALIVE => some (min 255 s.superseded.length)
  | .CHN_DRAIN_SHADOWS_IN_USE => some s.chn.shadows.length
  | .CHN_DRAIN_UNITS_UNITS => some s.oldUnits
  | .CHN_CACHE_PINNED_PINNED => some (s.chans.filter s.pinned).length
  | .GRN_STATUS_ENGINES_ON => some ((List.range 96).filter s.engineOpen).length
  | .GRN_STATUS_THREADS_BUSY => some (s.grn.threads.filter fun t => t.2.busy).length
  | .GRN_DESC_DRAIN_UNITS => some s.descDrain
  | .GRN_IMG_DIR_REFS => some (s.imageRefs j)
  | .HRV_STATUS_SLOTS_USED => some s.slotsUsed
  | .HRV_STATUS_ORDERED_USED => some s.orderedUsed
  | .LNK_CWC_TX_CWC => some (s.cwcTx i)
  | .LNK_REPLAY_FILL_BYTES => some (s.link i).fill
  | .TUN_EPOCH_EPOCH => some (s.moment / 2 ^ 16)
  | .TUN_SHARE_SHARE => some (shareOf (s.raw .LNK_STATUS_RATE j))
  | .TUN_RESV_TX_LIMIT => some (s.txLimit j)
  | .SAL_STATUS_PAN_FREE => some s.panFree
  | .SAL_STATUS_LAGOON_BUSY => some (s.lagoonUse != 0).toNat
  | .SAL_LAGOON_USE_FLAKES => some s.lagoonUse
  | .SAL_QSTAT_PAN_FLAKES => some (s.panFlakes j)
  | .SAL_QSTAT_LAGOON_FLAKES => some (s.lagoonFlakes j)
  | .ETH_TC_CREDIT => some (creditBytes (s.classCredit i j))
  | .RAK_METER_OLD_REFS => some (s.meterRefs j)
  | .RAK_METER_TOKENS_C => some (creditBytes (s.tokensC j))
  | .RAK_METER_TOKENS_P => some (creditBytes (s.tokensP j))
  | .UART_STATUS_RX_LEVEL => some (s.uartLevel i)
  | .UART_STATUS_TX_FREE => some (256 - (uartGet s.brg.uartTx (6 + i)).length)
  | .BRG_PWERR_STATUS_COUNT => some s.brg.pwerr.length
  | .BRG_PWERR_ENTRY_ADDRESS => s.brg.pwerr.head?.map (·.addr)
  | .BRG_PWERR_ENTRY_SOURCE => s.brg.pwerr.head?.map (·.source)
  | .BRG_PWERR_ENTRY_CAUSE => s.brg.pwerr.head?.map (·.cause)
  | .BRG_PWERR_ENTRY_CHANNEL => s.brg.pwerr.head?.map (·.chan)
  | .BRG_PWERR_ENTRY_MOMENT_LO => s.brg.pwerr.head?.map (·.moment)
  | .BRG_REGION_OLD_REFS => some (s.regionRefs j)
  | .PCI_TAGS_IN_USE => some (s.tagsUsed i).length
  | .SIG_STATUS_CYCLIC => some ((s.chans.map s.entry).filter fun e => cyclic e && eState e == csLive).length
  | .KEY_STATUS_APPROVED => some s.approved.toNat
  | .KEY_STATUS_OWNER_SET => some s.key.owner.isSome.toNat
  | .KEY_STATUS_LEDGER_LEFT => some s.ledgerLeft
  | .KEY_CALL_STATUS_PENDING => some s.key.calls.length
  | .KEY_ANCHOR_VERSION => some s.key.anchor
  | .KEY_VAULT_USE_SLOTS => some s.key.slots.length
  | .KEY_DEVICE_ID_ID => some (leNat (deviceHash.take 8))
  | .KEY_SVN_FLOOR_SVN => some (s.key.floors.getD j 0)
  | .KEY_SLOT_INFO_NODE => some (s.slotInfo j fun v => v.node)
  | .KEY_SLOT_INFO_DEPTH => some (s.slotInfo j fun v => v.depth)
  | .KEY_SLOT_INFO_FULL => some (s.slotInfo j fun _ => 1)
  | .KEY_SLOT_INFO_POOL => some (if 128 ≤ j then 1 else 0)
  | .KEY_SLOT_INFO_DOOMED => some (s.slotInfo j fun v => v.doomed.toNat)
  | .KEY_SLOT_INFO_EPOCH => some (s.slotInfo j fun v => v.epoch)
  | .KEY_SLOT_INFO_KCV => some (s.slotInfo j fun v => v.kcv)
  | .BTN_STATUS_STAGED => some s.btn.staged.length
  | .BTN_POP_WORD => s.btn.staged.head?.map fun x => leNat (((recBytes x).drop (4 * j)).take 4)
  | _ => none

/-- Measured quantities and counts of corrected or soft errors: nothing the hub is commanded to do fixes them, so each read draws a
free value (log entry 61). -/
def RegId.measured (r : RegId) : Bool :=
  match r with
  | .DDR_BW_GBPS | .DDR_ECC_CORRECTED | .DDR_ECC_UNCORRECTED | .LNK_PRBS_ERR_ERRORS | .LNK_FEC_CORR_SYMBOLS | .LNK_GATED_WINDOWS
  | .GRN_ECC_COUNT_CORRECTED | .CBL_VBUS_MV | .CBL_VBUS_MA => true
  | _ => false

/-- What a field reads as, by its access code (R7, R8). -/
def State.reads (s : State) (r : RegId) (i j : Nat) : Nat :=
  match r.info.acc with
  | .wo => 0
  | .rws => s.shadow r i j
  | .rwers => if s.level (r.owner i) = 0 then s.fld r i j else s.shadow r i j
  | _ => (s.live r i j).getD (s.fld r i j)

/-- The part of a value that lies in a window of `n` bytes at offset `lo`, as bits of the window. -/
def inWindow (pos lo n v : Nat) : Nat := (if 8 * lo ≤ pos then v * 2 ^ (pos - 8 * lo) else v / 2 ^ (8 * lo - pos)) % 2 ^ (8 * n)

/-- The bits of the window that belong to a field: its new value, from the value it holds. -/
def fromWindow (pos w lo n v old : Nat) : Nat :=
  let from_ := max pos (8 * lo)
  let to_ := min (pos + w) (8 * (lo + n))
  putBits old (from_ - pos) (to_ - from_) (v / 2 ^ (from_ - 8 * lo))

/-- Read the fields that an access overlaps and go on with the bits of its window. -/
def readHits (lo n : Nat) : List Hit → (Nat → Prog) → Prog
  | [], k => k 0
  | h :: t, k =>
    let rest (v : Nat) : Prog := readHits lo n t fun w => k (inWindow h.pos lo n (v % 2 ^ h.reg.info.width) + w)
    if h.reg.measured then withFree (2 ^ h.reg.info.width) rest else .get fun s => rest (s.reads h.reg h.inst h.idx)

/-! ### Windows that are no fields -/

/-- Offset in the test-engine window of SLT (R493). -/
def Spot.testEngine (p : Spot) (a : Nat) : Bool := p.blk == .slt && decide (0x1_0000 ≤ p.rel a) && decide (p.rel a < 0x2_0000)

/-- Offset in the MSI-X table and pending bit array of a link (R321): PRESUMED (log entry 50), 16-byte entries of address, data and
vector control. -/
def Spot.msix (p : Spot) (a : Nat) : Bool := p.blk == .pci && decide (0x1_0000 ≤ p.off a) && decide (p.off a < 0x1_8100)

/-- One 32-bit word of the MSI-X table or of the pending bits. -/
def State.msixWord (s : State) (ctrl off : Nat) : Nat :=
  if off < 0x8000 then
    let e := s.vectorEntry ctrl (off / 16)
    match off / 4 % 4 with
    | 0 => e.1 % 2 ^ 32
    | 1 => e.1 / 2 ^ 32
    | 2 => e.2.1
    | _ => e.2.2
  else (List.range 32).foldl (fun n i => if (s.brg.msixPend.get? (2048 * ctrl + 8 * (off - 0x8000) + i)).isSome then n + 2 ^ i else n) 0

def msixPut (ctrl off v : Nat) : Prog :=
  .get fun s =>
    let n := off / 16
    let e := s.vectorEntry ctrl n
    let f := match off / 4 % 4 with
      | 0 => (putBits e.1 0 32 v, e.2)
      | 1 => (putBits e.1 32 32 v, e.2)
      | 2 => (e.1, v, e.2.2)
      | _ => (e.1, e.2.1, v % 2)
    .on (decide (off < 0x8000)) (.seq (.act (.brg fun b => { b with msix := b.msix.put (2048 * ctrl + n) f })) (unmaskVector ctrl n))

/-! ### Reads -/

/-- Records of R480 that a register access gives: 0xF002 narrow write, 0xF003 unmapped. -/
def busRec (id code off : Nat) : Prog := logRec id code 2 none off

/-- An interrupt is cleared in the block that raised it: by an access to the block's registers (DESIGN CHOICE, log entry 62). -/
def ackIrq (p : Spot) : Prog := .get fun s => .on (s.grn.ipend.testBit p.id) (clearIrq p.id)

/-- What a read of particular words does besides (R348, R500). -/
def readEffects (p : Spot) (a n : Nat) : Prog :=
  let covers (off : Nat) : Bool := decide (p.rel a ≤ off) && decide (off < p.rel a + n)
  .all [.on (p.blk == .brg && covers 0x11C) pwErrPop, .on (p.blk == .btn && covers 0x41C) btnPop]

/-- The bits of an access that lie in one range, without the effects of a read. -/
def peek (p : Spot) (a n : Nat) (k : Nat → Prog) : Prog :=
  .get fun s =>
    if p.testEngine a then
      (if s.key.lifecycle = lcManufacture ∨ s.key.lifecycle = lcReturned then withFree (2 ^ (8 * n)) k else .seq teClosed (k 0))
    else if s.bonded p a then k 0
    else if p.msix a then
      k ((s.msixWord (p.id - 0x31) (p.off (a / 4 * 4) - 0x1_0000) +
        s.msixWord (p.id - 0x31) (p.off (a / 4 * 4) + 4 - 0x1_0000) * 2 ^ 32) / 2 ^ (8 * (a % 4)) % 2 ^ (8 * n))
    else if !p.holds a n then .seq (busRec p.id 0xF003 a) (k 0)
    else readHits (p.rel a) n (p.hits a n) fun v => .get fun s =>
      k (match p.asymFlag (a / 4 * 4) with
        | some i => if n = 4 then (s.asym i).2.toNat * 2 ^ 31 else v
        | none => match p.asymFlag (a + 4) with
          | some i => if n = 8 then v + (s.asym i).2.toNat * 2 ^ 63 else v
          | none => v)

/-- The access is a 32-bit or 64-bit one at a naturally aligned address (R11). -/
def aligned (a n : Nat) : Bool := (n == 4 || n == 8) && a % n == 0

/-- A read of a range of registers, with the snapshot of R12. -/
def spotRead (p : Spot) (a n : Nat) (k : Nat → Prog) : Prog :=
  .get fun s =>
    if !aligned a n then .seq (ackIrq p) (peek p a n k)
    else if n = 4 ∧ p.pair a then
      (if a % 8 = 0 then peek p a 8 fun v =>
        .all [.act (.bus fun b => { b with snap := b.snap.put a (v / 2 ^ 32) }), readEffects p a n, ackIrq p, k (v % 2 ^ 32)]
      else match s.bus.snap.get? (a - 4) with
        | some v => .all [.act (.bus fun b => { b with snap := b.snap.del (a - 4) }), ackIrq p, k v]
        | none => peek p a n fun v => .all [readEffects p a n, ackIrq p, k v])
    else peek p a n fun v => .all [readEffects p a n, ackIrq p, k v]

/-- Registers that a master reaches: of the KEY range all but the security core see one page (R52, log entry 63). -/
def hidden (m : Master) (p : Spot) (a : Nat) : Bool := p.blk == .key && decide (0x1000 ≤ p.rel a) && m != .secure

/-- A read of the register space by a master (R13, R51). -/
def regRead (m : Master) (a n : Nat) (k : Nat → Prog) : Prog :=
  match spotOf a with
  | none => .seq (busRec 0x01 0xF003 a) (k 0)
  | some p => if hidden m p a then .seq (busRec p.id 0xF003 a) (k 0) else spotRead p a n k

end Sys2Proof.Machine
end

