-- ==== Sys2Proof/Machine/BusWrite.lean ====
section
/-! DEFINITION. Register writes: what a write changes, refuses and records, and the commands that registers take (R7 to R13, R34, R53,
R58, and the agreeing sets of each block's chapter). -/
namespace Sys2Proof.Machine

/-! ### Which writes are refused -/

/-- New values of the stored fields that one write carries. -/
abbrev Proposal := List (Hit × Nat)

/-- The value a field would have after the write. -/
def State.proposed (s : State) (l : Proposal) (r : RegId) (inst : Nat := 0) (idx : Nat := 0) : Nat :=
  match l.find? fun x => x.1.reg == r && x.1.inst == inst && x.1.idx == idx with
  | some x => x.2
  | none => s.raw r inst idx

/-- A range lies within fitted DRAM and outside the channel area. -/
def State.placed (s : State) (a n : Nat) : Bool :=
  n == 0 || (s.inDram a n && (decide (a + n ≤ s.area) || decide (s.area + 2 ^ 26 ≤ a)))

/-- Members of every bonded link have equal roles. -/
def rolesAgree (bond : Nat) (role : Nat → Nat) : Bool := (List.range 4).all fun n => role n == role (bondPrimary bond n)

def State.headsOff (s : State) (l : List Nat) : Bool := l.all fun h => !s.flag .DSP_HCTRL_ENABLE h

/-- The hub refuses to change the field so: it keeps the field and sets BUSY_REFUSED (R53, R58, R343, R402 and the rest). -/
def State.refusesWrite (s : State) (l : Proposal) (h : Hit) (v : Nat) : Bool :=
  let i := h.inst
  let get (r : RegId) : Nat := s.proposed l r i h.idx
  match h.reg with
  | .CHN_CFG_LOC | .CHN_CFG_HOST_CTRL | .CHN_AREA_BASE_BASE | .CHN_HOST_BASE_BASE => s.flag .CHN_CFG_ENABLE
  | .CHN_STAGE_COUNT_COUNT => s.flag .BLK_STATUS_COMMIT_PENDING 0x03
  | .LNK_RAW_MODE => !s.flag .BLK_STATUS_QUIESCED (0x10 + i) || (v == 1 && s.flag .LNK_CFG_ENABLE i)
  | .LNK_CFG_ENABLE => v == 1 && s.flag .LNK_RAW_MODE i
  | .SAL_LAGOON_BASE_BASE | .SAL_LAGOON_SIZE_MIB => s.flag .SAL_CFG_LAGOON_EN || s.lagoonUse != 0
  | .SAL_CFG_LAGOON_EN => v == 1 && (s.raw .SAL_LAGOON_SIZE_MIB == 0 ||
      !s.placed (s.raw .SAL_LAGOON_BASE_BASE * 2 ^ 20) (s.raw .SAL_LAGOON_SIZE_MIB * 2 ^ 20))
  | .ETH_CFG_MODE | .ETH_CFG_FEC => !s.flag .BLK_STATUS_QUIESCED (0x20 + i) || (get .ETH_CFG_FEC == 1 && get .ETH_CFG_MODE != 3)
  | .BRG_CFG_BOND => !s.flag .BLK_STATUS_QUIESCED 0x30 || !rolesAgree v fun n => s.raw .PCI_CFG_ROLE n
  | .PCI_CFG_ROLE => !s.flag .BLK_STATUS_QUIESCED (0x31 + i) ||
      !rolesAgree (s.raw .BRG_CFG_BOND) fun n => if n = i then v else s.raw .PCI_CFG_ROLE n
  | .PCI_BAR4_LOG2_SIZE => s.flag .PCI_CFG_ENABLE i
  | .SIG_MAP_BASE_BASE | .SIG_MAP_CFG_COUNT | .SIG_STORE_BASE_BASE | .SIG_STORE_CFG_SLOTS => s.flag .SIG_CFG_ENABLE
  | .SIG_CFG_ENABLE => v == 1 && !(s.placed (s.raw .SIG_MAP_BASE_BASE * 32) (s.raw .SIG_MAP_CFG_COUNT * 32) &&
      s.placed (s.raw .SIG_STORE_BASE_BASE * 32) (s.raw .SIG_STORE_CFG_SLOTS * 32))
  | .MOV_RING_BASE_BASE | .MOV_RING_CFG_LOG2 => s.raw .MOV_STATE_STATE 0 h.idx != 0
  | .DSP_CFG_LOCK01 => !s.headsOff [0, 1]
  | .DSP_CFG_LOCK23 => !s.headsOff [2, 3]
  | .DSP_FS_BASE_BASE | .DSP_FS_SIZE_MIB => !s.headsOff [0, 1, 2, 3] ||
      !s.placed (get .DSP_FS_BASE_BASE * 2 ^ 20) (get .DSP_FS_SIZE_MIB * 2 ^ 20)
  | .BTN_RING_BASE_BASE | .BTN_RING_CFG_LOG2_SIZE => s.flag .BTN_RING_CFG_ENABLE
  | .BTN_RING_CFG_ENABLE => v == 1 && !s.placed (s.raw .BTN_RING_BASE_BASE * 2 ^ 16) (2 ^ get .BTN_RING_CFG_LOG2_SIZE)
  | .TRC_RING_BASE_BASE | .TRC_CFG_LOG2_SIZE => s.flag .TRC_CFG_ENABLE
  | .TRC_CFG_ENABLE => v == 1 && !s.placed (s.raw .TRC_RING_BASE_BASE * 2 ^ 20) (2 ^ get .TRC_CFG_LOG2_SIZE)
  | _ => false

/-- What becomes of a field of a write. -/
inductive Verdict' where
  | ignored
  | reserved
  | refused
  | locked
  | stored
  deriving DecidableEq, Repr

/-- Fields that take a command and store nothing of their own here: SYS_POWER is written as one word (R34). -/
def RegId.command (r : RegId) : Bool := r.info.acc == .wo || r == .SYS_POWER_SETPOINT || r == .SYS_POWER_HOLD_SETPOINT

/-- The value a write replaces: of a shadowed field, its shadow (R8). -/
def State.held (s : State) (h : Hit) : Nat :=
  if h.reg.isShadowed then s.shadow h.reg h.inst h.idx else s.raw h.reg h.inst h.idx

/-- The field belongs to a port whose lane taps, or a lane whose direction, the write may not reach (R205, R212). -/
def State.fixedLane (s : State) (h : Hit) : Bool :=
  match h.reg with
  | .LNK_TXEQ_CM2 | .LNK_TXEQ_CM1 | .LNK_TXEQ_CP1 => !s.flag .LNK_RAW_MODE h.inst
  | .LNK_RAW_LANE_DIR => h.idx % 2 == 0
  | _ => false

/-- A ring's TAIL: writing it, even as it stands, says that everything up to it has been read. -/
def RegId.ringTail (r : RegId) : Bool := r == .BTN_TAIL_TAIL || r == .TRC_TAIL_TAIL || r == .TUN_REPORT_TAIL_TAIL

/-- A write that changes nothing is no write (log entry 64); a reserved encoding is recorded (R10); an expert field takes no write in
basic level (R7, R8). -/
def State.verdict (s : State) (m : Master) (l : Proposal) (h : Hit) (v : Nat) : Verdict' :=
  let r := h.reg
  if r.command || r.info.acc == .ro || r.info.acc == .w1c || r.info.acc == .w1s then .ignored
  else if v = s.held h && !r.ringTail then .ignored
  else if r.isExpert && s.level (r.owner h.inst) == 0 then .ignored
  else if !r.legal v then .reserved
  else if r.info.acc == .rl && s.flag .KEY_STATUS_CEILINGS_LOCKED && m != .secure then .locked
  else if s.fixedLane h then .ignored
  else if s.refusesWrite l h v then .refused
  else .stored

/-! ### What storing a field does -/

/-- The position in the chain after a write of CHAIN_ROOT (R247). -/
def chainPosition (root : Bool) : Prog :=
  .get fun s =>
    let peer := (List.range 6).findSome? fun p =>
      if bit (s.raw .SYS_HOLD_CFG_UPSTREAM) p ∧ !(s.tunPort p).closed then ((s.tunPort p).hello.map fun h => h.pos) else none
    setF .SYS_STATE_CHAIN_POS (if root then 0 else match peer with | some n => min 4 (n + 1) | none => 0)

/-- Drive or release the GPIO lines that a write of DIR or OUT has changed; in SAFE the lines of SAFE_EN stand (R363, R43). -/
def driveGpio : Prog :=
  .get fun s =>
    let dir := s.raw .GPIO_DIR_OUT
    let free := if s.dev.st = .safe then dir - (dir &&& s.raw .GPIO_SAFE_EN_EN) else dir
    emitOut .gpio [free, s.raw .GPIO_OUT_LEVEL &&& free]

/-- Raw lane mode begins (R205): every lane runs as LNK_RAW_LANE sets it; checkers start again. -/
def enterRaw (p : Nat) : Prog := .all [
  setLanes p [0, 1, 2, 3] lnRaw, enterPhase p .raw, .each (List.range 4) fun k => setF .LNK_PRBS_ERR_LOCKED 0 p k]

/-- Fields whose change does more than the change itself; they follow the plain ones of the same write. -/
def RegId.active (r : RegId) : Bool :=
  match r with
  | .BLK_CTRL_LEVEL | .BLK_CTRL_QUIESCE | .SYS_HOLD_CFG_GRACE | .SYS_HOLD_CFG_UPSTREAM | .SYS_HOLD_CFG_ENABLE | .CHN_CFG_ENABLE
  | .LNK_CFG_ENABLE | .LNK_RAW_MODE | .TUN_CFG_CHAIN_ROOT | .ETH_CFG_ENABLE | .ETH_PTP_ENABLE | .PCI_CFG_ENABLE | .CAN_CFG_ENABLE
  | .CBL_CEILING_SRC_MV | .CBL_CEILING_SRC_MA | .CBL_CEILING_SNK_MV | .CBL_CEILING_SNK_MA | .CBL_MUX_STATE
  | .GPIO_DIR_OUT | .GPIO_OUT_LEVEL | .DDR_CFG_RATE | .BTN_TAIL_TAIL | .TRC_TAIL_TAIL | .TUN_REPORT_TAIL_TAIL => true
  | _ => false

def putPlain (h : Hit) (v : Nat) : Prog :=
  if h.reg.isShadowed then .act (.shadow h.reg h.inst h.idx v) else setF h.reg v h.inst h.idx

/-- An unshadowed field takes effect at once (R7). -/
def putActive (h : Hit) (v : Nat) : Prog :=
  let i := h.inst
  let put : Prog := setF h.reg v i h.idx
  match h.reg with
  | .BLK_CTRL_LEVEL => .get fun s => .seq (.act (.shadow h.reg i h.idx v)) (.on (s.flag .BLK_STATUS_QUIESCED i) (setLevel i v))
  | .BLK_CTRL_QUIESCE => if v = 1 then quiesce i else release i
  | .SYS_HOLD_CFG_GRACE => .seq (setF h.reg (max 1 v)) trackHold
  | .SYS_HOLD_CFG_UPSTREAM | .SYS_HOLD_CFG_ENABLE => .seq put trackHold
  | .CHN_CFG_ENABLE => if v = 1 then enableTable [] else put
  | .LNK_CFG_ENABLE => .seq put (if v = 1 then startTraining i else linkDown i)
  | .LNK_RAW_MODE => .seq put (if v = 1 then enterRaw i else startTraining i)
  | .TUN_CFG_CHAIN_ROOT => .seq put (chainPosition (v == 1))
  | .ETH_CFG_ENABLE => .seq put (.on (v == 0) (ethLinkDown i))
  | .ETH_PTP_ENABLE => .seq put (.on (v == 0) (forgetMaster (ethKey i)))
  | .PCI_CFG_ENABLE => .seq put (.on (v == 0) (pciLinkDown i))
  | .CAN_CFG_ENABLE => .seq put (if v = 1 then setCan i fun c => { c with away := true } else setF .CAN_STATUS_STATE 3 i)
  | .CBL_CEILING_SRC_MV | .CBL_CEILING_SRC_MA | .CBL_CEILING_SNK_MV | .CBL_CEILING_SNK_MA => watchOffers put
  | .CBL_MUX_STATE => muxWrite i v
  | .GPIO_DIR_OUT | .GPIO_OUT_LEVEL => .seq put driveGpio
  | .BTN_TAIL_TAIL => .seq put (freeRing 0)
  | .TRC_TAIL_TAIL => .seq put (freeRing 1)
  | .TUN_REPORT_TAIL_TAIL => .seq put (freeRing 2)
  | .DDR_CFG_RATE => .seq put (.act (.boot fun b => { b with rateWritten := true }))
  | _ => put

/-- A W1C or W1S field whose bit is written 1. -/
def putOnes (h : Hit) : Prog :=
  match h.reg.info.acc with
  | .w1c => setF h.reg 0 h.inst h.idx
  | .w1s => flushWrite h.idx
  | _ => .skip

/-! ### Commands that registers take -/

/-- The ops of CBL_CMD (R423, R424, R421, R425); the answers of the peer to a mode command are free (log entry 2). -/
def cblCmd (p op pin : Nat) (src split : Bool) : Prog :=
  match op with
  | 1 | 2 | 3 => startSwap p op
  | 4 => withFree 2 fun a => .get fun s => enterAvrathCmd p split src (s.peerVdo p) (a == 1)
  | 5 => withFree 2 fun a => enterDpCmd p pin src (a == 1)
  | 6 => exitModeCmd p
  | 7 => hardResetCmd p
  | 8 => recaps p
  | _ => .skip

/-- The command that a write of its leading field carries; `v` gives the fields of the same register as written. -/
def leader (m : Master) (h : Hit) (word : Nat) (v : RegId → Nat) : Prog :=
  let i := h.inst
  match h.reg with
  | .BLK_COMMIT_COMMIT => if v .BLK_COMMIT_ABANDON = 1 then abandonWrite i else .on (v .BLK_COMMIT_COMMIT == 1) (commitWrite i)
  | .SYS_PACE_MIN_CLEAR => paceMinClear (v .SYS_PACE_MIN_CLEAR)
  | .SYS_POWER_SETPOINT => powerWrite word
  | .SYS_RESET_KEY => resetWrite (v .SYS_RESET_WARM == 1) (v .SYS_RESET_COLD == 1) (v .SYS_RESET_KEY)
  | .SYS_BLK_RESET_KEY => blkReset (v .SYS_BLK_RESET_BLOCK) (v .SYS_BLK_RESET_KEY)
  | .SYS_STANDBY_KEY => standbyWrite (v .SYS_STANDBY_ENTER == 1) (v .SYS_STANDBY_KEY)
  | .CHN_CMD_OP => chnCmd (v .CHN_CMD_OP) (v .CHN_CMD_CHANNEL)
  | .GRN_IMG_CMD_OP => if v .GRN_IMG_CMD_OP = 1 then imgRegister (v .GRN_IMG_CMD_SLOT) else imgUnregister (v .GRN_IMG_CMD_SLOT)
  | .LNK_EYE_CTRL_START => .on (v .LNK_EYE_CTRL_START == 1) (eyeStart i)
  | .LNK_SLIP_LANE => slip i (v .LNK_SLIP_LANE)
  | .TUN_CMD_OP =>
    if v .TUN_CMD_OP = 1 then tunConfirm (v .TUN_CMD_PORT) (v .TUN_CMD_END == 1) (v .TUN_CMD_ALL == 1) (v .TUN_CMD_GEN_SEEN)
    else localEnd (v .TUN_CMD_ALL == 1)
  | .SAL_BERTH_CMD_OP => berthCommand (v .SAL_BERTH_CMD_BERTH) (v .SAL_BERTH_CMD_OP)
  | .MOV_CMD_RESTART => .on (v .MOV_CMD_RESTART == 1) (movRestart h.idx)
  | .CAN_CMD_RESTART => .on (v .CAN_CMD_RESTART == 1) (canRestart i)
  | .DSP_HCTRL_COMMIT => if v .DSP_HCTRL_ABANDON = 1 then headAbandon i else .on (v .DSP_HCTRL_COMMIT == 1) (headCommit i)
  | .CBL_IMG_CMD_OP => imgRevert
  | .CBL_CMD_OP => cblCmd i (v .CBL_CMD_OP) (v .CBL_CMD_PIN) (v .CBL_CMD_DP_SRC == 1) (v .CBL_CMD_SPLIT == 1)
  | .KEY_CALL_ADDRESS => keyCall m (v .KEY_CALL_ADDRESS * 64)
  | .GAU_CMD_OP => gauCmd (v .GAU_CMD_GAUGE) (v .GAU_CMD_OP) (v .GAU_CMD_ALL == 1)
  | .XSPI_CMD_OP => xspiCmd m (v .XSPI_CMD_OP) (v .XSPI_CMD_LENGTH)
  | _ => .skip

/-! ### A write -/

/-- The field's value in a write of `n` bytes at offset `lo`. -/
def written (lo n w : Nat) (h : Hit) (old : Nat) : Nat := fromWindow h.pos h.reg.info.width lo n w old

/-- A write of whole words: every field it overlaps is judged against the state before it; plain fields change first, then those
whose change does more, then ones written to W1C and W1S fields, then the register's command. A record tells of reserved encodings,
one of locked fields; a refusal sets BUSY_REFUSED. -/
def spotWrite (m : Master) (p : Spot) (a n w : Nat) : Prog :=
  .get fun s =>
    let lo := p.rel a
    let hits := p.hits a n
    let l : Proposal := hits.map fun h => (h, written lo n w h (s.held h))
    let judged := l.map fun x => (x.1, x.2, s.verdict m l x.1 x.2)
    let stored := judged.filter fun x => x.2.2 == .stored
    let bad := (judged.any fun x => x.2.2 == .reserved) || hits.any fun h => h.reg.info.acc == .wo && !h.reg.legal (written lo n w h 0)
    let value (h : Hit) (r : RegId) : Nat :=
      match hits.find? fun x => x.reg == r && x.inst == h.inst && x.idx == h.idx with
      | some x => written lo n w x 0
      | none => 0
    .all [
      .each (stored.filter fun x => !x.1.reg.active) fun x => putPlain x.1 x.2.1,
      .each (stored.filter fun x => x.1.reg.active) fun x => putActive x.1 x.2.1,
      .each (hits.filter fun h => (h.reg.info.acc == .w1c || h.reg.info.acc == .w1s) && written lo n w h 0 != 0) putOnes,
      .on bad (busRec p.id 0xF001 (p.off a)),
      .on (judged.any fun x => x.2.2 == .locked) (busRec p.id 0xF005 (p.off a)),
      .on (judged.any fun x => x.2.2 == .refused) (refuse p.id),
      .each (hits.filter fun h => h.reg.command && h.reg.legal (written lo n w h 0)) fun h =>
        leader m h ((w / 2 ^ (h.pos - h.reg.info.lsb - 8 * lo)) % 2 ^ 32) (value h)]

/-- The writes of one range: the window that is no field, a 64-bit register by halves (R12), or whole words. -/
def rangeWrite (m : Master) (p : Spot) (a n w : Nat) : Prog :=
  .get fun s =>
    if p.testEngine a then
      (if s.key.lifecycle = lcManufacture ∨ s.key.lifecycle = lcReturned then emitOut .tap [p.rel a, w] else teClosed)
    else if !aligned a n then busRec p.id 0xF002 (p.off a)
    else if s.bonded p a then .skip
    else if p.msix a then .all [
      msixPut (p.id - 0x31) (p.off a - 0x1_0000) (w % 2 ^ 32),
      .on (n == 8) (msixPut (p.id - 0x31) (p.off a + 4 - 0x1_0000) (w / 2 ^ 32))]
    else if !p.holds a n then busRec p.id 0xF003 a
    else if n = 4 ∧ p.pair a then
      (if a % 8 = 0 then .act (.bus fun b => { b with low := b.low.put a w })
      else match s.bus.low.get? (a - 4) with
        | some v => .seq (.act (.bus fun b => { b with low := b.low.del (a - 4) })) (spotWrite m p (a - 4) 8 (v + w * 2 ^ 32))
        | none => spotWrite m p a 4 w)
    else .seq (.act (.bus fun b => { b with low := b.low.del a })) (spotWrite m p a n w)

/-- A write of the register space by a master (R13, R51). -/
def regWrite (m : Master) (a n w : Nat) : Prog :=
  match spotOf a with
  | none => busRec 0x01 (if aligned a n then 0xF003 else 0xF002) a
  | some p => if hidden m p a then busRec p.id 0xF003 a else .seq (rangeWrite m p a n w) (ackIrq p)

/-! ### Commands -/

/-- A write in the register space by a bus master other than a mover (R7, R52). A master reaches it while the main rails are on. -/
def execRegisterWrite (m : Master) (addr size value : Nat) (s : State) :=
  s.does (whenAlive (.on ([1, 2, 4, 8].contains size) (regWrite m addr size (value % 2 ^ (8 * size)))))

/-- The address is in the register space and no register occupies its word (R13, R51). -/
def unoccupied (a : Nat) : Bool := match spotOf a with | none => true | some p => !p.holds a 4

/-- An access by a control core to an address that no register occupies. -/
def execRegUnmapped (write : Bool) (addr : Nat) (s : State) := s.does (whenAlive (.on (unoccupied addr)
  (if write then regWrite (.core 0) (addr / 4 * 4) 4 0 else regRead (.core 0) (addr / 4 * 4) 4 fun v => emitOut .bus [v])))

/-- The address is the low word, or the high word, of a 64-bit register. -/
def lowWord (a : Nat) : Bool := a % 8 == 0 && match spotOf a with | none => false | some p => p.pair a
def highWord (a : Nat) : Bool := a % 8 == 4 && match spotOf a with | none => false | some p => p.pair a

def execLowWordRead (addr : Nat) (s : State) :=
  s.does (whenAlive (.on (lowWord addr) (regRead (.core 0) addr 4 fun v => emitOut .bus [v])))

def execLowWordWrite (addr value : Nat) (s : State) :=
  s.does (whenAlive (.on (lowWord addr) (regWrite (.core 0) addr 4 (value % 2 ^ 32))))

def execHighWordWrite (addr value : Nat) (s : State) :=
  s.does (whenAlive (.on (highWord addr) (regWrite (.core 0) addr 4 (value % 2 ^ 32))))

end Sys2Proof.Machine
end

