-- ==== Sys2Proof/Machine/Access.lean ====
section
/-! DEFINITION. Accesses of the hub address space (R50 to R52) by cores, movers and hosts: LDM, STM, MOVE and MSG (R145, R159, R161),
BAR accesses and received TLPs (R321, R322), the memory movers (R342, R343, R394). -/
namespace Sys2Proof.Machine

/-! ### The address space (R50) -/

/-- What an address belongs to. -/
inductive Zone where
  | registers
  | pool
  | dram
  | region
  | nowhere
  deriving DecidableEq, Repr

def placeOf (a : Nat) : Zone :=
  if poolBase ≤ a ∧ a < poolBase + 4 * poolWords then .pool
  else if a < 0x0400_0000 then .registers
  else if dramBase ≤ a ∧ a < regionFloor then .dram
  else if regionFloor ≤ a ∧ a < 2 ^ 48 then .region
  else .nowhere

/-- Naturally aligned pieces of at most 8 bytes that make up a range. -/
def pieces : Nat → Nat → Nat → List (Nat × Nat)
  | 0, _, _ => []
  | f + 1, a, n =>
    if n = 0 then []
    else
      let k := if a % 8 = 0 ∧ 8 ≤ n then 8 else if a % 4 = 0 ∧ 4 ≤ n then 4 else if a % 2 = 0 ∧ 2 ≤ n then 2 else 1
      (a, k) :: pieces f (a + k) (n - k)

/-- Read pieces one after another and go on with all their bytes. -/
def gather (read : Nat → Nat → (List Byte → Prog) → Prog) : List (Nat × Nat) → (List Byte → Prog) → Prog
  | [], k => k []
  | p :: t, k => read p.1 p.2 fun x => gather read t fun y => k (x ++ y)

/-- Read a piece of the hub's own space: registers, pool, DRAM; other addresses read zero, with the record of R51. -/
def hubRead (m : Master) (a n : Nat) (k : List Byte → Prog) : Prog :=
  .get fun s =>
    match placeOf a with
    | .registers => regRead m a n fun v => k (leBytes n v)
    | .pool => k (s.mem.reads a n)
    | .dram =>
      if !s.inDram a n then .seq (busRec 0x01 0xF003 a) (k (List.replicate n 0))
      else if s.area ≤ a ∧ a < s.area + 2 ^ 26 then k (s.areaRead (a - s.area) n)
      else k (s.mem.reads a n)
    | _ => .seq (busRec 0x01 0xF003 a) (k (List.replicate n 0))

/-- Pool bytes become whole words with what the words hold. -/
def poolPiece (a : Nat) (bs : List Byte) : Prog :=
  .get fun s =>
    let w := (a - poolBase) / 4
    if bs.length = 8 then poolWrite w bs
    else poolWrite w (s.mem.reads (poolBase + 4 * w) (a % 4) ++ bs ++ s.mem.reads (a + bs.length) (4 - a % 4 - bs.length))

/-- Write a piece; `source` names the writer in the error FIFO (R330). -/
def hubWrite (m : Master) (source a : Nat) (bs : List Byte) : Prog :=
  .get fun s =>
    match placeOf a with
    | .registers => regWrite m a bs.length (leNat bs)
    | .pool => poolPiece a bs
    | .dram =>
      if !s.inDram a bs.length then busRec 0x01 0xF003 a
      else if s.area ≤ a ∧ a < s.area + 2 ^ 26 then areaWrite (a - s.area) bs
      else .act (.mem a bs)
    | .region => writeThrough a bs source 0
    | .nowhere => busRec 0x01 0xF003 a

/-- The range lies in fitted DRAM, outside the channel area. -/
def State.plainDram (s : State) (a n : Nat) : Bool :=
  s.inDram a n && (decide (a + n ≤ s.area) || decide (s.area + 2 ^ 26 ≤ a))

/-- Read a range of any length. -/
def rangeRead (m : Master) (a n : Nat) (k : List Byte → Prog) : Prog :=
  .get fun s => if s.plainDram a n then k (s.mem.reads a n) else gather (hubRead m) (pieces n a n) k

/-- Write a range of any length: DRAM, the channel area and a region at once, the rest piece by piece. -/
def putRange (m : Master) (source a : Nat) (bs : List Byte) : Prog :=
  .get fun s =>
    let n := bs.length
    if s.plainDram a n then .act (.mem a bs)
    else if s.area ≤ a ∧ a + n ≤ s.area + 2 ^ 26 then areaWrite (a - s.area) bs
    else if regionFloor ≤ a ∧ (match s.regionOf a with | some r => s.inRegion r a n | none => false) = true then writeThrough a bs source 0
    else .each (pieces n a n) fun p => hubWrite m source p.1 ((bs.drop (p.1 - a)).take p.2)

/-! ### What a core reaches (R119, R122, R145) -/

def masterOf : Mach → Master
  | .secure => .secure
  | .ctl n => .core n
  | .cable => .core 8
  | .eng e _ => .mover e

/-- The cable core's own map (R119); the sizes of the last two are PRESUMED (log entry 67). -/
def aonRomEnd : Nat := 0x8000
def aonRam (a n : Nat) : Bool := decide (0x1_0000 ≤ a) && decide (a + n ≤ 0x5_0000)
def aonDevice (a n : Nat) : Bool := decide (0x10_0000 ≤ a) && decide (a + n ≤ 0x30_0000)

/-- The address lies in no range of R50, or beyond fitted DRAM, or in no region. -/
def State.unmapped (s : State) (a n : Nat) : Bool :=
  match placeOf a with
  | .registers => (spotOf a).isNone
  | .pool => false
  | .dram => !s.inDram a n
  | .region => (match s.regionOf a with
      | none => true
      | some r => s.raw .BRG_REGION_KIND 0 r == 3 && !s.inDram (dramBase + s.regionTarget r a) n)
  | .nowhere => true

/-- The KEY range but for its visible page (R52), to a master other than the security core. -/
def keyHidden (m : Master) (a : Nat) : Bool := match spotOf a with | some p => hidden m p a | none => false

/-- A core's access that ends in a bus error: unmapped or refused. A posted store to a region fails in the error FIFO instead. -/
def State.coreFault (s : State) (m : Mach) (a n : Nat) (write : Bool) : Bool :=
  match m with
  | .cable => !(aonRam a n || aonDevice a n || (!write && decide (a + n ≤ aonRomEnd)))
  | _ =>
    match placeOf a with
    | .registers => s.unmapped a n || keyHidden (masterOf m) a
    | .region => !write && (match s.regionOf a with | none => true | some r => s.unmapped a n || s.regionShut r)
    | _ => s.unmapped a n || (write && s.touchesStore a n)

/-- A bus error (R122), with the record of R51 where no range holds the address. -/
def coreBusError (m : Mach) (a n : Nat) : Prog :=
  .get fun s => .seq (.on (m != .cable && s.unmapped a n) (busRec 0x01 0xF003 a)) (busTrap m a)

/-- A piece that a core reads and that does not fault. -/
def corePiece (m : Mach) (a n : Nat) (k : List Byte → Prog) : Prog :=
  .get fun s =>
    match m with
    | .cable =>
      if aonRam a n then k (s.mem.reads (aonBase + a) n)
      else if a < aonRomEnd then k ((List.range n).map fun i => Config.aonRom (a + i))
      else withFree (2 ^ (8 * n)) fun v => k (leBytes n v)
    | _ => match placeOf a with
      | .region => regionPiece a n k
      | _ => hubRead (masterOf m) a n k

/-- A piece that a core writes and that does not fault. -/
def coreWrite (m : Mach) (a : Nat) (bs : List Byte) : Prog :=
  match m with
  | .cable => if aonRam a bs.length then .act (.mem (aonBase + a) bs) else emitOut .aon [a] bs
  | _ => hubWrite (masterOf m) coreSource a bs

/-- Alignment first, then the protection unit (R124, R145). -/
def memCheck (m : Mach) (a : State → Nat) (n : Nat) (write : Bool) : Check := fun s =>
  if a s % n ≠ 0 then some (2, a s)
  else if !(s.core (coreKey m)).allowsAll (a s) n (if write then 9 else 8) then some (if write then 5 else 4, a s)
  else none

/-- A load from M: at once, or later where a link or the local bus answers. -/
def coreLoad (m : Mach) (rd : Reg) (size : BitVec 2) (sign : Bool) (a : Nat) : Prog :=
  .get fun s =>
    let n := 2 ^ size.toNat
    let give (bs : List Byte) : Prog := .seq (wr m rd (loadValue size sign (leNat bs))) (stepPc m)
    if s.coreFault m a n false then coreBusError m a n
    else match m, placeOf a with
    | .cable, _ => corePiece m a n give
    | _, .region => regionLoad (coreKey m) a n rd.toNat size.toNat sign give (coreBusError m a n)
    | _, _ => corePiece m a n give

def execLdm (m : Mach) (rd rs1 : Reg) (size : BitVec 2) (sign : Bool) (imm : BitVec 11) (s : State) :=
  s.does (issue m (.ldm m rd rs1 size sign imm) 1 (memCheck m (fun s => s.effAddr m rs1 imm) (2 ^ size.toNat) false)
    (.get fun s => coreLoad m rd size sign (s.effAddr m rs1 imm)))

def execStm (m : Mach) (rs rs1 : Reg) (size : BitVec 2) (imm : BitVec 11) (s : State) :=
  s.does (issue m (.stm m rs rs1 size imm) 1 (memCheck m (fun s => s.effAddr m rs1 imm) (2 ^ size.toNat) true)
    (.get fun s =>
      let a := s.effAddr m rs1 imm
      let n := 2 ^ size.toNat
      if s.coreFault m a n true then coreBusError m a n
      else .seq (coreWrite m a (leBytes n (s.reg m rs).toNat)) (stepPc m)))

/-! ### MOVE (R159) -/

def dwords (a n : Nat) : List (Nat × Nat) := (List.range (n / 8)).map fun i => (a + 8 * i, 8)

def spaceOf : Nat → Space
  | 0 => .u
  | 1 => .c
  | 2 => .t
  | _ => .k

/-- Length, bounds and rights, then alignment; a length of 0 does nothing. The source is judged first. -/
def moveCheck (m : Mach) (rd rs1 rs2 : Reg) (dst src : BitVec 3) : Check := fun s =>
  let d := (s.reg m rd).toNat
  let a := (s.reg m rs1).toNat
  let n := (s.reg m rs2).toNat
  if n = 0 then none
  else match m with
  | .eng _ _ =>
    let h := s.own m
    if 1024 < n then some (2, a)
    else if !inSpace h (spaceOf src.toNat) a n false then some (2, a)
    else if !inSpace h (spaceOf dst.toNat) d n true || (dst == 0 && decide (0x100 < d + n)) then some (2, d)
    else if a % 8 ≠ 0 ∨ n % 8 ≠ 0 then some (3, a)
    else if d % 8 ≠ 0 then some (3, d) else none
  | _ =>
    let c := s.core (coreKey m)
    if 65536 < n then some (7, a)
    else if a % 8 ≠ 0 ∨ n % 8 ≠ 0 then some (2, a)
    else if d % 8 ≠ 0 then some (2, d)
    else if !c.allowsAll a n 8 then some (4, a)
    else if !c.allowsAll d n 9 then some (5, d) else none

/-- Steps of a MOVE (R159), by the length in rs2. -/
def moveCost (n : Nat) : Nat := 1 + ceilDiv n 64

def moveData (m : Mach) (d a n : Nat) (dst src : BitVec 3) : Prog :=
  .get fun s => .all [
    .on (src == 2) (.seq (noteMissing (s.tableAddr m a) n) (waitTable m)),
    spaceWrite (coreKey m) (spaceOf dst.toNat) d (s.spaceRead (s.own m) (spaceOf src.toNat) a n),
    stepPc m]

/-- The first piece of a core's MOVE that faults. -/
def State.moveFault (s : State) (m : Mach) (d a n : Nat) : Option Nat :=
  (((dwords a n).find? fun p => s.coreFault m p.1 8 false).map (·.1)).orElse fun _ =>
    ((dwords d n).find? fun p => s.coreFault m p.1 8 true).map (·.1)

/-- The source is read whole before any byte is written. -/
def moveCore (m : Mach) (d a n : Nat) : Prog :=
  .get fun s => match s.moveFault m d a n with
  | some x => coreBusError m x 8
  | none => gather (corePiece m) (dwords a n) fun bs => .seq
      (.each (dwords d n) fun p => coreWrite m p.1 ((bs.drop (p.1 - d)).take 8)) (stepPc m)

def execMove (m : Mach) (rd rs1 rs2 : Reg) (dst src : BitVec 3) (s : State) :=
  s.does (.get fun s =>
    let n := (s.reg m rs2).toNat
    issue m (.move m rd rs1 rs2 dst src) (moveCost n) (moveCheck m rd rs1 rs2 dst src)
      (let d := (s.reg m rd).toNat
       let a := (s.reg m rs1).toNat
       if n = 0 then stepPc m
       else match m with
       | .eng _ _ => moveData m d a n dst src
       | _ => moveCore m d a n))

/-! ### MSG (R161) -/

def msgCheck (m : Mach) (rs1 rs2 : Reg) : Check := fun s =>
  let a := (s.reg m rs1).toNat
  let n := (s.reg m rs2).toNat
  match m with
  | .eng _ _ =>
    if n < 8 ∨ 64 < n ∨ 0x400 < a + n then some (2, a)
    else if n % 8 ≠ 0 ∨ a % 8 ≠ 0 then some (3, a) else none
  | _ =>
    if n < 8 ∨ 64 < n then some (7, a)
    else if n % 8 ≠ 0 ∨ a % 8 ≠ 0 then some (2, a)
    else if !(s.core (coreKey m)).allowsAll a n 8 then some (4, a) else none

/-- A thread's body takes its credit, a reserved one first (R162), and goes at once or with the harvest release. -/
def msgThread (m : Mach) (rd : Reg) (b : Nat) (body : List Byte) : Prog :=
  .get fun s =>
    let k := coreKey m
    let h := s.own m
    let x : Message := ⟨b, body, some h.chan, k, h.entry⟩
    if h.credits.contains b || s.creditFree b then .all [
      setThread k fun h => { h with credits := h.credits.erase b },
      if s.ordered k then setThread k fun h => { h with heldMsgs := h.heldMsgs ++ [x] } else sendMessage x,
      wr m rd 0]
    else wr m rd 1

/-- A core's body; a block without a queue takes none. -/
def msgCore (m : Mach) (rd : Reg) (b : Nat) (body : List Byte) : Prog :=
  .get fun s =>
    if s.creditFree b then .seq (sendMessage ⟨b, body, none, (ownerOf m).getD 0, []⟩) (wr m rd 0)
    else wr m rd 1

def execMsg (m : Mach) (rd rs1 rs2 : Reg) (blk : BitVec 8) (s : State) :=
  s.does (issue m (.msg m rd rs1 rs2 blk) 1 (msgCheck m rs1 rs2) (.get fun s =>
    let a := (s.reg m rs1).toNat
    let n := (s.reg m rs2).toNat
    match m with
    | .eng _ _ => .seq (msgThread m rd blk.toNat ((s.own m).k.reads a n)) (stepPc m)
    | _ => match (dwords a n).find? fun p => s.coreFault m p.1 8 false with
      | some p => coreBusError m p.1 8
      | none => gather (corePiece m) (dwords a n) fun bs => .seq (msgCore m rd blk.toNat bs) (stepPc m)))

/-! ### Received TLPs (R321, R322) -/

/-- Hub address of a BAR access. -/
def State.barBase (s : State) (ctrl bar : Nat) : Nat :=
  match bar with
  | 0 => 0
  | 2 => s.area
  | _ => dramBase + s.raw .PCI_BAR4_OFFSET ctrl * 2 ^ 30

def State.barSize (s : State) (ctrl bar : Nat) : Nat := if bar = 4 then 2 ^ s.raw .PCI_BAR4_LOG2_SIZE ctrl else 2 ^ 26

/-- Runs of enabled bytes of a request of `n` bytes, as offset and length. -/
def enabledRuns (b : List Byte) (n : Nat) : List (Nat × Nat) :=
  (List.range n).foldl (fun l i =>
    if !tlpEnabled b i then l
    else match l.getLast? with
      | some (o, k) => if o + k = i then l.dropLast ++ [(o, k + 1)] else l ++ [(i, 1)]
      | none => [(i, 1)]) []

/-- A memory write through a BAR: posted, and logged where it cannot be performed (R330, R387). -/
def barWrite (ctrl bar a : Nat) (b : List Byte) : Prog :=
  .each (enabledRuns b (tlpData b).length) fun r =>
    let bs := ((tlpData b).drop r.1).take r.2
    .get fun s =>
      if bar = 4 ∧ s.touchesStore (a + r.1) r.2 = true then pwErr (a + r.1) ctrl 2 0
      else putRange (.host ctrl) ctrl (a + r.1) bs

/-- Completions that carry read data, none across a multiple of the largest payload. -/
def completionTlps (mps rid tag : Nat) : Nat → Nat → List Byte → List (List Byte)
  | 0, _, _ => []
  | f + 1, a, bs =>
    let n := mps - a % mps
    if bs.isEmpty then [] else
      completionTlp rid tag 0 bs.length a (bs.take n) :: completionTlps mps rid tag f (a + n) (bs.drop n)

/-- A memory read through a BAR; bytes not enabled read as zero. -/
def barRead (ctrl a : Nat) (b : List Byte) : Prog :=
  let n := 4 * tlpDws b
  gather (fun o k give => rangeRead (.host ctrl) (a + o) k fun bs => give bs) (enabledRuns b n) fun got => .get fun s =>
    let data := ((enabledRuns b n).foldl (fun (x : List Byte × List Byte) r =>
      (x.1 ++ List.replicate (r.1 - x.1.length) 0 ++ x.2.take r.2, x.2.drop r.2)) ([], got)).1
    .each (completionTlps (s.maxPayload ctrl) (tlpRid b) (tlpTag b) n a (data ++ List.replicate (n - data.length) 0)) fun x =>
      emitOut .tlp [ctrl] x

/-- An AtomicOp that hits a BAR: read, operate, write, answer with the old value. -/
def barAtomic (ctrl bar a : Nat) (b : List Byte) : Prog :=
  let data := tlpData b
  let size := if tlpType b = 0x0E then data.length / 2 else data.length
  if size ≠ 4 ∧ size ≠ 8 then refuseTlp ctrl 1 b
  else rangeRead (.host ctrl) a size fun old => .get fun s => .seq
    (match atomicNew (tlpType b) size (leNat old) data with
      | some v => if bar = 4 ∧ s.touchesStore a size = true then pwErr a ctrl 2 0 else putRange (.host ctrl) ctrl a (leBytes size v)
      | none => .skip)
    (emitOut .tlp [ctrl] (completionTlp (tlpRid b) (tlpTag b) 0 size a old))

/-- A memory request that hits a BAR. A poisoned write is logged (R330). -/
def barAccess (ctrl bar off : Nat) (b : List Byte) : Prog :=
  .get fun s =>
    let a := s.barBase ctrl bar + off
    if tlpAtomic b then barAtomic ctrl bar a b
    else if !tlpHasData b then barRead ctrl a b
    else if tlpPoisoned b then pwErr a ctrl 4 0
    else barWrite ctrl bar a b

/-- The hub's own configuration space as an endpoint (R321): the identity words; other words are free (log entry 68). -/
def configAccess (ctrl : Nat) (b : List Byte) : Prog :=
  if tlpHasData b then emitOut .tlp [ctrl] (completionTlp (tlpRid b) (tlpTag b) 0 4 0 [])
  else
    let give (v : Nat) : Prog := emitOut .tlp [ctrl] (completionTlp (tlpRid b) (tlpTag b) 0 4 0 (leBytes 4 v))
    match beNat ((b.drop 10).take 2) % 4096 / 4 with
    | 0 => give (Config.vendorId % 2 ^ 16 + 0x7232 * 2 ^ 16)
    | 2 => give (0xB0 + 0x08_8000 * 2 ^ 8)
    | _ => withFree (2 ^ 32) give

/-- Any other TLP is a unit of the channel that its requester ID finds. -/
def tlpUnit (ctrl : Nat) (b : List Byte) : Prog :=
  .get fun s =>
    let desc := s.raw .PCI_RX_CLASS_DESC ctrl
    let dflt := s.raw .PCI_RX_CLASS_DEFAULT ctrl
    let c := if exactOne (s.descAt desc) then
        s.classify desc ((if tlpCompletion b then cplRid b else tlpRid b) + ctrl * 2 ^ 16) dflt
      else dflt
    ingress {
      group := gPci ctrl
      port := 0
      chan := c
      kind := 2
      bytes := b
      length := b.length
      whole := true
      bad := false
      opened := false
      rsv := true
      link := none
      passed := [] }

/-- A root port records an error message of its partner, with the source ID (R351). -/
def errorMessage (ctrl : Nat) (b : List Byte) : Prog :=
  .get fun s => .on (!s.flag .PCI_CFG_ROLE ctrl && decide (0x10 ≤ tlpType b) && [0x30, 0x31, 0x33].contains (fieldOf b 7 1))
    (logRec (0x31 + ctrl) 0x0005 2 none (tlpRid b * 2 ^ 32))

/-- The order of R322. Before RUN the hub defers configuration requests and discards others (R527); in SAFE it serves BAR0 only. -/
def receiveTlp (ctrl : Nat) (b : List Byte) (bar : Option (Nat × Nat)) : Prog :=
  .get fun s =>
    let endpoint := s.flag .PCI_CFG_ROLE ctrl
    let hit := if endpoint ∧ (tlpMemory b || tlpAtomic b) = true then bar.filter fun x =>
        (x.1 == 0 || x.1 == 2 || x.1 == 4) && decide (x.2 + 4 * tlpDws b ≤ s.barSize ctrl x.1)
      else none
    let config := endpoint && (tlpType b == 4 || tlpType b == 5)
    let refuse := .on (!tlpPosted b && !tlpCompletion b) (refuseTlp ctrl 1 b)
    if s.dev.st = .boot then .on config (refuseTlp ctrl 2 b)
    else if tlpUnsupported b then refuseTlp ctrl 1 b
    else if tlpCompletion b && ((s.reqsOf ctrl).any fun r => r.tag == some (cplTag b)) then completion ctrl (cplTag b) (cplStatus b) (tlpData b)
    else if config then configAccess ctrl b
    else match hit with
    | some x => if s.dev.st = .safe ∧ x.1 ≠ 0 then refuse else barAccess ctrl x.1 x.2 b
    | none => .seq (errorMessage ctrl b) (if s.flowing then .on (!s.quiet (0x31 + ctrl)) (tlpUnit ctrl b) else refuse)

def execPciTlpReceive (ctrl : Nat) (tlp : List Byte) (bar : Option (Nat × Nat)) (s : State) :=
  s.does (onPci ctrl (.get fun s => .on (s.flag .PCI_STATUS_LINK_UP ctrl) (receiveTlp ctrl tlp bar)))

/-! ### Memory movers (R342, R343, R394) -/

def State.ringAt (s : State) (m : Nat) : Nat := s.raw .MOV_RING_BASE_BASE 0 m * 32 + 32 * s.raw .MOV_HEAD_HEAD 0 m
def State.ringReady (s : State) (m : Nat) : Bool := s.raw .MOV_HEAD_HEAD 0 m != s.raw .MOV_TAIL_TAIL 0 m
def State.moverReady (s : State) (m : Nat) : Bool := s.ringReady m || !(s.mover m).held.isEmpty

/-- The next transfer: ring and held messages in turn (R334). -/
def State.nextTransfer (s : State) (m : Nat) : Option Transfer :=
  let v := s.mover m
  if s.ringReady m && (v.held.isEmpty || !v.fromRing) then
    let a := s.ringAt m
    let flags := s.load (a + 20) 2
    some ⟨s.load a 8 % 2 ^ 48, s.load (a + 8) 8 % 2 ^ 48, s.load (a + 16) 4, true, 0, bit flags 0,
      bits (s.load (a + 22) 2) 13 12 * 2 ^ 12 + bits (s.load (a + 22) 2) 10 0, false⟩
  else v.held.head?

/-- STATUS of the descriptor at HEAD. -/
def moverStatus (m code : Nat) : Prog := .get fun s => store (s.ringAt m + 24) [BitVec.ofNat 8 (1 + 2 * code)]

/-- A transfer ends with a status other than OK: the mover stops, HEAD stays. -/
def moverFail (m : Nat) (t : Transfer) (code : Nat) : Prog := .all [
  .on t.ring (moverStatus m code), setF .MOV_STATE_STATE 2 0 m,
  setMover m fun v => { v with run := none },
  logRec 0x30 0x0007 2 none m]

/-- A mover takes its next transfer; a length of 0 is a bad descriptor. Earlier writes are visible, so FENCE waits for nothing. -/
def moverStart (m : Nat) : Prog :=
  .get fun s => match (if (s.mover m).run.isNone && s.raw .MOV_STATE_STATE 0 m != 2 then s.nextTransfer m else none) with
  | none => .skip
  | some t => .all [
      setMover m fun v => { held := if t.ring then v.held else v.held.tail, run := some t, fromRing := t.ring },
      setF .MOV_STATE_STATE 1 0 m,
      .on (t.len == 0) (moverFail m t 5)]

def execMoverStart (m : Nat) (s : State) :=
  s.does (whenAlive (.get fun s => .on (decide (m < 16) && s.dev.st != .boot && s.dev.st != .safe && !s.quiet 0x30) (moverStart m)))

/-- The region that a range of the mover's belongs to. -/
def State.rangeRegion (s : State) (a : Nat) : Option Nat := if placeOf a = .region then s.regionOf a else none

/-- The source lies outside the hub: its bytes come as the command's operand. -/
def State.outside (s : State) (a : Nat) : Bool := match s.rangeRegion a with
  | some r => s.raw .BRG_REGION_KIND 0 r == 1 || s.raw .BRG_REGION_KIND 0 r == 2 || s.raw .BRG_REGION_KIND 0 r == 4
  | none => false

/-- Where a mover's write falls in DRAM. -/
def State.dramOf (s : State) (a : Nat) : Nat := match s.rangeRegion a with
  | some r => if s.raw .BRG_REGION_KIND 0 r = 3 then dramBase + s.regionTarget r a else a
  | none => a

/-- Head and layer whose lease covers part of a range. -/
def State.leaseHolder (s : State) (a n : Nat) : Nat × Nat :=
  (((List.range 4).map fun h => layerList.map fun l => (h, l)).flatten.find? fun x =>
    let v := s.layer false x.1 x.2
    v.on && decide (a < v.fb + v.stride * v.height) && decide (v.fb < a + n)).getD (0, 0xFF)

/-- A write into a leased buffer is refused. -/
def leaseViolation (a n : Nat) : Prog :=
  .get fun s =>
    let h := s.leaseHolder a n
    .seq (bump .DSP_LEASE_VIOL_WRITES)
      (logRec 0x48 0x0002 2 none (h.1 + (if h.2 = 0xFF then 0xFF else min h.2 8) * 2 ^ 8 + a * 2 ^ 32))

/-- The whole transfer is done: its bytes count, STATUS is written, HEAD advances, the vector is raised. A BRG MOVE raises its channel's
STORAGE vector, which a MEM channel does not state: a free value (log entry 69). -/
def moverDone (m : Nat) (t : Transfer) : Prog := .all [
  bump .MOV_BYTES_BYTES 0 m t.len,
  .on t.ring (.seq (moverStatus m 0) (.get fun s =>
    setF .MOV_HEAD_HEAD ((s.raw .MOV_HEAD_HEAD 0 m + 1) % 2 ^ s.raw .MOV_RING_CFG_LOG2 0 m) 0 m)),
  setMover m fun v => { v with run := none },
  .get fun s => setF .MOV_STATE_STATE (if s.moverReady m then 1 else 0) 0 m,
  .on t.raise (if t.ring then raiseVector (t.vector / 2 ^ 12) (t.vector % 2 ^ 12)
    else withFree (2 ^ 13) fun v => raiseVector (v / 2 ^ 11) (v % 2 ^ 11))]

/-- The bytes of a source region, as an outside request returned them or as the hub reads them. -/
def moverRead (m : Nat) (t : Transfer) (data : List Byte) (k : List Byte → Prog) : Prog :=
  .get fun s => match s.rangeRegion t.src with
  | some r =>
    if s.outside t.src then k (data.take t.len ++ List.replicate (t.len - data.length) 0)
    else rangeRead (.mover m) (dramBase + s.regionTarget r t.src) t.len k
  | none => rangeRead (.mover m) t.src t.len k

/-- A region refuses the mover's read or write. -/
def State.regionBars (s : State) (a : Nat) (write : Bool) : Bool :=
  match placeOf a, s.regionOf a with
  | .region, none => true
  | .region, some r => if write then s.regionSealed r else s.regionShut r
  | _, _ => false

/-- The running transfer ends: with READ_ERR, WRITE_ERR or TIMEOUT where the outside says so, or as the hub finds. -/
def moverComplete (m : Nat) (data : List Byte) (status : Nat) : Prog :=
  .get fun s => match (s.mover m).run with
  | none => .skip
  | some t =>
    let d := s.dramOf t.dst
    if s.regionBars t.src false then moverFail m t 1
    else if s.leased d t.len then
      (if s.raw .DSP_CFG_LEASE_MODE = 0 then .on (!t.waits) (.seq (bump .DSP_LEASE_WAITS_WRITES)
          (setMover m fun v => { v with run := some { t with waits := true } }))
       else .seq (leaseViolation d t.len) (moverFail m t 3))
    else if s.outside t.src && (status == 1 || status == 4) then moverFail m t status
    else if s.regionBars t.dst true then moverRead m t data fun bs => .seq (writeThrough t.dst bs 5 t.chan) (moverFail m t 2)
    else if s.outside t.dst && status == 2 then moverFail m t 2
    else moverRead m t data fun bs => .seq (putRange (.mover m) 5 t.dst bs) (moverDone m t)

def execMoverComplete (m : Nat) (data : List Byte) (status : Nat) (s : State) :=
  s.does (whenAlive (.on (decide (m < 16)) (moverComplete m data status)))

end Sys2Proof.Machine
end

