-- ==== Sys2Proof/Machine/Dispatch.lean ====
section
/-! DEFINITION. One arm per command: a direct call of its meaning. -/
namespace Sys2Proof.Machine

def exec (i : Instr) (s : State) : Host.Outcome State Fault Refusal :=
  match i with
  | .registerWrite m addr size value => Sys2Proof.Machine.execRegisterWrite m addr size value s
  | .regUnmapped write addr => Sys2Proof.Machine.execRegUnmapped write addr s
  | .lowWordRead addr => Sys2Proof.Machine.execLowWordRead addr s
  | .lowWordWrite addr value => Sys2Proof.Machine.execLowWordWrite addr value s
  | .highWordWrite addr value => Sys2Proof.Machine.execHighWordWrite addr value s
  | .commit blk => Sys2Proof.Machine.execCommit blk s
  | .abandon blk => Sys2Proof.Machine.execAbandon blk s
  | .commitBoundary blk => Sys2Proof.Machine.execCommitBoundary blk s
  | .quiesce blk => Sys2Proof.Machine.execQuiesce blk s
  | .quiesceDone blk => Sys2Proof.Machine.execQuiesceDone blk s
  | .quiesceRelease blk => Sys2Proof.Machine.execQuiesceRelease blk s
  | .paceUpdate measured => Sys2Proof.Machine.execPaceUpdate measured s
  | .paceBelowFloor => Sys2Proof.Machine.execPaceBelowFloor s
  | .paceSafeTimeout => Sys2Proof.Machine.execPaceSafeTimeout s
  | .tbandChange temp => Sys2Proof.Machine.execTbandChange temp s
  | .setpointWrite value => Sys2Proof.Machine.execSetpointWrite value s
  | .regulatorCompletion => Sys2Proof.Machine.execRegulatorCompletion s
  | .avsTimeout => Sys2Proof.Machine.execAvsTimeout s
  | .paceMinClear value => Sys2Proof.Machine.execPaceMinClear value s
  | .warmReset key => Sys2Proof.Machine.execWarmReset key s
  | .coldReset key => Sys2Proof.Machine.execColdReset key s
  | .holdTrigger => Sys2Proof.Machine.execHoldTrigger s
  | .tableEnable hostTable => Sys2Proof.Machine.execTableEnable hostTable s
  | .channelAreaWrite offset data => Sys2Proof.Machine.execChannelAreaWrite offset data s
  | .poolWrite word data => Sys2Proof.Machine.execPoolWrite word data s
  | .unitIngress a => Sys2Proof.Machine.execUnitIngress a s
  | .cacheMissComplete chan entry => Sys2Proof.Machine.execCacheMissComplete chan entry s
  | .chnFetchFail chan cause => Sys2Proof.Machine.execChnFetchFail chan cause s
  | .unitDispatch berth => Sys2Proof.Machine.execUnitDispatch berth s
  | .arm chan => Sys2Proof.Machine.execArm chan s
  | .go chan => Sys2Proof.Machine.execGo chan s
  | .drain chan => Sys2Proof.Machine.execDrain chan s
  | .resume chan => Sys2Proof.Machine.execResume chan s
  | .clearFault chan => Sys2Proof.Machine.execClearFault chan s
  | .clearStats chan => Sys2Proof.Machine.execClearStats chan s
  | .drainComplete chan => Sys2Proof.Machine.execDrainComplete chan s
  | .commitPoint => Sys2Proof.Machine.execCommitPoint s
  | .shadowRelease slot => Sys2Proof.Machine.execShadowRelease slot s
  | .illegalInstruction m word => Sys2Proof.Machine.execIllegalInstruction m word s
  | .add m rd rs1 rs2 => Sys2Proof.Machine.execAdd m rd rs1 rs2 s
  | .sub m rd rs1 rs2 => Sys2Proof.Machine.execSub m rd rs1 rs2 s
  | .grnAnd m rd rs1 rs2 => Sys2Proof.Machine.execGrnAnd m rd rs1 rs2 s
  | .grnOr m rd rs1 rs2 => Sys2Proof.Machine.execGrnOr m rd rs1 rs2 s
  | .grnXor m rd rs1 rs2 => Sys2Proof.Machine.execGrnXor m rd rs1 rs2 s
  | .andn m rd rs1 rs2 => Sys2Proof.Machine.execAndn m rd rs1 rs2 s
  | .sll m rd rs1 rs2 => Sys2Proof.Machine.execSll m rd rs1 rs2 s
  | .srl m rd rs1 rs2 => Sys2Proof.Machine.execSrl m rd rs1 rs2 s
  | .sra m rd rs1 rs2 => Sys2Proof.Machine.execSra m rd rs1 rs2 s
  | .ror m rd rs1 rs2 => Sys2Proof.Machine.execRor m rd rs1 rs2 s
  | .mul m rd rs1 rs2 => Sys2Proof.Machine.execMul m rd rs1 rs2 s
  | .mulhu m rd rs1 rs2 => Sys2Proof.Machine.execMulhu m rd rs1 rs2 s
  | .mulh m rd rs1 rs2 => Sys2Proof.Machine.execMulh m rd rs1 rs2 s
  | .divu m rd rs1 rs2 => Sys2Proof.Machine.execDivu m rd rs1 rs2 s
  | .div m rd rs1 rs2 => Sys2Proof.Machine.execDiv m rd rs1 rs2 s
  | .remu m rd rs1 rs2 => Sys2Proof.Machine.execRemu m rd rs1 rs2 s
  | .rem m rd rs1 rs2 => Sys2Proof.Machine.execRem m rd rs1 rs2 s
  | .min m rd rs1 rs2 => Sys2Proof.Machine.execMin m rd rs1 rs2 s
  | .max m rd rs1 rs2 => Sys2Proof.Machine.execMax m rd rs1 rs2 s
  | .minu m rd rs1 rs2 => Sys2Proof.Machine.execMinu m rd rs1 rs2 s
  | .maxu m rd rs1 rs2 => Sys2Proof.Machine.execMaxu m rd rs1 rs2 s
  | .clz m rd rs1 => Sys2Proof.Machine.execClz m rd rs1 s
  | .popc m rd rs1 => Sys2Proof.Machine.execPopc m rd rs1 s
  | .addi m rd rs1 imm => Sys2Proof.Machine.execAddi m rd rs1 imm s
  | .andi m rd rs1 imm => Sys2Proof.Machine.execAndi m rd rs1 imm s
  | .ori m rd rs1 imm => Sys2Proof.Machine.execOri m rd rs1 imm s
  | .xori m rd rs1 imm => Sys2Proof.Machine.execXori m rd rs1 imm s
  | .shi m rd rs1 kind amt => Sys2Proof.Machine.execShi m rd rs1 kind amt s
  | .lih m rd k imm => Sys2Proof.Machine.execLih m rd k imm s
  | .swapH m rd rs1 => Sys2Proof.Machine.execSwapH m rd rs1 s
  | .swapW m rd rs1 => Sys2Proof.Machine.execSwapW m rd rs1 s
  | .swapD m rd rs1 => Sys2Proof.Machine.execSwapD m rd rs1 s
  | .beq m ra rb off => Sys2Proof.Machine.execBeq m ra rb off s
  | .bne m ra rb off => Sys2Proof.Machine.execBne m ra rb off s
  | .blt m ra rb off => Sys2Proof.Machine.execBlt m ra rb off s
  | .bge m ra rb off => Sys2Proof.Machine.execBge m ra rb off s
  | .bltu m ra rb off => Sys2Proof.Machine.execBltu m ra rb off s
  | .bgeu m ra rb off => Sys2Proof.Machine.execBgeu m ra rb off s
  | .beqi m ra imm off => Sys2Proof.Machine.execBeqi m ra imm off s
  | .bnei m ra imm off => Sys2Proof.Machine.execBnei m ra imm off s
  | .jal m rd off => Sys2Proof.Machine.execJal m rd off s
  | .jalr m rd rs1 imm => Sys2Proof.Machine.execJalr m rd rs1 imm s
  | .ext m rd rs1 pos len1 => Sys2Proof.Machine.execExt m rd rs1 pos len1 s
  | .exts m rd rs1 pos len1 => Sys2Proof.Machine.execExts m rd rs1 pos len1 s
  | .ins m rd rs1 pos len1 => Sys2Proof.Machine.execIns m rd rs1 pos len1 s
  | .scale m rd rs1 rs2 w so si cf => Sys2Proof.Machine.execScale m rd rs1 rs2 w so si cf s
  | .fcvt m rd rs1 src dst rnd => Sys2Proof.Machine.execFcvt m rd rs1 src dst rnd s
  | .ldu m rd rs1 size sign imm => Sys2Proof.Machine.execLdu m rd rs1 size sign imm s
  | .stu m rs rs1 size imm => Sys2Proof.Machine.execStu m rs rs1 size imm s
  | .ldc m rd rs1 size sign imm => Sys2Proof.Machine.execLdc m rd rs1 size sign imm s
  | .stc m rs rs1 size imm => Sys2Proof.Machine.execStc m rs rs1 size imm s
  | .ldt m rd rs1 size sign imm => Sys2Proof.Machine.execLdt m rd rs1 size sign imm s
  | .ldk m rd rs1 size sign imm => Sys2Proof.Machine.execLdk m rd rs1 size sign imm s
  | .stk m rs rs1 size imm => Sys2Proof.Machine.execStk m rs rs1 size imm s
  | .ldm m rd rs1 size sign imm => Sys2Proof.Machine.execLdm m rd rs1 size sign imm s
  | .stm m rs rs1 size imm => Sys2Proof.Machine.execStm m rs rs1 size imm s
  | .lookup m rd rs1 rs2 slot => Sys2Proof.Machine.execLookup m rd rs1 rs2 slot s
  | .meter m rd rs1 rs2 colour own aware => Sys2Proof.Machine.execMeter m rd rs1 rs2 colour own aware s
  | .stamp m rd => Sys2Proof.Machine.execStamp m rd s
  | .enq m rs1 own saf multi => Sys2Proof.Machine.execEnq m rs1 own saf multi s
  | .emit m rd rs1 rs2 kind => Sys2Proof.Machine.execEmit m rd rs1 rs2 kind s
  | .drop m reason => Sys2Proof.Machine.execDrop m reason s
  | .mark m func => Sys2Proof.Machine.execMark m func s
  | .grnSeal m on => Sys2Proof.Machine.execGrnSeal m on s
  | .move m rd rs1 rs2 dst src => Sys2Proof.Machine.execMove m rd rs1 rs2 dst src s
  | .acq m rd rs1 once => Sys2Proof.Machine.execAcq m rd rs1 once s
  | .rel m rs1 => Sys2Proof.Machine.execRel m rs1 s
  | .msg m rd rs1 rs2 blk => Sys2Proof.Machine.execMsg m rd rs1 rs2 blk s
  | .waitc m rd rs1 queue blk => Sys2Proof.Machine.execWaitc m rd rs1 queue blk s
  | .semaphoreGrant sem => Sys2Proof.Machine.execSemaphoreGrant sem s
  | .creditGrant m => Sys2Proof.Machine.execCreditGrant m s
  | .waitLimit m => Sys2Proof.Machine.execWaitLimit m s
  | .threadResume m => Sys2Proof.Machine.execThreadResume m s
  | .fence m => Sys2Proof.Machine.execFence m s
  | .yield m => Sys2Proof.Machine.execYield m s
  | .done m => Sys2Proof.Machine.execDone m s
  | .trap m imm => Sys2Proof.Machine.execTrap m imm s
  | .eret m => Sys2Proof.Machine.execEret m s
  | .wfi m => Sys2Proof.Machine.execWfi m s
  | .interrupt m blk => Sys2Proof.Machine.execInterrupt m blk s
  | .csrr m rd csr => Sys2Proof.Machine.execCsrr m rd csr s
  | .csrw m csr rs1 => Sys2Proof.Machine.execCsrw m csr rs1 s
  | .kload m rd rs1 rs2 => Sys2Proof.Machine.execKload m rd rs1 rs2 s
  | .kderive m rd rs1 rs2 => Sys2Proof.Machine.execKderive m rd rs1 rs2 s
  | .kwrap m rd rs1 rs2 => Sys2Proof.Machine.execKwrap m rd rs1 rs2 s
  | .kdrop m rd rs1 rs2 => Sys2Proof.Machine.execKdrop m rd rs1 rs2 s
  | .lcstep m rd rs1 rs2 => Sys2Proof.Machine.execLcstep m rd rs1 rs2 s
  | .grnStoreEcc m => Sys2Proof.Machine.execGrnStoreEcc m s
  | .grnPoolEcc word => Sys2Proof.Machine.execGrnPoolEcc word s
  | .harvestRelease slot => Sys2Proof.Machine.execHarvestRelease slot s
  | .hrvGap slot => Sys2Proof.Machine.execHrvGap slot s
  | .register slot => Sys2Proof.Machine.execRegister slot s
  | .unregister slot => Sys2Proof.Machine.execUnregister slot s
  | .parcelSend port => Sys2Proof.Machine.execParcelSend port s
  | .parcelReceive port parcel clean => Sys2Proof.Machine.execParcelReceive port parcel clean s
  | .filler port block => Sys2Proof.Machine.execFiller port block s
  | .ack port block => Sys2Proof.Machine.execAck port block s
  | .nak port block => Sys2Proof.Machine.execNak port block s
  | .ackTimeout port => Sys2Proof.Machine.execAckTimeout port s
  | .lnkReplayLimit port => Sys2Proof.Machine.execLnkReplayLimit port s
  | .powerHalf port block => Sys2Proof.Machine.execPowerHalf port block s
  | .powerDeep port block => Sys2Proof.Machine.execPowerDeep port block s
  | .laneReq port block => Sys2Proof.Machine.execLaneReq port block s
  | .laneGrant port block => Sys2Proof.Machine.execLaneGrant port block s
  | .laneRefuse port block => Sys2Proof.Machine.execLaneRefuse port block s
  | .retrainReq port block => Sys2Proof.Machine.execRetrainReq port block s
  | .join port block => Sys2Proof.Machine.execJoin port block s
  | .trainCtl port block => Sys2Proof.Machine.execTrainCtl port block s
  | .marker port lane block => Sys2Proof.Machine.execMarker port lane block s
  | .lnkLockLost port lane => Sys2Proof.Machine.execLnkLockLost port lane s
  | .trainingFrame port lane control status => Sys2Proof.Machine.execTrainingFrame port lane control status s
  | .detectComplete port => Sys2Proof.Machine.execDetectComplete port s
  | .trainComplete port own => Sys2Proof.Machine.execTrainComplete port own s
  | .reverseComplete port skew => Sys2Proof.Machine.execReverseComplete port skew s
  | .alignComplete port skew skewed => Sys2Proof.Machine.execAlignComplete port skew skewed s
  | .trainPhaseTimeout port good => Sys2Proof.Machine.execTrainPhaseTimeout port good s
  | .halfIdleTimeout port => Sys2Proof.Machine.execHalfIdleTimeout port s
  | .deepIdleTimeout port => Sys2Proof.Machine.execDeepIdleTimeout port s
  | .sleepEntry port tx => Sys2Proof.Machine.execSleepEntry port tx s
  | .directionWake port => Sys2Proof.Machine.execDirectionWake port s
  | .eyeMonUpdate port heights => Sys2Proof.Machine.execEyeMonUpdate port heights s
  | .retrainTimeout port lane => Sys2Proof.Machine.execRetrainTimeout port lane s
  | .laneSwitch port => Sys2Proof.Machine.execLaneSwitch port s
  | .laneDrive port => Sys2Proof.Machine.execLaneDrive port s
  | .laneChangeTimeout port => Sys2Proof.Machine.execLaneChangeTimeout port s
  | .lnkDown port => Sys2Proof.Machine.execLnkDown port s
  | .slip port lane => Sys2Proof.Machine.execSlip port lane s
  | .eyeScanStart port => Sys2Proof.Machine.execEyeScanStart port s
  | .eyeScanComplete port heights widths => Sys2Proof.Machine.execEyeScanComplete port heights widths s
  | .dataParcel port => Sys2Proof.Machine.execDataParcel port s
  | .fillerParcel port parcel => Sys2Proof.Machine.execFillerParcel port parcel s
  | .hello port => Sys2Proof.Machine.execHello port s
  | .helloTimer port => Sys2Proof.Machine.execHelloTimer port s
  | .estReq port => Sys2Proof.Machine.execEstReq port s
  | .estAck port => Sys2Proof.Machine.execEstAck port s
  | .estNak port => Sys2Proof.Machine.execEstNak port s
  | .estRetry port chan => Sys2Proof.Machine.execEstRetry port chan s
  | .allotReq port => Sys2Proof.Machine.execAllotReq port s
  | .allotAck port => Sys2Proof.Machine.execAllotAck port s
  | .allotNak port => Sys2Proof.Machine.execAllotNak port s
  | .allotTimeout port => Sys2Proof.Machine.execAllotTimeout port s
  | .epochStart => Sys2Proof.Machine.execEpochStart s
  | .holdReport port => Sys2Proof.Machine.execHoldReport port s
  | .holdConfirm port => Sys2Proof.Machine.execHoldConfirm port s
  | .confirm port last all gen => Sys2Proof.Machine.execConfirm port last all gen s
  | .localEnd all => Sys2Proof.Machine.execLocalEnd all s
  | .sync port => Sys2Proof.Machine.execSync port s
  | .followUp port => Sys2Proof.Machine.execFollowUp port s
  | .pdelayReq port => Sys2Proof.Machine.execPdelayReq port s
  | .pdelayResp port => Sys2Proof.Machine.execPdelayResp port s
  | .pdelayFollow port => Sys2Proof.Machine.execPdelayFollow port s
  | .syncInterval port => Sys2Proof.Machine.execSyncInterval port s
  | .pdelayInterval port => Sys2Proof.Machine.execPdelayInterval port s
  | .syncReceiptTimeout => Sys2Proof.Machine.execSyncReceiptTimeout s
  | .ctl port => Sys2Proof.Machine.execCtl port s
  | .egressStart group port => Sys2Proof.Machine.execEgressStart group port s
  | .egressComplete q => Sys2Proof.Machine.execEgressComplete q s
  | .lostFlakeTimeout q => Sys2Proof.Machine.execLostFlakeTimeout q s
  | .refill => Sys2Proof.Machine.execRefill s
  | .flush q => Sys2Proof.Machine.execFlush q s
  | .flushComplete q => Sys2Proof.Machine.execFlushComplete q s
  | .berthDrain berth => Sys2Proof.Machine.execBerthDrain berth s
  | .berthOff berth => Sys2Proof.Machine.execBerthOff berth s
  | .berthRestore berth => Sys2Proof.Machine.execBerthRestore berth s
  | .ethFrameReceive port frame pcsError => Sys2Proof.Machine.execEthFrameReceive port frame pcsError s
  | .transmissionOpportunity port => Sys2Proof.Machine.execTransmissionOpportunity port s
  | .gateChange port => Sys2Proof.Machine.execGateChange port s
  | .sluiceConfigChange port => Sys2Proof.Machine.execSluiceConfigChange port s
  | .ethLinkUp port speed => Sys2Proof.Machine.execEthLinkUp port speed s
  | .ethLinkDown port => Sys2Proof.Machine.execEthLinkDown port s
  | .ptpAnnounce port p1 cls p2 ident steps => Sys2Proof.Machine.execPtpAnnounce port p1 cls p2 ident steps s
  | .ptpSync port seq => Sys2Proof.Machine.execPtpSync port seq s
  | .ptpFollowUp port seq t1 => Sys2Proof.Machine.execPtpFollowUp port seq t1 s
  | .ptpPdelayReq port seq => Sys2Proof.Machine.execPtpPdelayReq port seq s
  | .ptpPdelayResp port seq t2 => Sys2Proof.Machine.execPtpPdelayResp port seq t2 s
  | .ptpPdelayRespFollowUp port seq t3 => Sys2Proof.Machine.execPtpPdelayRespFollowUp port seq t3 s
  | .ptpSignaling port => Sys2Proof.Machine.execPtpSignaling port s
  | .announceInterval port => Sys2Proof.Machine.execAnnounceInterval port s
  | .pciTlpReceive ctrl tlp bar => Sys2Proof.Machine.execPciTlpReceive ctrl tlp bar s
  | .pciCompletionReceive ctrl tag status data => Sys2Proof.Machine.execPciCompletionReceive ctrl tag status data s
  | .pciRequestIssue ctrl => Sys2Proof.Machine.execPciRequestIssue ctrl s
  | .pciLinkUp ctrl rate width tag10 => Sys2Proof.Machine.execPciLinkUp ctrl rate width tag10 s
  | .pciLinkDown ctrl => Sys2Proof.Machine.execPciLinkDown ctrl s
  | .perstAssert ctrl => Sys2Proof.Machine.execPerstAssert ctrl s
  | .perstRelease ctrl => Sys2Proof.Machine.execPerstRelease ctrl s
  | .pwerrPop => Sys2Proof.Machine.execPwerrPop s
  | .raise => Sys2Proof.Machine.execRaise s
  | .brgMove => Sys2Proof.Machine.execBrgMove s
  | .prefetchDiscard => Sys2Proof.Machine.execPrefetchDiscard s
  | .semLeaseExpiry sem => Sys2Proof.Machine.execSemLeaseExpiry sem s
  | .atomicEmulation ctrl tlp old => Sys2Proof.Machine.execAtomicEmulation ctrl tlp old s
  | .moverStart m => Sys2Proof.Machine.execMoverStart m s
  | .moverComplete m data status => Sys2Proof.Machine.execMoverComplete m data status s
  | .movRestart m => Sys2Proof.Machine.execMovRestart m s
  | .mailboxResponse mbox => Sys2Proof.Machine.execMailboxResponse mbox s
  | .localBusTransfer k => Sys2Proof.Machine.execLocalBusTransfer k s
  | .localBusComplete k err data => Sys2Proof.Machine.execLocalBusComplete k err data s
  | .uartReceive k byte parity framing => Sys2Proof.Machine.execUartReceive k byte parity framing s
  | .sigUnit => Sys2Proof.Machine.execSigUnit s
  | .cyclicTrigger chan => Sys2Proof.Machine.execCyclicTrigger chan s
  | .pack => Sys2Proof.Machine.execPack s
  | .gpioSet => Sys2Proof.Machine.execGpioSet s
  | .gpioTransition line level => Sys2Proof.Machine.execGpioTransition line level s
  | .gpioDebounce line => Sys2Proof.Machine.execGpioDebounce line s
  | .canFrameReceive ctrl id esi remote data => Sys2Proof.Machine.execCanFrameReceive ctrl id esi remote data s
  | .canFrameSent ctrl => Sys2Proof.Machine.execCanFrameSent ctrl s
  | .canTxTimeout ctrl => Sys2Proof.Machine.execCanTxTimeout ctrl s
  | .canBusError ctrl tec rec_ lec => Sys2Proof.Machine.execCanBusError ctrl tec rec_ lec s
  | .canBusRecover ctrl => Sys2Proof.Machine.execCanBusRecover ctrl s
  | .canRestart ctrl => Sys2Proof.Machine.execCanRestart ctrl s
  | .vblankStart head => Sys2Proof.Machine.execVblankStart head s
  | .headCommit head => Sys2Proof.Machine.execHeadCommit head s
  | .headAbandon head => Sys2Proof.Machine.execHeadAbandon head s
  | .present => Sys2Proof.Machine.execPresent s
  | .tileUpdate head => Sys2Proof.Machine.execTileUpdate head s
  | .tileApply head => Sys2Proof.Machine.execTileApply head s
  | .psrEntry head sinkOk => Sys2Proof.Machine.execPsrEntry head sinkOk s
  | .dspUnderrun head => Sys2Proof.Machine.execDspUnderrun head s
  | .hpdLoss head => Sys2Proof.Machine.execHpdLoss head s
  | .auxFailure head => Sys2Proof.Machine.execAuxFailure head s
  | .hpdReturn head => Sys2Proof.Machine.execHpdReturn head s
  | .dspTrainingComplete head rate lanes tx => Sys2Proof.Machine.execDspTrainingComplete head rate lanes tx s
  | .dspPllUnlock head => Sys2Proof.Machine.execDspPllUnlock head s
  | .ccAttach port orient source ra cable speed fiveA epr => Sys2Proof.Machine.execCcAttach port orient source ra cable speed fiveA epr s
  | .ccDetach port => Sys2Proof.Machine.execCcDetach port s
  | .vbusRise port => Sys2Proof.Machine.execVbusRise port s
  | .pdSourceCapabilities port pdos => Sys2Proof.Machine.execPdSourceCapabilities port pdos s
  | .pdRequest port object ma offers vdo => Sys2Proof.Machine.execPdRequest port object ma offers vdo s
  | .pdPsRdy port offers vdo => Sys2Proof.Machine.execPdPsRdy port offers vdo s
  | .pdPrSwap port => Sys2Proof.Machine.execPdPrSwap port s
  | .pdDrSwap port => Sys2Proof.Machine.execPdDrSwap port s
  | .pdVconnSwap port => Sys2Proof.Machine.execPdVconnSwap port s
  | .pdHardReset port => Sys2Proof.Machine.execPdHardReset port s
  | .pdEprKeepalive port => Sys2Proof.Machine.execPdEprKeepalive port s
  | .pdEprMode port enter => Sys2Proof.Machine.execPdEprMode port enter s
  | .pdDiscoverIdentity port => Sys2Proof.Machine.execPdDiscoverIdentity port s
  | .pdDiscoverSvids port => Sys2Proof.Machine.execPdDiscoverSvids port s
  | .pdDiscoverModes port svid => Sys2Proof.Machine.execPdDiscoverModes port svid s
  | .pdEnterMode port svid vdo => Sys2Proof.Machine.execPdEnterMode port svid vdo s
  | .pdExitMode port => Sys2Proof.Machine.execPdExitMode port s
  | .pdAttention port svid vdo => Sys2Proof.Machine.execPdAttention port svid vdo s
  | .pdDpStatusUpdate port status => Sys2Proof.Machine.execPdDpStatusUpdate port status s
  | .pdDpConfigure port config => Sys2Proof.Machine.execPdDpConfigure port config s
  | .pdAccept port => Sys2Proof.Machine.execPdAccept port s
  | .pdReject port => Sys2Proof.Machine.execPdReject port s
  | .pdWait port => Sys2Proof.Machine.execPdWait port s
  | .pdSoftReset port => Sys2Proof.Machine.execPdSoftReset port s
  | .swapPr port => Sys2Proof.Machine.execSwapPr port s
  | .swapDr port => Sys2Proof.Machine.execSwapDr port s
  | .swapVconn port => Sys2Proof.Machine.execSwapVconn port s
  | .enterAvrath port split src peer ack => Sys2Proof.Machine.execEnterAvrath port split src peer ack s
  | .enterDp port pin src ack => Sys2Proof.Machine.execEnterDp port pin src ack s
  | .exitMode port => Sys2Proof.Machine.execExitMode port s
  | .hardReset port => Sys2Proof.Machine.execHardReset port s
  | .recaps port => Sys2Proof.Machine.execRecaps port s
  | .swapRetry port => Sys2Proof.Machine.execSwapRetry port s
  | .cblMuxWrite port state => Sys2Proof.Machine.execCblMuxWrite port state s
  | .cblTrip port mv ma => Sys2Proof.Machine.execCblTrip port mv ma s
  | .cblVconnOc port => Sys2Proof.Machine.execCblVconnOc port s
  | .cableCoreRestart => Sys2Proof.Machine.execCableCoreRestart s
  | .policyConfirm => Sys2Proof.Machine.execPolicyConfirm s
  | .trialTimeout => Sys2Proof.Machine.execTrialTimeout s
  | .imgRevert => Sys2Proof.Machine.execImgRevert s
  | .safeSourceTimeout port => Sys2Proof.Machine.execSafeSourceTimeout port s
  | .ceilingTimeout port => Sys2Proof.Machine.execCeilingTimeout port s
  | .status => Sys2Proof.Machine.execStatus s
  | .random length => Sys2Proof.Machine.execRandom length s
  | .nodeAlloc parent usage => Sys2Proof.Machine.execNodeAlloc parent usage s
  | .nodeInvalidate node => Sys2Proof.Machine.execNodeInvalidate node s
  | .invalidationPoint => Sys2Proof.Machine.execInvalidationPoint s
  | .slotZeroise slot => Sys2Proof.Machine.execSlotZeroise slot s
  | .nodeFree node => Sys2Proof.Machine.execNodeFree node s
  | .keyGenerate node slot => Sys2Proof.Machine.execKeyGenerate node slot s
  | .keyLoad blob slot => Sys2Proof.Machine.execKeyLoad blob slot s
  | .keyDrop slot => Sys2Proof.Machine.execKeyDrop slot s
  | .keyExport slot peer => Sys2Proof.Machine.execKeyExport slot peer s
  | .keyImport record sender node slot => Sys2Proof.Machine.execKeyImport record sender node slot s
  | .attest nonce => Sys2Proof.Machine.execAttest nonce s
  | .dataSeal slot data => Sys2Proof.Machine.execDataSeal slot data s
  | .dataOpen slot data => Sys2Proof.Machine.execDataOpen slot data s
  | .imageAuth image => Sys2Proof.Machine.execImageAuth image s
  | .svnCommit => Sys2Proof.Machine.execSvnCommit s
  | .ceilingSet port srcMv srcMa snkMv snkMa => Sys2Proof.Machine.execCeilingSet port srcMv srcMa snkMv snkMa s
  | .selftestCfg interval retry kinds => Sys2Proof.Machine.execSelftestCfg interval retry kinds s
  | .safeEnter => Sys2Proof.Machine.execSafeEnter s
  | .safeRelease => Sys2Proof.Machine.execSafeRelease s
  | .lcTransition target => Sys2Proof.Machine.execLcTransition target s
  | .returnPrepare reference => Sys2Proof.Machine.execReturnPrepare reference s
  | .ownerSet record => Sys2Proof.Machine.execOwnerSet record s
  | .testEnter => Sys2Proof.Machine.execTestEnter s
  | .zeroise => Sys2Proof.Machine.execZeroise s
  | .poolLoad chan => Sys2Proof.Machine.execPoolLoad chan s
  | .poolBusyTimeout chan => Sys2Proof.Machine.execPoolBusyTimeout chan s
  | .keyVaultEcc slot => Sys2Proof.Machine.execKeyVaultEcc slot s
  | .entropySample healthy => Sys2Proof.Machine.execEntropySample healthy s
  | .periodicSample gauge value => Sys2Proof.Machine.execPeriodicSample gauge value s
  | .snapshot gauge all => Sys2Proof.Machine.execSnapshot gauge all s
  | .clear gauge all => Sys2Proof.Machine.execClear gauge all s
  | .snapshotClear gauge all => Sys2Proof.Machine.execSnapshotClear gauge all s
  | .ringWrite => Sys2Proof.Machine.execRingWrite s
  | .btnPop => Sys2Proof.Machine.execBtnPop s
  | .log => Sys2Proof.Machine.execLog s
  | .sliceStart kind target => Sys2Proof.Machine.execSliceStart kind target s
  | .sliceEnd pass last worse signature => Sys2Proof.Machine.execSliceEnd pass last worse signature s
  | .sliceAbort => Sys2Proof.Machine.execSliceAbort s
  | .sliceRetry kind target => Sys2Proof.Machine.execSliceRetry kind target s
  | .sltForced kind target => Sys2Proof.Machine.execSltForced kind target s
  | .bypass => Sys2Proof.Machine.execBypass s
  | .idcode => Sys2Proof.Machine.execIdcode s
  | .samplePreload => Sys2Proof.Machine.execSamplePreload s
  | .usercode => Sys2Proof.Machine.execUsercode s
  | .extest => Sys2Proof.Machine.execExtest s
  | .extestPulse => Sys2Proof.Machine.execExtestPulse s
  | .extestTrain => Sys2Proof.Machine.execExtestTrain s
  | .testEngineAccess write offset value => Sys2Proof.Machine.execTestEngineAccess write offset value s
  | .thermalHigh sensor reading => Sys2Proof.Machine.execThermalHigh sensor reading s
  | .thermalTrip temp => Sys2Proof.Machine.execThermalTrip temp s
  | .thermalRelease temp => Sys2Proof.Machine.execThermalRelease temp s
  | .powerUp => Sys2Proof.Machine.execPowerUp s
  | .railGroupEnable => Sys2Proof.Machine.execRailGroupEnable s
  | .railFault readback => Sys2Proof.Machine.execRailFault readback s
  | .railRetry => Sys2Proof.Machine.execRailRetry s
  | .pgoodRise balls => Sys2Proof.Machine.execPgoodRise balls s
  | .pgoodFall => Sys2Proof.Machine.execPgoodFall s
  | .refLock => Sys2Proof.Machine.execRefLock s
  | .refFault => Sys2Proof.Machine.execRefFault s
  | .refLost => Sys2Proof.Machine.execRefLost s
  | .epmasAuthenticated ok slot fallback flash8d kernel board ledger => Sys2Proof.Machine.execEpmasAuthenticated ok slot fallback flash8d kernel board ledger s
  | .dramTrained ok gib => Sys2Proof.Machine.execDramTrained ok gib s
  | .startupSelftestDone failures => Sys2Proof.Machine.execStartupSelftestDone failures s
  | .firmwareAuthenticated ok slot fallback hash svn start => Sys2Proof.Machine.execFirmwareAuthenticated ok slot fallback hash svn start s
  | .standbyEnter key => Sys2Proof.Machine.execStandbyEnter key s
  | .wakeNFall => Sys2Proof.Machine.execWakeNFall s
  | .porn => Sys2Proof.Machine.execPorn s
  | .powerLoss => Sys2Proof.Machine.execPowerLoss s
  | .blkReset blk key => Sys2Proof.Machine.execBlkReset blk key s
  | .xspiRead m len => Sys2Proof.Machine.execXspiRead m len s
  | .xspiProgram m len => Sys2Proof.Machine.execXspiProgram m len s
  | .xspiErase m => Sys2Proof.Machine.execXspiErase m s
  | .xspiComplete data error => Sys2Proof.Machine.execXspiComplete data error s
  | .vinLoss => Sys2Proof.Machine.execVinLoss s
  | .ppsPulse => Sys2Proof.Machine.execPpsPulse s
  | .irqHpd head port => Sys2Proof.Machine.execIrqHpd head port s
  | .ackInterval port => Sys2Proof.Machine.execAckInterval port s
  | .policyHandover slot image sig => Sys2Proof.Machine.execPolicyHandover slot image sig s
  | .keyCall m addr => Sys2Proof.Machine.execKeyCall m addr s
  | .swapTimeout port => Sys2Proof.Machine.execSwapTimeout port s
  | .canRejoin ctrl => Sys2Proof.Machine.execCanRejoin ctrl s

end Sys2Proof.Machine
end

