-- ==== Sys2Proof/Machine/Tick.lean ====
section
/-! DEFINITION. What one tick of 250 ps does while no command waits (DESIGN CHOICE, log entry 1): time passes, and nothing else. -/
namespace Sys2Proof.Machine

/-- Parts of 10^-9 tick that the rate correction moves the Moment by in one tick (R36). -/
def State.rate (s : State) : Int := sgn 32 (s.raw .TMB_RATE_RATE_PPB)

/-- The Moment counts while the core domain is alive (R35, R36): one tick, and one more or none when the correction has gathered a
whole tick. Deadlines of self-test sets that stand still move with it (R489). -/
def tickProg : Prog :=
  .get fun s => .on s.coreAlive (
    let f := s.tmb.frac + s.rate
    let whole : Int := 1000000000
    let step : Nat := if whole ≤ f then 2 else if f ≤ -whole then 0 else 1
    .all [
      .act (.tmb fun t => { t with frac := if whole ≤ f then f - whole else if f ≤ -whole then f + whole else f }),
      .act (.moment (s.moment + step)),
      .act (.slt fun p => p.hold s.gated)])

def State.tick (s : State) : State := { tickProg.run s with clock := s.clock + 1 }

end Sys2Proof.Machine
end

