-- ==== Sys2Proof/Safety.lean ====
section
/-! DEFINITION. What a safe run is: the invariant of the state, kept by every step, and a block that never stops. -/
namespace Sys2Proof.Machine

/-- Rising positions, every value one that its field can hold (R10), at its field's position and of a field that has a shadow
(R8). -/
def RegFile.legalAll (f : RegFile) : Bool :=
  f.rising && f.all fun e => e.2.reg.isShadowed && e.2.reg.legal e.2.val && e.1 == regKey e.2.reg (keyInst e.1) (keyIdx e.1)

/-- What holds in every state that a run reaches: memory and register files in their canonical form, every stored value one that
its field can hold (R10), the staging within its 256 records (R477), the Moment and LOG_SEQ within their widths (R35, R476). -/
structure State.Inv (s : State) : Prop where
  mem : s.mem.wf = true
  regs : s.regs.wf = true
  shadows : s.shadows.legalAll = true
  taken : s.taken.legalAll = true
  staged : s.btn.staged.length ≤ stagingCap
  logSeq : s.btn.logSeq < 2 ^ 20
  moment : s.moment < 2 ^ 64

/-- `s'` follows `s` in one step that does not stop. -/
def State.Goes (s s' : State) : Prop := step s = .next s'

/-! ### How statements about commands say what changed -/

/-- The groups of the state beside the registers, the queue and the model's clock. -/
inductive Grp where
  | moment | shadows | taken | mem | bus | btn | dev | boot | tmb | chn | grn | sal | rak | lnk | tun | eth | brg | sig | can
  | dsp | cbl | key | gau | slt | drawn | out
  deriving DecidableEq, Repr

/-- A group is the same in both states; of memory: every byte reads the same. -/
def State.same (s t : State) : Grp → Prop
  | .moment => t.moment = s.moment
  | .shadows => t.shadows = s.shadows
  | .taken => t.taken = s.taken
  | .mem => ∀ a, t.mem.read a = s.mem.read a
  | .bus => t.bus = s.bus
  | .btn => t.btn = s.btn
  | .dev => t.dev = s.dev
  | .boot => t.boot = s.boot
  | .tmb => t.tmb = s.tmb
  | .chn => t.chn = s.chn
  | .grn => t.grn = s.grn
  | .sal => t.sal = s.sal
  | .rak => t.rak = s.rak
  | .lnk => t.lnk = s.lnk
  | .tun => t.tun = s.tun
  | .eth => t.eth = s.eth
  | .brg => t.brg = s.brg
  | .sig => t.sig = s.sig
  | .can => t.can = s.can
  | .dsp => t.dsp = s.dsp
  | .cbl => t.cbl = s.cbl
  | .key => t.key = s.key
  | .gau => t.gau = s.gau
  | .slt => t.slt = s.slt
  | .drawn => t.drawn = s.drawn
  | .out => t.out = s.out

/-- The frame of a command: outside the groups `gs` and the register fields that `may` selects, everything is as it was. -/
structure State.Keeps (s t : State) (gs : List Grp) (may : RegId → Nat → Nat → Bool) : Prop where
  queue : t.pending = s.pending
  clock : t.clock = s.clock
  groups : ∀ g, g ∉ gs → s.same t g
  regs : ∀ r i j, may r i j = false → spotFits i j = true → t.raw r i j = s.raw r i j

/-- No register field changes. -/
def noReg : RegId → Nat → Nat → Bool := fun _ _ _ => false

/-- Some of the listed fields, in any instance, change. -/
def anyOf (l : List RegId) : RegId → Nat → Nat → Bool := fun r _ _ => l.contains r

/-- The listed fields of one instance change, at any index. -/
def ofInst (l : List RegId) (n : Nat) : RegId → Nat → Nat → Bool := fun r i _ => l.contains r && i == n

/-- The log can take a record at once: no discards wait, and the staging has room (R477). -/
def State.canLog (s : State) : Prop := s.btn.discards = 0 ∧ s.btn.staged.length < stagingCap

/-- One record has been written (R476, R477): it is last in the staging, with the Moment, the LOG_SEQ and the chain position. -/
def State.Logged (s t : State) (blk code sev : Nat) (chan : Option Nat) (detail : Nat) : Prop :=
  t.btn.staged = s.btn.staged ++ [⟨s.moment, s.btn.logSeq % 2 ^ 20, s.raw .SYS_STATE_CHAIN_POS, blk, sev, code, chan, detail⟩] ∧
    t.btn.logSeq = (s.btn.logSeq + 1) % 2 ^ 20

/-- Steps counted by a machine: a thread's against its budget (R106), a core's STEPS register (R120). -/
def State.stepsOf (s : State) (m : Mach) : Nat :=
  match m with
  | .eng e t => (s.thread (threadKey e t)).steps
  | _ => (s.core (coreKey m)).steps

/-- The steps after an instruction of a given cost: STEPS of a core counts one, in 64 bits. -/
def State.stepsAfter (s : State) (m : Mach) (cost : Nat) : Nat :=
  match m with
  | .eng _ _ => s.stepsOf m + cost
  | _ => (s.stepsOf m + 1) % 2 ^ 64

/-- The address after a word: a core's PC has 48 bits (R137). -/
def pcAfter (m : Mach) (pc : Nat) : Nat :=
  match m with
  | .eng _ _ => pc + 4
  | _ => (pc + 4) % 2 ^ 48

/-- Machine `m` can issue `i` at `cost` steps: it is ready (R98), its word may be fetched (R105, R121, R124), the encoding is legal
(R138), and a thread's budget holds the steps (R106). -/
def State.Issues (s : State) (m : Mach) (i : Instr) (cost : Nat) : Prop :=
  s.ready m = true ∧ grnLegal i = true ∧
  match m with
  | .eng e t =>
    let h := s.thread (threadKey e t)
    h.lo ≤ h.pc ∧ h.pc < h.hi ∧ h.steps + cost ≤ h.budget
  | _ =>
    let c := s.core (coreKey m)
    c.pc % 4 = 0 ∧ c.allowsAll c.pc 4 10 = true

/-- The list of yielded threads after machine `m` has issued (R98, R163). -/
def State.yieldsAfter (s : State) (m : Mach) : List (Nat × List Nat) :=
  match m with
  | .eng e t => (s.grn.yields.map fun y => (y.1, y.2.filter (· != threadKey e t))).filter fun y => !y.2.isEmpty
  | _ => s.grn.yields

/-- Machine `m` has executed one instruction and nothing else has changed: every register of `m` reads as `regs` says (g0 as zero),
its pc is `pc`, its steps have grown by `cost`; the rest of a thread is as `own` makes it, a core's other registers are as they were. -/
structure State.Executed (s t : State) (m : Mach) (cost pc : Nat) (regs : Reg → Word) (own : Thread → Thread := id) : Prop where
  regs : ∀ r : Reg, t.reg m r = if r = 0 then 0 else regs r
  pc : t.pc m = pc
  steps : t.stepsOf m = s.stepsAfter m cost
  thread : ∀ e n, m = .eng e n → t.thread (threadKey e n) = { own (s.thread (threadKey e n)) with
    regs := (t.thread (threadKey e n)).regs, pc := (t.thread (threadKey e n)).pc, steps := (t.thread (threadKey e n)).steps }
  core : m.isData = false → t.core (coreKey m) = { s.core (coreKey m) with
    regs := (t.core (coreKey m)).regs, pc := (t.core (coreKey m)).pc, steps := (t.core (coreKey m)).steps
    fresh := false, wait := .none }
  threads : ∀ k, (∀ e n, m = .eng e n → k ≠ threadKey e n) → t.thread k = s.thread k
  cores : ∀ k, (m.isData = true ∨ k ≠ coreKey m) → t.core k = s.core k
  rest : t = { s with grn := { s.grn with threads := t.grn.threads, ctl := t.grn.ctl, yields := s.yieldsAfter m } }

/-- The registers of `m` with `rd` holding `v`. -/
def State.regsWith (s : State) (m : Mach) (rd : Reg) (v : Word) : Reg → Word := fun r => if r = rd then v else s.reg m r

end Sys2Proof.Machine
end

