-- ==== Sys2Proof/Certificates/Slice0/Obligations.lean ====
section
/-! DEFINITION. Statements for the provers: what each family of commands does, where it completes, and what it leaves alone. -/
open Sys2Proof Sys2Proof.Machine

/-- With a command in front of the queue, a step is exec of that command on the state with the queue's rest. -/
def Obligations.StepRunsFront : Prop :=
  ∀ (s : State) (i : Instr) (rest : List Instr), s.pending = i :: rest → step s = exec i { s with pending := rest }

/-- The model's choice of log entry 1: on an empty queue a step is one tick. Time passes (R35, R36), and nothing else happens. -/
def Obligations.StepTicks : Prop :=
  ∀ s : State, s.pending = [] → ∃ t, step s = .next t ∧ t.clock = s.clock + 1 ∧ t.pending = [] ∧
    (∀ g, g ∉ [Grp.moment, Grp.tmb, Grp.slt] → s.same t g) ∧ t.regs = s.regs ∧
    (s.coreAlive = true → s.raw .TMB_RATE_RATE_PPB = 0 → s.tmb.frac = 0 → s.moment + 1 < 2 ^ 64 → t.moment = s.moment + 1) ∧
    (s.coreAlive = false → t.moment = s.moment ∧ t.tmb = s.tmb ∧ t.slt = s.slt)

/-- Every command completes, and leaves the queue and the model's clock as they are. -/
def Obligations.CommandsKeepQueue : Prop :=
  ∀ (s : State) (i : Instr), ∃ t, exec i s = .next t ∧ t.pending = s.pending ∧ t.clock = s.clock

/-- The invariant of the state holds right after reset. -/
def Obligations.ResetInv : Prop := State.Inv State.reset

/-- Every step keeps the invariant. -/
def Obligations.StepKeepsInv : Prop := ∀ s t : State, s.Inv → step s = .next t → t.Inv

/-- Decode of encode is the instruction, for every legal grainer instruction of every machine. -/
def Obligations.DecodeEncode : Prop :=
  ∀ (m : Mach) (i : Instr), machOf i = some m → grnLegal i = true → decodeGrn m (encodeGrn i) = some i

/-- A word that decodes is the encoding of a legal instruction of that machine. -/
def Obligations.DecodeSound : Prop :=
  ∀ (m : Mach) (w : BitVec 32) (i : Instr), decodeGrn m w = some i → encodeGrn i = w ∧ grnLegal i = true ∧ machOf i = some m

/-- Words of the spec's worked examples. -/
def Obligations.DecodedWords : Prop :=
  let m : Mach := .eng 0 0
  decodeGrn m 0x60C08000#32 = some (.ldu m 6#5 0#5 2#2 false 0#11) ∧
  decodeGrn m 0x60E04004#32 = some (.ldu m 7#5 0#5 1#2 false 4#11) ∧
  decodeGrn m 0x48C780F2#32 = some (.ins m 6#5 7#5 32#6 15#6) ∧
  decodeGrn m 0x78C0C000#32 = some (.stk m 6#5 0#5 3#2 0#11) ∧
  decodeGrn m 0x05200008#32 = some (.addi m 9#5 0#5 8#16) ∧
  decodeGrn m 0x89004800#32 = some (.lookup m 8#5 0#5 9#5 0#3) ∧
  decodeGrn m 0x21000007#32 = some (.beq m 8#5 0#5 7#16) ∧
  decodeGrn m 0x7540C008#32 = some (.ldk m 10#5 0#5 3#2 false 8#11) ∧
  decodeGrn m 0x496A80D0#32 = some (.ext m 11#5 10#5 32#6 13#6) ∧
  decodeGrn m 0x8D8B1000#32 = some (.meter m 12#5 11#5 2#5 0#2 false false) ∧
  decodeGrn m 0x39820003#32 = some (.beqi m 12#5 2#5 3#16) ∧
  decodeGrn m 0x940A0000#32 = some (.enq m 10#5 false false false) ∧
  decodeGrn m 0xC0001000#32 = some (.done m) ∧
  decodeGrn m 0x9C000000#32 = some (.drop m 0#8) ∧
  decodeGrn m (0x13#6 ++ 10#5 ++ 7#5 ++ 8#5 ++ 0x1D0#11) = some (.scale m 10#5 7#5 8#5 16#6 true true true) ∧
  decodeGrn m (0x15#6 ++ 0#26) = none

/-- The ALU group of R140 on every machine, with the steps of the table; registers read as 64-bit unsigned (`toNat`) or signed
(`toInt`) numbers. -/
def Obligations.AluResults : Prop :=
  ∀ (s : State) (m : Mach) (rd rs1 rs2 : Reg),
    let a := s.reg m rs1
    let b := s.reg m rs2
    let gives (i : Instr) (cost : Nat) (v : Word) : Prop := s.Issues m i cost →
      ∃ t, exec i s = .next t ∧ s.Executed t m cost (pcAfter m (s.pc m)) (s.regsWith m rd v)
    gives (.add m rd rs1 rs2) 1 (BitVec.ofNat 64 (a.toNat + b.toNat)) ∧
    gives (.sub m rd rs1 rs2) 1 (BitVec.ofInt 64 (a.toNat - b.toNat)) ∧
    gives (.grnAnd m rd rs1 rs2) 1 (a &&& b) ∧
    gives (.grnOr m rd rs1 rs2) 1 (a ||| b) ∧
    gives (.grnXor m rd rs1 rs2) 1 (a ^^^ b) ∧
    gives (.andn m rd rs1 rs2) 1 (a &&& ~~~b) ∧
    gives (.sll m rd rs1 rs2) 1 (BitVec.ofNat 64 (a.toNat * 2 ^ (b.toNat % 64))) ∧
    gives (.srl m rd rs1 rs2) 1 (BitVec.ofNat 64 (a.toNat / 2 ^ (b.toNat % 64))) ∧
    gives (.sra m rd rs1 rs2) 1 (BitVec.ofInt 64 (a.toInt / 2 ^ (b.toNat % 64))) ∧
    gives (.ror m rd rs1 rs2) 1 (a.rotateRight (b.toNat % 64)) ∧
    gives (.mul m rd rs1 rs2) 2 (BitVec.ofNat 64 (a.toNat * b.toNat)) ∧
    gives (.mulhu m rd rs1 rs2) 2 (BitVec.ofNat 64 (a.toNat * b.toNat / 2 ^ 64)) ∧
    gives (.mulh m rd rs1 rs2) 2 (BitVec.ofInt 64 (a.toInt * b.toInt / 2 ^ 64)) ∧
    gives (.divu m rd rs1 rs2) 8 (BitVec.ofNat 64 (if b = 0 then 2 ^ 64 - 1 else a.toNat / b.toNat)) ∧
    gives (.div m rd rs1 rs2) 8 (BitVec.ofInt 64 (if b = 0 then -1 else a.toInt.tdiv b.toInt)) ∧
    gives (.remu m rd rs1 rs2) 8 (BitVec.ofNat 64 (if b = 0 then a.toNat else a.toNat % b.toNat)) ∧
    gives (.rem m rd rs1 rs2) 8 (BitVec.ofInt 64 (if b = 0 then a.toInt else a.toInt.tmod b.toInt)) ∧
    gives (.min m rd rs1 rs2) 1 (BitVec.ofInt 64 (min a.toInt b.toInt)) ∧
    gives (.max m rd rs1 rs2) 1 (BitVec.ofInt 64 (max a.toInt b.toInt)) ∧
    gives (.minu m rd rs1 rs2) 1 (BitVec.ofNat 64 (min a.toNat b.toNat)) ∧
    gives (.maxu m rd rs1 rs2) 1 (BitVec.ofNat 64 (max a.toNat b.toNat)) ∧
    gives (.popc m rd rs1) 1 (BitVec.ofNat 64 ((List.range 64).filter fun i => a.getLsbD i).length) ∧
    (∀ n : Nat, n ≤ 64 → 2 ^ n ≤ 2 * a.toNat + 1 → a.toNat < 2 ^ n → gives (.clz m rd rs1) 1 (BitVec.ofNat 64 (64 - n)))

/-- R141, R142 and R144 on every machine. A field of `len1 + 1` bits at `pos` has to fit the register: Issues holds for those. -/
def Obligations.ImmediateResults : Prop :=
  ∀ (s : State) (m : Mach) (rd rs1 : Reg) (imm : BitVec 16) (kind k : BitVec 2) (amt pos len1 : BitVec 6),
    let a := s.reg m rs1
    let d := s.reg m rd
    let byte (x : Word) (i : Nat) : Nat := x.toNat / 2 ^ (8 * i) % 256
    let len := len1.toNat + 1
    let field : Nat := a.toNat / 2 ^ pos.toNat % 2 ^ len
    let gives (i : Instr) (v : Word) : Prop := s.Issues m i 1 →
      ∃ t, exec i s = .next t ∧ s.Executed t m 1 (pcAfter m (s.pc m)) (s.regsWith m rd v)
    gives (.addi m rd rs1 imm) (BitVec.ofInt 64 (a.toInt + imm.toInt)) ∧
    gives (.andi m rd rs1 imm) (a &&& BitVec.ofNat 64 imm.toNat) ∧
    gives (.ori m rd rs1 imm) (a ||| BitVec.ofNat 64 imm.toNat) ∧
    gives (.xori m rd rs1 imm) (a ^^^ BitVec.ofNat 64 imm.toNat) ∧
    gives (.shi m rd rs1 kind amt) (match kind.toNat with
      | 0 => BitVec.ofNat 64 (a.toNat * 2 ^ amt.toNat)
      | 1 => BitVec.ofNat 64 (a.toNat / 2 ^ amt.toNat)
      | 2 => BitVec.ofInt 64 (a.toInt / 2 ^ amt.toNat)
      | _ => a.rotateRight amt.toNat) ∧
    gives (.lih m rd k imm) ((d &&& ~~~(0xFFFF#64 <<< (16 * k.toNat))) ||| (imm.zeroExtend 64 <<< (16 * k.toNat))) ∧
    gives (.swapH m rd rs1) (BitVec.ofNat 64 (byte a 0 * 256 + byte a 1)) ∧
    gives (.swapW m rd rs1) (BitVec.ofNat 64 (((byte a 0 * 256 + byte a 1) * 256 + byte a 2) * 256 + byte a 3)) ∧
    gives (.swapD m rd rs1) (BitVec.ofNat 64 (((((((byte a 0 * 256 + byte a 1) * 256 + byte a 2) * 256 + byte a 3) * 256 + byte a 4) * 256 +
      byte a 5) * 256 + byte a 6) * 256 + byte a 7)) ∧
    gives (.ext m rd rs1 pos len1) (BitVec.ofNat 64 field) ∧
    gives (.exts m rd rs1 pos len1) (BitVec.ofInt 64 (if field < 2 ^ (len - 1) then (field : Int) else (field : Int) - 2 ^ len)) ∧
    gives (.ins m rd rs1 pos len1) ((d &&& ~~~(BitVec.ofNat 64 (2 ^ len - 1) <<< pos.toNat)) |||
      ((a &&& BitVec.ofNat 64 (2 ^ len - 1)) <<< pos.toNat))

/-- SCALE (R146), with the pair it writes, and FCVT (R147), with the cases of its conversion that need no rounding. -/
def Obligations.ScaleAndConvert : Prop :=
  ∀ (s : State) (m : Mach) (rd rs1 rs2 : Reg),
    (∀ (w : BitVec 6) (so si cf : Bool), s.Issues m (.scale m rd rs1 rs2 w so si cf) 2 →
      let x : Int := if si then (s.reg m rs1).toInt else (s.reg m rs1).toNat
      let mul : Int := ((s.reg m rs2).extractLsb' 0 32).toInt
      let shift : Nat := ((s.reg m rs2).extractLsb' 32 6).toNat
      let width : Nat := if w = 0 then 64 else w.toNat
      let r : Int := x * mul / 2 ^ shift + (s.reg m (rs2 + 1)).toInt
      let lo : Int := if so then -2 ^ (width - 1) else 0
      let hi : Int := if so then 2 ^ (width - 1) - 1 else 2 ^ width - 1
      let y : Int := min (max r lo) hi
      ∃ t, exec (.scale m rd rs1 rs2 w so si cf) s = .next t ∧ s.Executed t m 2 (pcAfter m (s.pc m)) fun g =>
        if cf = true ∧ g = rd + 1 then (if y = r then 0 else 1) else if g = rd then BitVec.ofInt 64 y else s.reg m g) ∧
    (∀ src dst rnd : BitVec 2, s.Issues m (.fcvt m rd rs1 src dst rnd) 2 →
      ∃ (t : State) (v : Word), exec (.fcvt m rd rs1 src dst rnd) s = .next t ∧
        s.Executed t m 2 (pcAfter m (s.pc m)) (s.regsWith m rd v) ∧
        let a := s.reg m rs1
        let nan16 : Prop := a.toNat % 2 ^ 15 > 0x7C00
        let nan32 : Prop := a.toNat % 2 ^ 31 > 0x7F800000
        (src = dst → v = if src = 2 then BitVec.ofNat 64 (a.toNat % 2 ^ 16) else if src = 3 then BitVec.ofNat 64 (a.toNat % 2 ^ 32) else a) ∧
        (src = 1 → dst = 0 → v = if a.toInt < 0 then 0 else a) ∧
        (src = 0 → dst = 1 → v = if a.toNat < 2 ^ 63 then a else BitVec.ofNat 64 (2 ^ 63 - 1)) ∧
        ((src = 2 ∧ nan16 ∨ src = 3 ∧ nan32) → (dst = 0 ∨ dst = 1 → v = 0) ∧
          (src = 2 → dst = 3 → v = 0x7FC00000#64) ∧ (src = 3 → dst = 2 → v = 0x7E00#64)) ∧
        (src = 0 → dst = 3 → a.toNat < 2 ^ 24 → a.toNat = 0 ∨ ∃ e f : Nat, a.toNat = 2 ^ e + f ∧ f < 2 ^ e ∧
          v = BitVec.ofNat 64 ((127 + e) * 2 ^ 23 + f * 2 ^ (23 - e))) ∧
        (dst = 0 ∨ dst = 1 ∨ v.toNat < 2 ^ 32))

/-- R143 with R105 and R137: a transfer completes when its target may be fetched. -/
def Obligations.ControlTransfers : Prop :=
  ∀ (s : State) (m : Mach) (ra rb : Reg) (imm : BitVec 5) (off : BitVec 16) (off21 : BitVec 21),
    let a := s.reg m ra
    let b := s.reg m rb
    let allowed (t : Nat) : Prop := t % 4 = 0 ∧ match m with
      | .eng e n => (s.thread (threadKey e n)).lo ≤ t ∧ t < (s.thread (threadKey e n)).hi
      | _ => True
    let space : Nat := if m.isData then 64 else 48
    let at_ (o : Int) : Nat := ((s.pc m + 4 * o) % 2 ^ space).toNat
    let branches (i : Instr) (cond : Prop) : Prop := s.Issues m i 1 →
      (cond → allowed (at_ off.toInt) → ∃ t, exec i s = .next t ∧ s.Executed t m 1 (at_ off.toInt) (s.reg m)) ∧
      (¬ cond → ∃ t, exec i s = .next t ∧ s.Executed t m 1 (pcAfter m (s.pc m)) (s.reg m))
    let jumps (i : Instr) (target : Nat) : Prop := s.Issues m i 1 → allowed target →
      ∃ t, exec i s = .next t ∧ s.Executed t m 1 target (s.regsWith m ra (BitVec.ofNat 64 (s.pc m + 4)))
    branches (.beq m ra rb off) (a = b) ∧ branches (.bne m ra rb off) (a ≠ b) ∧
    branches (.blt m ra rb off) (a.toInt < b.toInt) ∧ branches (.bge m ra rb off) (a.toInt ≥ b.toInt) ∧
    branches (.bltu m ra rb off) (a.toNat < b.toNat) ∧ branches (.bgeu m ra rb off) (a.toNat ≥ b.toNat) ∧
    branches (.beqi m ra imm off) (a.toInt = imm.toInt) ∧ branches (.bnei m ra imm off) (a.toInt ≠ imm.toInt) ∧
    jumps (.jal m ra off21) (at_ off21.toInt) ∧
    jumps (.jalr m ra rb off) ((b.toNat + off.toInt) % 2 ^ space).toNat

/-- R145 with R101 to R104: LDU, LDC, LDT and LDK complete. -/
def Obligations.ThreadLoads : Prop :=
  ∀ (s : State) (e n : Nat) (rd rs1 : Reg) (size : BitVec 2) (sign : Bool) (imm : BitVec 11),
    let m : Mach := .eng e n
    let h := s.thread (threadKey e n)
    let a : Nat := ((s.reg m rs1).toNat + imm.toInt % 2 ^ 64).toNat % 2 ^ 64
    let len := 2 ^ size.toNat
    let value (bs : List Byte) : Word :=
      if sign = true ∧ 2 ^ (8 * len - 1) ≤ leNat bs then BitVec.ofInt 64 (leNat bs - 2 ^ (8 * len)) else BitVec.ofNat 64 (leNat bs)
    let loads (i : Instr) (bs : List Byte) (own : Thread → Thread) : Prop := s.Issues m i 1 → a % len = 0 →
      ∃ t, exec i s = .next t ∧ s.Executed t m 1 (s.pc m + 4) (s.regsWith m rd (value bs)) own
    (a + len ≤ 0x140 → loads (.ldu m rd rs1 size sign imm) (h.u.reads a len) id) ∧
    (a + len ≤ 0x400 → loads (.ldk m rd rs1 size sign imm) (h.k.reads a len) id) ∧
    (a + len ≤ 0x140 → loads (.ldc m rd rs1 size sign imm) ((List.range len).map fun i =>
      if a + i < 0x40 then h.entry.getD (a + i) 0 else s.mem.read (s.annexOf h.chan h.ver + (a + i - 0x40))) id) ∧
    (∀ d : Desc, a / 2 ^ 32 < 8 → h.descs.getD (a / 2 ^ 32) emptyDesc = d → d.kind = 1 → 0 < d.entries → 0 < d.resWords → d.resWords ≤ 8 →
      d.keyWords ≤ 8 → a % 2 ^ 32 + len ≤ d.entries * d.resWords * 8 → s.inDram (d.base + a % 2 ^ 32) len = true →
      loads (.ldt m rd rs1 size sign imm) (s.mem.reads (d.base + a % 2 ^ 32) len) fun x => { x with wait := .table })

/-- R145 with R101, R102 and R76: STU, STC and STK complete; the bytes stored to, and no others, change. -/
def Obligations.ThreadStores : Prop :=
  ∀ (s : State) (e n : Nat) (rs rs1 : Reg) (size : BitVec 2) (imm : BitVec 11),
    let m : Mach := .eng e n
    let h := s.thread (threadKey e n)
    let a : Nat := s.effAddr m rs1 imm
    let len := 2 ^ size.toNat
    let bs : List Byte := leBytes len (s.reg m rs).toNat
    (s.Issues m (.stu m rs rs1 size imm) 1 → a % len = 0 →
      (a + len ≤ 0x100 ∨ (0x118 ≤ a ∧ a + len ≤ 0x11E) ∨ (0x128 ≤ a ∧ a + len ≤ 0x130)) →
      ∃ t, exec (.stu m rs rs1 size imm) s = .next t ∧
        s.Executed t m 1 (s.pc m + 4) (s.reg m) (fun x => { x with u := h.u.writes a bs }) ∧
        ∀ x, x < a ∨ a + len ≤ x → (t.thread (threadKey e n)).u.read x = h.u.read x) ∧
    (s.Issues m (.stk m rs rs1 size imm) 1 → a % len = 0 → a + len ≤ 0x400 →
      ∃ t, exec (.stk m rs rs1 size imm) s = .next t ∧
        s.Executed t m 1 (s.pc m + 4) (s.reg m) (fun x => { x with k := h.k.writes a bs }) ∧
        ∀ x, x < a ∨ a + len ≤ x → (t.thread (threadKey e n)).k.read x = h.k.read x) ∧
    (s.Issues m (.stc m rs rs1 size imm) 1 → a % len = 0 → 0x40 ≤ a → a + len ≤ 0x140 →
      s.inDram (s.annexOf h.chan h.ver + (a - 0x40)) len = true →
      ∃ t, exec (.stc m rs rs1 size imm) s = .next t ∧
        t.mem = s.mem.writes (s.annexOf h.chan h.ver + (a - 0x40)) bs ∧
        (∀ x, x < s.annexOf h.chan h.ver + (a - 0x40) ∨ s.annexOf h.chan h.ver + (a - 0x40) + len ≤ x → t.mem.read x = s.mem.read x) ∧
        s.Executed { t with mem := s.mem } m 1 (s.pc m + 4) (s.reg m))

/-- Read after write, of memory and of the register files. -/
def Obligations.ReadAfterWrite : Prop :=
  (∀ (m : Memory) (a : Nat) (bs : List Byte), m.wf = true → (m.writes a bs).wf = true ∧
    (∀ i, i < bs.length → (m.writes a bs).read (a + i) = bs.getD i 0) ∧
    (∀ x, x < a ∨ a + bs.length ≤ x → (m.writes a bs).read x = m.read x)) ∧
  (∀ (f : RegFile) (r : RegId) (i j v : Nat), f.wf = true → i < 2 ^ 8 → j < 2 ^ 24 → (f.write r i j v).wf = true ∧
    ((f.write r i j v).read r i j = if r.legal v then v else f.read r i j) ∧
    ∀ (r' : RegId) (i' j' : Nat), i' < 2 ^ 8 → j' < 2 ^ 24 → ¬ (r' = r ∧ i' = i ∧ j' = j) → (f.write r i j v).read r' i' j' = f.read r' i' j')

/-- The matching rules of R148 to R150, as the result of a search of a descriptor's table. -/
def Obligations.TableSearch : Prop :=
  ∀ (s : State) (d : Desc) (key : Nat),
    let key_ (i : Nat) : Nat := s.keyAt (d.base + i * d.stride) d.keyWords
    let high (i : Nat) : Nat := s.keyAt (d.base + i * d.stride + 8 * d.keyWords) d.keyWords
    let width := 64 * d.keyWords
    let matches_ (i l : Nat) : Prop := i < d.entries ∧ s.load (d.base + i * d.stride + 8 * d.keyWords) 8 = l ∧ l ≤ width ∧
      key_ i % 2 ^ (width - l) = 0 ∧ key_ i / 2 ^ (width - l) = key / 2 ^ (width - l)
    let best (i : Nat) : Prop := i < d.entries ∧ key_ i ≤ key ∧
      ∀ j, j < d.entries → key_ j ≤ key → key_ j < key_ i ∨ (key_ j = key_ i ∧ i ≤ j)
    (d.kind = 1 → s.search d key = if key < d.entries then some key else none) ∧
    (d.kind = 2 → (∀ i, s.search d key = some i ↔ i < d.entries ∧ key_ i = key ∧ ∀ j, j < i → key_ j ≠ key) ∧
      (s.search d key = none ↔ ∀ i, i < d.entries → key_ i ≠ key)) ∧
    (d.kind = 3 → (∀ i, s.search d key = some i ↔ ∃ l, matches_ i l ∧ ∀ j l', matches_ j l' → l' < l ∨ (l' = l ∧ i ≤ j)) ∧
      (s.search d key = none ↔ ∀ i l, ¬ matches_ i l)) ∧
    (d.kind = 4 → (∀ i, s.search d key = some i ↔ best i ∧ key ≤ high i) ∧
      (s.search d key = none ↔ ∀ i, best i → high i < key))

/-- R148, R151 with R311, and R152 with R37 to R39. -/
def Obligations.LookupMeterStamp : Prop :=
  ∀ (s : State) (e n : Nat) (rd rs1 rs2 : Reg),
    let m : Mach := .eng e n
    let k := threadKey e n
    let h := s.thread k
    (∀ (slot : BitVec 3) (d : Desc), s.Issues m (.lookup m rd rs1 rs2 slot) 4 → h.descs.getD slot.toNat emptyDesc = d → d.empty = false →
      (d.kind = 1 ∨ ((s.reg m rs1).toNat % 8 = 0 ∧ (s.reg m rs1).toNat + 8 * d.keyWords ≤ 0x400)) →
      (s.reg m rs2).toNat % 8 = 0 → (s.reg m rs2).toNat + 8 * d.resWords ≤ 0x400 →
      let key := if d.kind = 1 then (s.reg m rs1).toNat
        else keyNumber ((List.range d.keyWords).map fun i => leNat (h.k.reads ((s.reg m rs1).toNat + 8 * i) 8))
      ∃ t, exec (.lookup m rd rs1 rs2 slot) s = .next t ∧
        (s.search d key = none → s.Executed t m 4 (s.pc m + 4) (s.regsWith m rd 0) fun x => { x with wait := .table }) ∧
        (∀ i, s.search d key = some i → s.inDram (d.base + i * d.stride) d.stride = true →
          s.Executed t m 4 (s.pc m + 4) (s.regsWith m rd (BitVec.ofNat 64 (i + 1))) fun x =>
            { x with k := h.k.writes (s.reg m rs2).toNat (s.mem.reads (d.base + i * d.stride + d.resultAt) (8 * d.resWords)), wait := .table })) ∧
    (∀ (colour : BitVec 2) (own aware : Bool), s.Issues m (.meter m rd rs1 rs2 colour own aware) 2 →
      let x := if own then eMeter h.entry else (s.reg m rs1).toNat % 2 ^ 14
      let b := ((s.reg m rs2).toNat % 2 ^ 16 : Int) * 32000000
      let cin := if aware then colour.toNat else 0
      let dt := s.moment - (s.bucket x).last
      let tc := accrue (s.bucket x).c (s.raw .RAK_METER_CIR_KBPS 0 x) dt (s.raw .RAK_METER_CBS 0 x)
      let tp := accrue (s.bucket x).p (s.raw .RAK_METER_PIR_KBPS 0 x) dt (s.raw .RAK_METER_PBS 0 x)
      ∃ (t : State) (c : Nat), exec (.meter m rd rs1 rs2 colour own aware) s = .next t ∧
        s.Executed { t with rak := s.rak, regs := s.regs } m 2 (s.pc m + 4) (s.regsWith m rd (BitVec.ofNat 64 c)) ∧
        (s.raw .RAK_METER_TYPE 0 x ≠ 1 → c = 3 ∧ t.rak = s.rak ∧ t.regs = s.regs) ∧
        (s.raw .RAK_METER_TYPE 0 x = 1 → t.rak = { s.rak with meters := t.rak.meters } ∧
          s.Keeps t [.grn, .rak] (anyOf [.RAK_METER_STAT_GREEN, .RAK_METER_STAT_YELLOW, .RAK_METER_STAT_RED]) ∧
          (s.raw .RAK_METER_ALG 0 x = 0 → c = if cin = 2 ∨ tp < b then 2 else if cin = 1 ∨ tc < b then 1 else 0) ∧
          (s.raw .RAK_METER_ALG 0 x = 1 → c = if cin = 0 ∧ b ≤ tc then 0 else if cin ≠ 2 ∧ b ≤ tp then 1 else 2))) ∧
    (s.Issues m (.stamp m rd) 1 →
      let seq := (s.tmb.seqs.get? (0x06C + e)).getD 0
      ∃ t, exec (.stamp m rd) s = .next t ∧
        s.Executed { t with tmb := s.tmb } m 1 (s.pc m + 4) (fun r =>
          if r = rd + 1 then BitVec.ofNat 64 (seq % 2 ^ 20 + ((0x06C + e) * 8 + s.raw .SYS_STATE_CHAIN_POS) * 2 ^ 20)
          else if r = rd then BitVec.ofNat 64 s.moment else s.reg m r) ∧
        t.tmb = { s.tmb with seqs := s.tmb.seqs.put (0x06C + e) ((seq + 1) % 2 ^ 20) }) ∧
    (∀ m' : Mach, m'.isData = false → s.Issues m' (.stamp m' rd) 1 →
      ∃ t, exec (.stamp m' rd) s = .next t ∧ s.Executed t m' 1 (pcAfter m' (s.pc m')) fun r =>
        if r = rd + 1 then 0xFFFFFFFF#64 else if r = rd then BitVec.ofNat 64 s.moment else s.reg m' r)

/-- R153 to R155, R157, R158 on the thread's own unit. -/
def Obligations.UnitFate : Prop :=
  ∀ (s : State) (e n : Nat) (rd rs1 rs2 : Reg) (own saf : Bool),
    let m : Mach := .eng e n
    let k := threadKey e n
    let h := s.thread k
    let route := if own then eRoute h.entry else (s.reg m rs1).toNat % 2 ^ 32
    let q := bits route 21 8
    let detail (i : Instr) : Nat := faultDetail k { h with steps := h.steps + 1 } (encodeGrn i).toNat
    (∀ f : Flow, s.Issues m (.enq m rs1 own saf false) 1 → s.sal.units.get? h.unit = some f → h.enq = false → s.late k = false →
      h.header.1 ≤ min 256 (leNat (h.u.reads 0x110 4)) → h.header.2.1 ≤ 255 → h.header.2.1 + h.header.2.2 ≤ 256 →
      (f.slot = none → s.enqCheck q (bits route 4 0) f.flakes k false = 0 → s.wouldSpill q f.flakes = false → s.sal.soft.headD 0 ≠ 6 →
        ∃ t, exec (.enq m rs1 own saf false) s = .next t ∧ s.Keeps t [.grn, .sal] noReg ∧
          t.queue q = s.queue q ++ [⟨h.unit, f.flakes, false, false, false, 0, 0, false⟩] ∧
          (∃ g, t.sal.units.get? h.unit = some g ∧ g.place = .queued q ∧ g.enqueued = true ∧ g.bytes = f.bytes ∧
            g.head = h.u.reads h.header.2.1 h.header.2.2 ∧ g.skip = h.header.1 ∧ g.saf = (f.saf || saf)) ∧
          (t.thread k).enq = true ∧ (t.thread k).pc = h.pc + 4 ∧ (t.thread k).steps = h.steps + 1 ∧ (t.thread k).regs = h.regs) ∧
      (∀ x, f.slot = some x →
        ∃ t, exec (.enq m rs1 own saf false) s = .next t ∧ s.Keeps t [.grn, .sal] noReg ∧ t.queue q = s.queue q ∧
          (t.thread k).enq = true ∧ (t.thread k).heldEnq = some (route, saf, false) ∧ (t.thread k).pc = h.pc + 4 ∧
          (t.thread k).regs = h.regs)) ∧
    (s.Issues m (.enq m rs1 own saf false) 1 → h.enq = true → h.header.1 ≤ min 256 (leNat (h.u.reads 0x110 4)) →
      h.header.2.1 ≤ 255 → h.header.2.1 + h.header.2.2 ≤ 256 → s.canLog →
      ∃ t, exec (.enq m rs1 own saf false) s = .next t ∧
        s.Logged t 0x04 0x0009 2 (some h.chan) (detail (.enq m rs1 own saf false)) ∧
        s.Executed { t with btn := s.btn } m 1 (s.pc m + 4) (s.reg m)) ∧
    (∀ kind : BitVec 3, s.Issues m (.emit m rd rs1 rs2 kind) 2 → s.late k = false →
      0 < (s.reg m rs2).toNat → (s.reg m rs2).toNat ≤ 1024 → (s.reg m rs1).toNat + (s.reg m rs2).toNat ≤ 0x400 →
      (h.emitted.length < 8 → ∃ t, exec (.emit m rd rs1 rs2 kind) s = .next t ∧ s.Executed t m 2 (s.pc m + 4) (s.reg m) fun x =>
        { x with emitted := h.emitted ++ [⟨(s.reg m rd).toNat % 2 ^ 32, kind.toNat, h.k.reads (s.reg m rs1).toNat (s.reg m rs2).toNat⟩] }) ∧
      (8 ≤ h.emitted.length → s.canLog → ∃ t, exec (.emit m rd rs1 rs2 kind) s = .next t ∧
        s.Logged t 0x04 0x000A 2 (some h.chan) (faultDetail k { h with steps := h.steps + 2 } (encodeGrn (.emit m rd rs1 rs2 kind)).toNat) ∧
        s.Executed { t with btn := s.btn } m 2 (s.pc m + 4) (s.reg m))) ∧
    (∀ (func : BitVec 2) (f : Flow), s.Issues m (.mark m func) 1 → s.sal.units.get? h.unit = some f →
      ∃ (t : State) (g : Flow), exec (.mark m func) s = .next t ∧ s.Executed { t with sal := s.sal } m 1 (s.pc m + 4) (s.reg m) ∧
        t.sal.queues = s.sal.queues ∧ t.sal.units.get? h.unit = some g ∧
        g = { f with bad := f.bad || func.getLsbD 0, trace := f.trace || (func.getLsbD 1 && !h.enq) }) ∧
    (∀ (on : Bool) (f : Flow), s.Issues m (.grnSeal m on) 1 → s.sal.units.get? h.unit = some f →
      ∃ t, exec (.grnSeal m on) s = .next t ∧ s.Executed { t with sal := s.sal } m 1 (s.pc m + 4) (s.reg m) ∧
        t.sal.queues = s.sal.queues ∧ t.sal.units.get? h.unit = some (if h.enq then f else { f with sealReq := on }))

/-- R156, R163, R99, R100 and R154: how a thread retires. -/
def Obligations.ThreadEnds : Prop :=
  ∀ (s : State) (e n : Nat),
    let m : Mach := .eng e n
    let k := threadKey e n
    let h := s.thread k
    let a := s.statsAddr h.chan
    (∀ reason : BitVec 8, s.Issues m (.drop m reason) 1 → s.flag .TRC_CFG_ENABLE = false → s.mem.wf = true → s.inDram a 32 = true →
      h.enq = false →
      ∃ t, exec (.drop m reason) s = .next t ∧ (t.thread k).busy = false ∧ (t.thread k).k = h.k ∧
        t.sal.units = s.sal.units.del h.unit ∧ t.load (a + 8) 8 = min (s.load (a + 8) 8 + 1) (2 ^ 64 - 1) ∧
        t.load (a + 22) 2 = 0x8000 + reason.toNat ∧
        ∀ x, x < a + 8 ∨ (a + 16 ≤ x ∧ x < a + 22) ∨ a + 24 ≤ x → t.mem.read x = s.mem.read x) ∧
    (s.Issues m (.done m) 1 → s.flag .TRC_CFG_ENABLE = false → s.late k = false →
      (s.ownSlot k = none → h.emitted = [] → ∃ t, exec (.done m) s = .next t ∧ (t.thread k).busy = false ∧ (t.thread k).k = h.k ∧
        (∀ x, t.mem.read x = s.mem.read x) ∧ t.sal.queues = s.sal.queues ∧
        (h.enq = true → t.sal.units = s.sal.units) ∧ (h.enq = false → t.sal.units = s.sal.units.del h.unit)) ∧
      (∀ (x : Nat) (slot : HSlot) (f : Flow), s.ownSlot k = some (x, slot) → s.grn.harvest.get? x = some slot → slot.gap = false →
        s.sal.units.get? h.unit = some f →
        ∃ t, exec (.done m) s = .next t ∧ (t.thread k).busy = false ∧ (∀ y, t.mem.read y = s.mem.read y) ∧
          t.grn.harvest.get? x = some { slot with retired := true, enq := h.heldEnq, emitted := h.emitted, msgs := h.heldMsgs } ∧
          t.sal.units.get? h.unit = some { f with place := .harvested } ∧ t.sal.queues = s.sal.queues))

/-- R159 and R161 on threads and cores. -/
def Obligations.MoveAndMessage : Prop :=
  (∀ (s : State) (e n : Nat) (rd rs1 rs2 : Reg),
    let m : Mach := .eng e n
    let k := threadKey e n
    let h := s.thread k
    let d := (s.reg m rd).toNat
    let a := (s.reg m rs1).toNat
    let len := (s.reg m rs2).toNat
    (∀ src : BitVec 3, s.Issues m (.move m rd rs1 rs2 3#3 src) (1 + (len + 63) / 64) → src = 0#3 ∨ src = 1#3 ∨ src = 3#3 →
      len ≤ 1024 → len % 8 = 0 → a % 8 = 0 → d % 8 = 0 → d + len ≤ 0x400 → a + len ≤ (if src = 3#3 then 0x400 else 0x140) →
      let bs : List Byte := if src = 0#3 then h.u.reads a len else if src = 3#3 then h.k.reads a len else
        (List.range len).map fun i => if a + i < 0x40 then h.entry.getD (a + i) 0 else s.mem.read (s.annexOf h.chan h.ver + (a + i - 0x40))
      ∃ t, exec (.move m rd rs1 rs2 3#3 src) s = .next t ∧
        s.Executed t m (1 + (len + 63) / 64) (s.pc m + 4) (s.reg m) (fun x => { x with k := h.k.writes d bs }) ∧
        ∀ x, x < d ∨ d + len ≤ x → (t.thread k).k.read x = h.k.read x) ∧
    (∀ blk : BitVec 8, s.Issues m (.msg m rd rs1 rs2 blk) 1 → 8 ≤ len → len ≤ 64 → a + len ≤ 0x400 → len % 8 = 0 → a % 8 = 0 →
      let x : Message := ⟨blk.toNat, h.k.reads a len, some h.chan, k, h.entry⟩
      (h.credits.contains blk.toNat = false → s.creditFree blk.toNat = false → ∃ t, exec (.msg m rd rs1 rs2 blk) s = .next t ∧
        s.Executed t m 1 (s.pc m + 4) (s.regsWith m rd 1)) ∧
      (h.credits.contains blk.toNat = false → s.creditFree blk.toNat = true → s.ordered k = true →
        ∃ t, exec (.msg m rd rs1 rs2 blk) s = .next t ∧
        s.Executed t m 1 (s.pc m + 4) (s.regsWith m rd 0) fun y => { y with heldMsgs := h.heldMsgs ++ [x] }) ∧
      (h.credits.contains blk.toNat = false → s.creditFree blk.toNat = true → s.ordered k = false →
        ∃ t, exec (.msg m rd rs1 rs2 blk) s = .next t ∧ t.grn.msgs = s.grn.msgs ++ [x] ∧
          s.Executed { t with grn := { t.grn with msgs := s.grn.msgs } } m 1 (s.pc m + 4) (s.regsWith m rd 0)))) ∧
  (∀ (s : State) (n : Nat) (rd rs1 rs2 : Reg),
    let m : Mach := .ctl n
    let c := s.core n
    let d := (s.reg m rd).toNat
    let a := (s.reg m rs1).toNat
    let len := (s.reg m rs2).toNat
    (s.Issues m (.move m rd rs1 rs2 4#3 4#3) (1 + (len + 63) / 64) → len = 0 →
      ∃ t, exec (.move m rd rs1 rs2 4#3 4#3) s = .next t ∧ s.Executed t m 1 (pcAfter m (s.pc m)) (s.reg m)) ∧
    (s.Issues m (.move m rd rs1 rs2 4#3 4#3) (1 + (len + 63) / 64) → len ≤ 65536 → len % 8 = 0 → a % 8 = 0 → d % 8 = 0 →
      c.allowsAll a len 8 = true → c.allowsAll d len 9 = true → s.boot.gib ≤ 64 → s.plainDram a len = true → s.plainDram d len = true →
      (∀ i, i < len / 8 → s.touchesStore (d + 8 * i) 8 = false) → s.mem.wf = true →
      ∃ t, exec (.move m rd rs1 rs2 4#3 4#3) s = .next t ∧ (∀ i, i < len → t.mem.read (d + i) = s.mem.read (a + i)) ∧
        (∀ x, x < d ∨ d + len ≤ x → t.mem.read x = s.mem.read x) ∧
        s.Executed { t with mem := s.mem } m 1 (pcAfter m (s.pc m)) (s.reg m)))

/-- R160 and R107 for every machine that reaches the semaphores. -/
def Obligations.Semaphores : Prop :=
  ∀ (s : State) (m : Mach) (o : Nat) (rd rs1 : Reg), s.Inv → ownerOf m = some o → o < 2 ^ 12 →
    let n := (s.reg m rs1).toNat % 64
    let held := s.flag .BRG_SEM_HELD 0 n
    let mine : Prop := held = true ∧ s.raw .BRG_SEM_OWNER 0 n = o
    let free : Prop := held = false ∧ s.grn.semWaits.any (fun w => w.2 == n) = false
    (∀ once : Bool, s.Issues m (.acq m rd rs1 once) 1 →
      (mine →
        ∃ t, exec (.acq m rd rs1 once) s = .next t ∧ s.Executed t m 1 (pcAfter m (s.pc m)) (s.regsWith m rd 3)) ∧
      (¬ mine → 4 ≤ (s.heldSems o).length →
        ∃ t, exec (.acq m rd rs1 once) s = .next t ∧ s.Executed t m 1 (pcAfter m (s.pc m)) (s.regsWith m rd 2)) ∧
      (free → (s.heldSems o).length < 4 →
        ∃ t, exec (.acq m rd rs1 once) s = .next t ∧ t.flag .BRG_SEM_HELD 0 n = true ∧ t.raw .BRG_SEM_OWNER 0 n = o ∧
          t.grn.semSince.get? n = some s.clock ∧ s.Keeps t [.grn] (fun r _ j => (r == .BRG_SEM_HELD || r == .BRG_SEM_OWNER) && j == n) ∧
          s.Executed { t with regs := s.regs, grn := { t.grn with semSince := s.grn.semSince } } m 1 (pcAfter m (s.pc m)) (s.regsWith m rd 0)) ∧
      (¬ mine → ¬ free → (s.heldSems o).length < 4 → once = true →
        ∃ t, exec (.acq m rd rs1 once) s = .next t ∧ s.Executed t m 1 (pcAfter m (s.pc m)) (s.regsWith m rd 1)) ∧
      (¬ mine → ¬ free → (s.heldSems o).length < 4 → once = false →
        ∃ t, exec (.acq m rd rs1 once) s = .next t ∧ t.waitOf m = .sem n rd.toNat s.clock ∧
          t.grn.semWaits = s.grn.semWaits ++ [(o, n)] ∧ t.pc m = pcAfter m (s.pc m) ∧ (∀ r, t.reg m r = s.reg m r) ∧
          s.Keeps t [.grn] noReg)) ∧
    (s.Issues m (.rel m rs1) 1 → mine →
      ∃ t, exec (.rel m rs1) s = .next t ∧ t.flag .BRG_SEM_HELD 0 n = false ∧ t.raw .BRG_SEM_OWNER 0 n = 0xFFF ∧
        s.Keeps t [.grn] (fun r _ j => (r == .BRG_SEM_HELD || r == .BRG_SEM_OWNER) && j == n) ∧
        t.pc m = pcAfter m (s.pc m) ∧ ∀ r, t.reg m r = s.reg m r) ∧
    (s.Issues m (.rel m rs1) 1 → ¬ mine → s.canLog →
      ∃ t, exec (.rel m rs1) s = .next t ∧ (∃ c d, s.Logged t 0x04 0x000B 2 c d) ∧
        s.Executed { t with btn := s.btn } m 1 (pcAfter m (s.pc m)) (s.reg m)) ∧
    (∀ sem rd' since : Nat, s.coreAlive = true → sem < 64 → s.flag .BRG_SEM_HELD 0 sem = false →
      s.grn.semWaits.find? (fun w => w.2 == sem) = some (o, sem) → machOfOwner o = m → s.waitOf m = .sem sem rd' since → rd' < 32 →
      ∃ t, exec (.semaphoreGrant sem) s = .next t ∧ t.flag .BRG_SEM_HELD 0 sem = true ∧ t.raw .BRG_SEM_OWNER 0 sem = o ∧
        t.waitOf m = .none ∧ t.reg m (BitVec.ofNat 5 rd') = 0 ∧
        s.Keeps t [.grn] (fun r _ j => (r == .BRG_SEM_HELD || r == .BRG_SEM_OWNER) && j == sem)) ∧
    (∀ sem rd' since : Nat, s.waitOf m = .sem sem rd' since → since + s.raw .GRN_WAIT_LIMIT_US * us ≤ s.clock → 0 < rd' → rd' < 32 →
      ∃ t, exec (.waitLimit m) s = .next t ∧ t.waitOf m = .none ∧ t.reg m (BitVec.ofNat 5 rd') = 1 ∧
        t.grn.semWaits = s.grn.semWaits.filter (fun w => !(w.1 == o && w.2 == sem)) ∧ s.Keeps t [.grn] noReg)

/-- R162, R163 (FENCE, YIELD) and R98. -/
def Obligations.WaitsAndYield : Prop :=
  ∀ (s : State) (e n : Nat) (rd rs1 : Reg) (blk : BitVec 8),
    let m : Mach := .eng e n
    let k := threadKey e n
    let h := s.thread k
    let q := (s.reg m rs1).toNat / 2 ^ 8 % 2 ^ 14
    (s.Issues m (.waitc m rd rs1 false blk) 1 →
      (h.credits.contains blk.toNat = true → ∃ t, exec (.waitc m rd rs1 false blk) s = .next t ∧
        s.Executed t m 1 (s.pc m + 4) (s.regsWith m rd 0)) ∧
      (h.credits.contains blk.toNat = false → s.creditFree blk.toNat = true → ∃ t, exec (.waitc m rd rs1 false blk) s = .next t ∧
        s.Executed t m 1 (s.pc m + 4) (s.regsWith m rd 0) fun x => { x with credits := blk.toNat :: h.credits }) ∧
      (h.credits.contains blk.toNat = false → s.creditFree blk.toNat = false → ∃ t, exec (.waitc m rd rs1 false blk) s = .next t ∧
        s.Executed t m 1 (s.pc m + 4) (s.reg m) fun x => { x with wait := .credit blk.toNat rd.toNat s.clock })) ∧
    (s.Issues m (.waitc m rd rs1 true 0#8) 1 → h.spaces.any (fun r => r.1 == q) = false →
      (∀ x, s.spaceFor q k = some x → ∃ t, exec (.waitc m rd rs1 true 0#8) s = .next t ∧
        s.Executed t m 1 (s.pc m + 4) (s.regsWith m rd 0) fun y => { y with spaces := (q, x) :: h.spaces }) ∧
      (s.spaceFor q k = none → ∃ t, exec (.waitc m rd rs1 true 0#8) s = .next t ∧
        s.Executed t m 1 (s.pc m + 4) (s.reg m) fun y => { y with wait := .space q rd.toNat s.clock })) ∧
    (∀ b r since : Nat, h.wait = .credit b r since → s.creditFree b = true → 0 < r → r < 32 →
      ∃ t, exec (.creditGrant m) s = .next t ∧ (t.thread k).wait = .none ∧ (t.thread k).credits = b :: h.credits ∧
        t.reg m (BitVec.ofNat 5 r) = 0 ∧ s.Keeps t [.grn] noReg) ∧
    (h.wait = .table → ∃ t, exec (.threadResume m) s = .next t ∧ t.thread k = { h with wait := .none } ∧
      (∀ j, j ≠ k → t.thread j = s.thread j) ∧ s.Keeps t [.grn] noReg) ∧
    (∀ m' : Mach, s.Issues m' (.fence m') 1 → ∃ t, exec (.fence m') s = .next t ∧
      s.Executed t m' 1 (pcAfter m' (s.pc m')) (s.reg m')) ∧
    (s.Issues m (.yield m) 1 →
      let others := s.othersReady k
      ∃ t, exec (.yield m) s = .next t ∧ (t.thread k).pc = h.pc + 4 ∧ (t.thread k).steps = h.steps + 1 ∧ (∀ r, t.reg m r = s.reg m r) ∧
        t.grn.yields = (if others = [] then [] else [(k, others)]) ++ s.yieldsAfter m ∧ s.Keeps t [.grn] noReg)

/-- R120 to R125, R163 and R165 on a core. -/
def Obligations.CoreControl : Prop :=
  ∀ (s : State) (m : Mach), m.isData = false →
    let k := coreKey m
    let c := s.core k
    let mode := c.status % 2
    let ie := c.status / 2 % 2
    let pend := s.ipendOf m
    let trapped (pc cause tval : Nat) : Core := { c with
      tepc := pc, tcause := cause, tval := tval, status := 1 + 4 * mode + 8 * ie, pc := c.tvec - c.tvec % 4, fresh := true, wait := .none }
    let gives (i : Instr) (c' : Core) : Prop := ∃ t, exec i s = .next t ∧ t.core k = c' ∧ (∀ j, j ≠ k → t.core j = s.core j) ∧
      t = { s with grn := { s.grn with ctl := t.grn.ctl } }
    let counted : Core := { c with steps := (c.steps + 1) % 2 ^ 64, fresh := false, wait := .none }
    let next_ : Nat := (c.pc + 4) % 2 ^ 48
    (∀ imm : BitVec 11, s.Issues m (.trap m imm) 1 → gives (.trap m imm) (trapped c.pc (if mode = 1 then 9 else 8) imm.toNat)) ∧
    (∀ w : BitVec 32, s.ready m = true → decodeGrn m w = none → gives (.illegalInstruction m w) (trapped c.pc 1 w.toNat)) ∧
    (∀ blk : Nat, blk < 128 → s.ready m = true → ie = 1 → pend.testBit blk = true → c.ienable.testBit blk = true →
      gives (.interrupt m blk) (trapped c.pc (2 ^ 63 + blk) 0)) ∧
    (s.Issues m (.eret m) 0 → mode = 1 →
      gives (.eret m) { counted with status := c.status / 4 % 4 * 5, pc := c.tepc % 2 ^ 48 }) ∧
    (s.Issues m (.eret m) 0 → mode = 0 → gives (.eret m) (trapped c.pc 1 (encodeGrn (.eret m)).toNat)) ∧
    (s.Issues m (.wfi m) 0 → mode = 1 → pend &&& c.ienable ≠ 0 → gives (.wfi m) { counted with pc := next_ }) ∧
    (s.Issues m (.wfi m) 0 → mode = 1 → pend &&& c.ienable = 0 → gives (.wfi m) { counted with pc := next_, wait := .wfi }) ∧
    (∀ (rd : Reg) (csr : BitVec 11) (v : Nat), s.Issues m (.csrr m rd csr) 0 →
      mode = 1 ∨ csr = 0x000#11 ∨ csr = 0x020#11 ∨ csr = 0x021#11 →
      (match csr.toNat with
        | 0x000 => some (k + (if m.isSecure then 0x20 else 0x10))
        | 0x001 => some c.status | 0x002 => some c.tvec | 0x003 => some c.tepc | 0x004 => some c.tcause | 0x005 => some c.tval
        | 0x006 => some c.scratch | 0x010 => some (c.ienable % 2 ^ 64) | 0x011 => some (c.ienable / 2 ^ 64)
        | 0x012 => some (pend % 2 ^ 64) | 0x013 => some (pend / 2 ^ 64) | 0x020 => some s.moment | 0x021 => some ((c.steps + 1) % 2 ^ 64)
        | x => if 0x040 ≤ x ∧ x ≤ 0x04F then some ((c.mpuBase.get? (x - 0x040)).getD 0)
          else if 0x050 ≤ x ∧ x ≤ 0x05F then some ((c.mpuCfg.get? (x - 0x050)).getD 0) else none) = some v →
      ∃ t, exec (.csrr m rd csr) s = .next t ∧ s.Executed t m 0 next_ (s.regsWith m rd (BitVec.ofNat 64 v))) ∧
    (∀ (rs1 : Reg) (csr : BitVec 11), s.Issues m (.csrw m csr rs1) 0 → mode = 1 →
      let v := (s.reg m rs1).toNat
      let on (c' : Core) : Prop := gives (.csrw m csr rs1) { c' with pc := next_ }
      (csr = 0x001#11 → on { counted with status := v % 16 }) ∧ (csr = 0x002#11 → on { counted with tvec := v - v % 4 }) ∧
      (csr = 0x003#11 → on { counted with tepc := v }) ∧ (csr = 0x004#11 → on { counted with tcause := v }) ∧
      (csr = 0x005#11 → on { counted with tval := v }) ∧ (csr = 0x006#11 → on { counted with scratch := v }) ∧
      (csr = 0x010#11 → on { counted with ienable := c.ienable / 2 ^ 64 * 2 ^ 64 + v }) ∧
      (csr = 0x011#11 → on { counted with ienable := c.ienable % 2 ^ 64 + v * 2 ^ 64 }) ∧
      (∀ i : Nat, i < 16 → bit ((c.mpuCfg.get? i).getD 0) 13 = true → csr = BitVec.ofNat 11 (0x040 + i) ∨ csr = BitVec.ofNat 11 (0x050 + i) →
        on counted) ∧
      (∀ i : Nat, i < 16 → bit ((c.mpuCfg.get? i).getD 0) 13 = false → csr = BitVec.ofNat 11 (0x040 + i) →
        on { counted with mpuBase := c.mpuBase.put i (v / 2 ^ 12 % 2 ^ 36 * 2 ^ 12) }) ∧
      (∀ i : Nat, i < 16 → bit ((c.mpuCfg.get? i).getD 0) 13 = false → csr = BitVec.ofNat 11 (0x050 + i) → 12 ≤ v % 64 → v % 64 ≤ 47 →
        on { counted with mpuCfg := c.mpuCfg.put i (v % 64 + (v &&& 0xB700)) }))

/-- R145 and R124 for a control core and DRAM outside the channel area. -/
def Obligations.CoreLoadsAndStores : Prop :=
  ∀ (s : State) (n : Nat) (rd rs1 : Reg) (size : BitVec 2) (sign : Bool) (imm : BitVec 11), s.boot.gib ≤ 64 →
    let m : Mach := .ctl n
    let c := s.core n
    let a := s.effAddr m rs1 imm
    let len := 2 ^ size.toNat
    let value : Nat := leNat (s.mem.reads a len)
    let refused (i : Instr) (cause : Nat) : Prop := ∃ t, exec i s = .next t ∧ (∀ r, t.reg m r = s.reg m r) ∧ t.mem = s.mem ∧ t.pc m = c.tvec - c.tvec % 4 ∧
      (t.core n).tepc = c.pc ∧ (t.core n).tcause = cause ∧ (t.core n).tval = a ∧ (t.core n).status % 2 = 1 ∧ s.Keeps t [.grn] noReg
    (s.Issues m (.ldm m rd rs1 size sign imm) 1 → a % len = 0 → c.allowsAll a len 8 = true → s.plainDram a len = true →
      ∃ t, exec (.ldm m rd rs1 size sign imm) s = .next t ∧ s.Executed t m 1 (pcAfter m (s.pc m)) (s.regsWith m rd
        (if sign = true ∧ 2 ^ (8 * len - 1) ≤ value then BitVec.ofInt 64 (value - 2 ^ (8 * len)) else BitVec.ofNat 64 value))) ∧
    (s.Issues m (.ldm m rd rs1 size sign imm) 1 → a % len ≠ 0 → refused (.ldm m rd rs1 size sign imm) 2) ∧
    (s.Issues m (.ldm m rd rs1 size sign imm) 1 → a % len = 0 → c.allowsAll a len 8 = false → refused (.ldm m rd rs1 size sign imm) 4) ∧
    (s.Issues m (.stm m rd rs1 size imm) 1 → a % len = 0 → c.allowsAll a len 9 = true → s.plainDram a len = true →
      s.touchesStore a len = false →
      ∃ t, exec (.stm m rd rs1 size imm) s = .next t ∧ t.mem = s.mem.writes a (leBytes len (s.reg m rd).toNat) ∧
        (∀ x, x < a ∨ a + len ≤ x → t.mem.read x = s.mem.read x) ∧
        s.Executed { t with mem := s.mem } m 1 (pcAfter m (s.pc m)) (s.reg m)) ∧
    (s.Issues m (.stm m rd rs1 size imm) 1 → a % len ≠ 0 → refused (.stm m rd rs1 size imm) 2) ∧
    (s.Issues m (.stm m rd rs1 size imm) 1 → a % len = 0 → c.allowsAll a len 9 = false → refused (.stm m rd rs1 size imm) 5)

/-- R105, R108 to R111 and R78 on a thread of a channel well under its fault limit. -/
def Obligations.ThreadFaults : Prop :=
  ∀ (s : State) (e n : Nat), s.Inv → s.flag .TRC_CFG_ENABLE = false →
    let m : Mach := .eng e n
    let k := threadKey e n
    let h := s.thread k
    let a := s.statsAddr h.chan
    let room : Prop := s.inDram a 32 = true ∧ s.btn.discards = 0 ∧ s.btn.staged.length + 2 ≤ stagingCap ∧ h.enq = false ∧
      s.chanState h.chan ≠ csLive ∧ s.chanState h.chan ≠ csHeld
    let recorded (t : State) (blk code detail : Nat) : Prop := ∃ r ∈ t.btn.staged, r.blk = blk ∧ r.code = code ∧ r.sev = 2 ∧
      r.chan = some h.chan ∧ r.detail = detail ∧ r.moment = s.moment
    let faults (i : Instr) (code info : Nat) (h' : Thread) : Prop := ∃ t, exec i s = .next t ∧ (t.thread k).busy = false ∧
      t.sal.units = s.sal.units.del h.unit ∧ t.raw .GRN_FAULT_COUNT_FAULTS = (s.raw .GRN_FAULT_COUNT_FAULTS + 1) % 2 ^ RegId.GRN_FAULT_COUNT_FAULTS.info.width ∧
      t.load (a + 8) 8 = min (s.load (a + 8) 8 + 1) (2 ^ 64 - 1) ∧ t.load (a + 16) 4 = min (s.load (a + 16) 4 + 1) (2 ^ 32 - 1) ∧
      t.load (a + 22) 2 = code ∧ recorded t 0x04 code (faultDetail k h' info) ∧
      ∀ x, x < a ∨ a + 32 ≤ x → t.mem.read x = s.mem.read x
    (∀ imm : BitVec 11, room → s.Issues m (.trap m imm) 1 → faults (.trap m imm) 5 imm.toNat { h with steps := h.steps + 1 }) ∧
    (∀ w : BitVec 32, room → s.ready m = true → decodeGrn m w = none → faults (.illegalInstruction m w) 4 w.toNat h) ∧
    (∀ rd rs1 rs2 : Reg, room → s.ready m = true → h.pc < h.lo ∨ h.hi ≤ h.pc → faults (.add m rd rs1 rs2) 2 h.pc h) ∧
    (room → h.busy = true → ∃ t, exec (.grnStoreEcc m) s = .next t ∧ (t.thread k).busy = false ∧ t.sal.units = s.sal.units.del h.unit ∧
      t.load (a + 8) 8 = min (s.load (a + 8) 8 + 1) (2 ^ 64 - 1) ∧ recorded t 0x04 6 (faultDetail k h 0) ∧
      t.raw .GRN_FAULT_COUNT_FAULTS = s.raw .GRN_FAULT_COUNT_FAULTS ∧ (∀ x, x < a + 8 ∨ a + 16 ≤ x → t.mem.read x = s.mem.read x)) ∧
    (∀ word : Nat, s.coreAlive = true → s.imageAt word = none → s.grn.poolErrs.contains word = false → s.canLog →
      ∃ t, exec (.grnPoolEcc word) s = .next t ∧ s.Logged t 0x04 0x0007 3 none word ∧ t.grn.poolErrs = word :: s.grn.poolErrs ∧
        s.Keeps t [.grn, .btn] (anyOf [.GRN_ECC_COUNT_UNCORRECTED])) ∧
    (∀ word i : Nat, s.coreAlive = true → s.imageAt word = some i → s.hostLoc = false → s.inDram s.area (2 ^ 26) = true →
      s.btn.discards = 0 → s.btn.staged.length + s.chans.length < stagingCap → s.grn.poolErrs.contains word = false →
      ∃ t, exec (.grnPoolEcc word) s = .next t ∧ (∃ r ∈ t.btn.staged, r.blk = 0x04 ∧ r.code = 7 ∧ r.sev = 3 ∧ r.detail = word) ∧
        ∀ c ∈ s.chans, eLevel (s.entry c) = 1 → s.imageHas i (eOffset (s.entry c)) = true →
          t.load (s.statsAddr c + 16) 4 = min (s.load (s.statsAddr c + 16) 4 + 1) (2 ^ 32 - 1) ∧ t.load (s.statsAddr c + 22) 2 = 2)

/-- PACE, PACE_FLOOR and the setpoint changes of R22 to R34. -/
def Obligations.PaceAndSetpoint : Prop :=
  ∀ s : State, s.Inv → s.coreAlive = true →
    (∀ v, RegId.SYS_PACE_PACE.legal v = true → s.moment % 4096 = 0 →
      ∃ t, exec (.paceUpdate v) s = .next t ∧ t.raw .SYS_PACE_PACE = v ∧
        t.raw .SYS_PACE_MIN_PACE_MIN = min (s.raw .SYS_PACE_MIN_PACE_MIN) v ∧
        t.dev.below = (if v < s.paceFloor then s.dev.below + 1 else 0) ∧
        s.Keeps t [.dev] (anyOf [.SYS_PACE_PACE, .SYS_PACE_MIN_PACE_MIN])) ∧
    (s.fld .SYS_PACE_GUARD_BELOW_COUNT ≤ s.dev.below → s.dev.belowAt = none → s.raw .SYS_POWER_TRANSIT = 0 → s.canLog →
      ∃ t, exec .paceBelowFloor s = .next t ∧ s.Logged t 0x01 0x0001 3 none 0 ∧
        (s.flag .SYS_PACE_GUARD_ESCALATE = true → s.raw .SYS_POWER_ACTIVE ≠ 0 →
          t.raw .SYS_POWER_TRANSIT = 1 ∧ t.dev.target = s.raw .SYS_POWER_ACTIVE - 1 ∧
          t.out = ⟨.avs, [s.raw .SYS_POWER_ACTIVE - 1], []⟩ :: s.out) ∧
        (s.flag .SYS_PACE_GUARD_ESCALATE = false ∨ s.raw .SYS_POWER_ACTIVE = 0 → t.dev.belowAt = some s.clock ∧ t.out = s.out) ∧
        s.Keeps t [.btn, .dev, .out] (anyOf [.SYS_POWER_PACE_RAISE, .SYS_POWER_TRANSIT, .BTN_LOST_RECORDS, .BTN_STATUS_OVERFLOW])) ∧
    (∀ at_, s.flowing = true → s.dev.belowAt = some at_ → at_ + ms ≤ s.clock → s.raw .SYS_PACE_PACE < s.paceFloor →
      ∃ t, exec .paceSafeTimeout s = .next t ∧ t.dev.st = .safe ∧ t.dev.safeLatch = true ∧ t.dev.latchCause = 2) ∧
    (∀ temp : Int,
      ∃ t, exec (.tbandChange temp) s = .next t ∧ t.dev.temp = temp ∧ s.Keeps t [.dev] (anyOf [.SYS_POWER_TBAND]) ∧
        (110 ≤ temp → t.raw .SYS_POWER_TBAND = 3) ∧ (85 ≤ temp → temp ≤ 107 → t.raw .SYS_POWER_TBAND = 2) ∧
        (0 ≤ temp → temp ≤ 82 → t.raw .SYS_POWER_TBAND = 1) ∧ (temp ≤ -3 → t.raw .SYS_POWER_TBAND = 0) ∧
        (107 < temp → temp < 110 → t.raw .SYS_POWER_TBAND = if s.raw .SYS_POWER_TBAND = 3 then 3 else 2) ∧
        (82 < temp → temp < 85 → t.raw .SYS_POWER_TBAND = if 2 ≤ s.raw .SYS_POWER_TBAND then 2 else 1) ∧
        (-3 < temp → temp < 0 → t.raw .SYS_POWER_TBAND = if 1 ≤ s.raw .SYS_POWER_TBAND then 1 else 0)) ∧
    (∀ w, s.dev.st = .run → bits w 1 0 ≠ 3 → bits w 1 0 ≠ s.raw .SYS_POWER_ACTIVE → s.raw .SYS_POWER_TRANSIT = 0 →
      ∃ t, exec (.setpointWrite w) s = .next t ∧ t.raw .SYS_POWER_SETPOINT = bits w 1 0 ∧
        t.raw .SYS_POWER_HOLD_SETPOINT = bits w 17 16 ∧ t.raw .SYS_POWER_TRANSIT = 1 ∧ t.raw .SYS_POWER_PACE_RAISE = 0 ∧
        t.dev.target = bits w 1 0 ∧ t.out = ⟨.avs, [bits w 1 0], []⟩ :: s.out ∧
        s.Keeps t [.dev, .out] (anyOf [.SYS_POWER_SETPOINT, .SYS_POWER_HOLD_SETPOINT, .SYS_POWER_TRANSIT, .SYS_POWER_PACE_RAISE])) ∧
    (∀ w, s.dev.st = .run → bits w 1 0 = 3 →
      ∃ t, exec (.setpointWrite w) s = .next t ∧ t.raw .BLK_STATUS_BUSY_REFUSED 0x01 = 1 ∧ t.raw .SYS_POWER_HOLD_SETPOINT = bits w 17 16 ∧
        s.Keeps t [] (anyOf [.BLK_STATUS_BUSY_REFUSED, .SYS_POWER_HOLD_SETPOINT])) ∧
    (s.raw .SYS_POWER_TRANSIT = 1 → s.dev.target < 4 →
      ∃ t, exec .regulatorCompletion s = .next t ∧ t.raw .SYS_POWER_ACTIVE = s.dev.target ∧ t.raw .SYS_POWER_TRANSIT = 0 ∧
        t.dev.counted = [] ∧ t.dev.below = 0 ∧ s.Keeps t [.dev] (anyOf [.SYS_POWER_ACTIVE, .SYS_POWER_TRANSIT])) ∧
    (s.raw .SYS_POWER_TRANSIT = 1 → s.dev.commandAt + ms ≤ s.clock → s.canLog →
      ∃ t, exec .avsTimeout s = .next t ∧ t.out = ⟨.avs, [s.dev.target], []⟩ :: s.out ∧ t.dev.timeoutWritten = true ∧
        t.dev.commandAt = s.clock ∧ (s.dev.timeoutWritten = false → s.Logged t 0x01 0x0002 3 none 0) ∧
        (s.dev.timeoutWritten = true → t.btn = s.btn) ∧
        s.Keeps t [.btn, .dev, .out] (anyOf [.BTN_LOST_RECORDS, .BTN_STATUS_OVERFLOW])) ∧
    (∀ v, ∃ t, exec (.paceMinClear v) s = .next t ∧
      (v = 0xC1EA → t.raw .SYS_PACE_MIN_PACE_MIN = 0xFFFF ∧ s.Keeps t [] (anyOf [.SYS_PACE_MIN_PACE_MIN])) ∧ (v ≠ 0xC1EA → t = s))

/-- R7 to R11 and R13 on registers of SYS, TMB, CHN and GRN, from every master. -/
def Obligations.RegisterAccess : Prop :=
  ∀ (s : State) (m : Master) (w : Nat), s.Inv → s.coreAlive = true → w < 2 ^ 32 →
    (bits w 1 0 < 2 → ∃ t, exec (.registerWrite m 0x00100108 4 w) s = .next t ∧ t.raw .TMB_CFG_REF_SRC = bits w 1 0 ∧
      s.Keeps t [.grn] (anyOf [.TMB_CFG_REF_SRC])) ∧
    (2 ≤ bits w 1 0 → s.canLog → ∃ t, exec (.registerWrite m 0x00100108 4 w) s = .next t ∧ s.Logged t 0x02 0xF001 2 none 0x108 ∧
      s.Keeps t [.grn, .btn] noReg) ∧
    (bits w 15 0 ≠ 0 → ∃ t, exec (.registerWrite m 0x00400104 4 w) s = .next t ∧ t.shadow .GRN_WAIT_LIMIT_US = bits w 15 0 ∧
      s.Keeps t [.grn, .shadows] noReg) ∧
    (s.level 0x03 = 0 → ∃ t, exec (.registerWrite m 0x00200200 4 w) s = .next t ∧ s.Keeps t [.grn] noReg) ∧
    (s.level 0x03 = 1 → bits w 15 0 ≠ 0 → ∃ t, exec (.registerWrite m 0x00200200 4 w) s = .next t ∧
      t.shadow .CHN_FAULT_WINDOW_MS = bits w 15 0 ∧ s.Keeps t [.grn, .shadows] noReg) ∧
    (∃ t, exec (.registerWrite m 0x0010010C 4 w) s = .next t ∧
      t.raw .TMB_STATUS_STEPPED = (if bit w 2 then 0 else s.raw .TMB_STATUS_STEPPED) ∧ s.Keeps t [.grn] (anyOf [.TMB_STATUS_STEPPED])) ∧
    (∃ t, exec (.registerWrite m 0x00000100 4 w) s = .next t ∧ s.Keeps t [.grn] noReg) ∧
    (∀ n, n = 1 ∨ n = 2 → s.canLog → ∃ t, exec (.registerWrite m 0x00100108 n w) s = .next t ∧ s.Logged t 0x02 0xF002 2 none 0x108 ∧
      s.Keeps t [.grn, .btn] noReg) ∧
    (∀ a, a % 4 = 0 → spotOf a = none → s.canLog →
      (∃ t, exec (.regUnmapped true a) s = .next t ∧ s.Logged t 0x01 0xF003 2 none a ∧ s.Keeps t [.btn] noReg) ∧
      (∃ t, exec (.regUnmapped false a) s = .next t ∧ s.Logged t 0x01 0xF003 2 none a ∧ t.out = ⟨.bus, [0], []⟩ :: s.out ∧
        s.Keeps t [.btn, .out] noReg)) ∧
    (s.canLog → ∃ t, exec (.regUnmapped false 0x00100300) s = .next t ∧ s.Logged t 0x02 0xF003 2 none 0x00100300 ∧
      t.out = ⟨.bus, [0], []⟩ :: s.out ∧ s.Keeps t [.btn, .out, .grn] noReg)

/-- R12 on XSPI_BUF.ADDR and the Moment. -/
def Obligations.WordPairs : Prop :=
  ∀ (s : State) (v : Nat), s.Inv → s.coreAlive = true → v < 2 ^ 32 →
    (∃ t, exec (.lowWordWrite 0x03090108 v) s = .next t ∧ t.bus.low.get? 0x03090108 = some v ∧ s.Keeps t [.bus, .grn] noReg) ∧
    (∀ low, s.bus.low.get? 0x03090108 = some low → low < 2 ^ 32 → ∃ t, exec (.highWordWrite 0x0309010C v) s = .next t ∧
      t.raw .XSPI_BUF_ADDR = low + v % 2 ^ 16 * 2 ^ 32 ∧ s.Keeps t [.bus, .grn] (anyOf [.XSPI_BUF_ADDR])) ∧
    (s.bus.low.get? 0x03090108 = none → ∃ t, exec (.highWordWrite 0x0309010C v) s = .next t ∧
      t.raw .XSPI_BUF_ADDR = s.raw .XSPI_BUF_ADDR % 2 ^ 32 + v % 2 ^ 16 * 2 ^ 32 ∧ s.Keeps t [.grn] (anyOf [.XSPI_BUF_ADDR])) ∧
    (∃ t, exec (.lowWordRead 0x00100100) s = .next t ∧ t.out = ⟨.bus, [s.moment % 2 ^ 32], []⟩ :: s.out ∧
      t.bus.snap.get? 0x00100100 = some (s.moment / 2 ^ 32) ∧ s.Keeps t [.bus, .grn, .out] noReg)

/-- R53, R56 and R8: a commit from its write to its end. -/
def Obligations.Commits : Prop :=
  ∀ (s : State) (blk : Nat), s.Inv → s.coreAlive = true → blockIds.contains blk = true →
    let eth : Bool := decide (0x20 ≤ blk ∧ blk ≤ 0x29)
    let pending : Bool := s.raw .BLK_STATUS_COMMIT_PENDING blk == 1
    (pending = false → eth = false → blk ≠ 0x48 → ∃ t, exec (.commit blk) s = .next t ∧ t.raw .BLK_STATUS_COMMIT_PENDING blk = 1 ∧
      (∀ r i j, r.owner i = blk → spotFits i j = true → t.taken.look r i j = s.shadows.look r i j) ∧
      s.Keeps t [.taken, .chn, .sal, .rak, .brg] (ofInst [.BLK_STATUS_COMMIT_PENDING] blk)) ∧
    (pending = true → ∃ t, exec (.commit blk) s = .next t ∧ t.raw .BLK_STATUS_BUSY_REFUSED blk = 1 ∧
      s.Keeps t [] (ofInst [.BLK_STATUS_BUSY_REFUSED] blk)) ∧
    (eth = false → blk ≠ 0x48 → ∃ t, exec (.abandon blk) s = .next t ∧ t.raw .BLK_STATUS_COMMIT_PENDING blk = 0 ∧
      (∀ r i j, r.owner i = blk → spotFits i j = true → t.shadow r i j = t.fld r i j ∧ t.taken.look r i j = none) ∧
      s.Keeps t [.shadows, .taken, .chn] fun r i _ => (r == .BLK_STATUS_COMMIT_PENDING && i == blk) || (r == .CHN_STAGE_COUNT_COUNT && blk == 0x03)) ∧
    (pending = true → [0x01, 0x02, 0x05, 0x38, 0x58, 0x61, 0x68, 0x70, 0x78].contains blk = true → (∀ j, s.taken.look .BLK_CTRL_LEVEL blk j = none) →
      ∃ t, exec (.commitBoundary blk) s = .next t ∧
        (∀ r i j, r.info.blk ≠ .hdr → r.owner i = blk → spotFits i j = true → (r.isExpert = true → s.level blk = 1) →
          t.raw r i j = (s.taken.look r i j).getD (s.raw r i j)) ∧
        t.raw .BLK_STATUS_COMMIT_PENDING blk = 0 ∧ t.raw .BLK_STATUS_RESULT blk = 1 ∧
        t.raw .BLK_COMMIT_COUNT_DONE_COUNT blk = (s.raw .BLK_COMMIT_COUNT_DONE_COUNT blk + 1) % 2 ^ 16 ∧
        s.Keeps t [.shadows, .taken] fun r i _ => r.owner i == blk) ∧
    (pending = true → [0x04, 0x18, 0x60].contains blk = true → s.atBoundary blk = true → s.judged.pairFault blk ≠ 0 → s.canLog →
      ∃ t, exec (.commitBoundary blk) s = .next t ∧ t.raw .BLK_STATUS_COMMIT_PENDING blk = 0 ∧ t.raw .BLK_STATUS_RESULT blk = 2 ∧
        t.raw .BLK_COMMIT_COUNT_REJECT_COUNT blk = (s.raw .BLK_COMMIT_COUNT_REJECT_COUNT blk + 1) % 2 ^ 16 ∧
        s.Logged t blk 0xF004 2 none (2 + s.judged.pairFault blk * 2 ^ 32) ∧
        s.Keeps t [.taken, .btn] (ofInst [.BLK_STATUS_COMMIT_PENDING, .BLK_STATUS_RESULT, .BLK_COMMIT_COUNT_REJECT_COUNT] blk))

/-- R53 and R58 for every block but the links, whose lanes go down and train again besides. -/
def Obligations.Quiescing : Prop :=
  ∀ (s : State) (blk : Nat), s.Inv → s.coreAlive = true → blockIds.contains blk = true → ¬ (0x10 ≤ blk ∧ blk ≤ 0x15) →
    let fits (t : State) : Prop := s.Keeps t [] (ofInst [.BLK_CTRL_QUIESCE, .BLK_STATUS_QUIESCED] blk)
    let refused : Bool := s.dev.st == .hold && s.carriesHold blk
    (refused = false → ∃ t, exec (.quiesce blk) s = .next t ∧ t.raw .BLK_CTRL_QUIESCE blk = 1 ∧
      t.raw .BLK_STATUS_QUIESCED blk = (if s.blkBusy blk then s.raw .BLK_STATUS_QUIESCED blk else 1) ∧ fits t) ∧
    (refused = true → ∃ t, exec (.quiesce blk) s = .next t ∧ t.raw .BLK_STATUS_BUSY_REFUSED blk = 1 ∧
      s.Keeps t [] (ofInst [.BLK_STATUS_BUSY_REFUSED] blk)) ∧
    (s.raw .BLK_CTRL_QUIESCE blk = 1 → s.blkBusy blk = false → ∃ t, exec (.quiesceDone blk) s = .next t ∧
      t.raw .BLK_STATUS_QUIESCED blk = 1 ∧ fits t) ∧
    (s.blkBusy blk = true → exec (.quiesceDone blk) s = .next s) ∧
    (∃ t, exec (.quiesceRelease blk) s = .next t ∧ t.raw .BLK_CTRL_QUIESCE blk = 0 ∧ t.raw .BLK_STATUS_QUIESCED blk = 0 ∧ fits t)

/-- R44, R60, R481 and R529. -/
def Obligations.WarmReset : Prop :=
  ∀ s : State, s.Inv → s.flowing = true →
    (s.raw .CHN_CFG_ENABLE = 0 → s.raw .BLK_STATUS_COMMIT_PENDING 0x03 = 0 → (∀ o, 0x600 ≤ o → o ≤ 0x603 → s.heldSems o = []) →
      ∃ t, exec (.warmReset 0xB7A3) s = .next t ∧
        (∀ n, n < 4 → t.core n = { Core.reset with pc := s.boot.fwStart }) ∧ (∀ k, 4 ≤ k → t.core k = s.core k) ∧
        t.grn.threads = s.grn.threads ∧ t.bus = ⟨[], [], s.bus.full⟩ ∧ t.raw .SYS_RESET_CAUSE_CAUSE = 3 ∧
        (∀ r i j, r.survivesWarm = false → spotFits i j = true → t.raw r i j = r.info.reset) ∧
        s.Keeps t [.grn, .bus, .shadows, .taken] fun r _ _ => !r.survivesWarm || r == .SYS_RESET_CAUSE_CAUSE) ∧
    (s.raw .CHN_CFG_ENABLE = 1 → s.hostLoc = false → s.inDram s.area (2 ^ 26) = true →
      ∃ t, exec (.warmReset 0xB7A3) s = .next t ∧ ∀ c, c < 2 ^ 17 → t.entry c =
        if s.chanState c = csLive ∧ eHold (s.entry c) = false then withState (s.entry c) csHeld else s.entry c) ∧
    (∀ key, key ≠ 0xB7A3 → s.canLog → ∃ t, exec (.warmReset key) s = .next t ∧ s.Logged t 0x01 0x0006 2 none 0 ∧ s.Keeps t [.btn] noReg)

/-- R528, R529 and R36. What DRAM reads as afterwards is the model's choice (log entry 3). -/
def Obligations.ColdReset : Prop :=
  ∀ s : State, s.Inv → s.coreAlive = true →
    let strap (r : RegId) : Bool := [RegId.TMB_CFG_REF_SRC, .BRG_CFG_BOND, .PCI_CFG_ROLE, .SYS_RESET_CAUSE_CAUSE].contains r
    (∃ t, exec (.coldReset 0xB7A3) s = .next t ∧ t.dev.st = .boot ∧ t.moment = 0 ∧ t.dev.safeLatch = s.dev.safeLatch ∧
      t.dev.latchCause = s.dev.latchCause ∧ t.dev.vin = s.dev.vin ∧ t.dev.vbus = s.dev.vbus ∧ t.grn.threads = [] ∧ t.sal = SalPart.reset ∧
      t.core 8 = s.core 8 ∧ t.raw .SYS_RESET_CAUSE_CAUSE = 2 ∧ (∀ a, a < 2 ^ 48 → t.mem.read a = 0) ∧
      (∀ r i j, spotFits i j = true → r.survivesCold i = false → strap r = false → t.raw r i j = r.info.reset) ∧
      s.Keeps t [.moment, .shadows, .taken, .mem, .bus, .dev, .boot, .tmb, .chn, .grn, .sal, .rak, .lnk, .tun, .eth, .brg, .sig, .can, .dsp, .key,
        .gau, .slt, .out] fun r i _ => !r.survivesCold i || strap r) ∧
    (∀ key, key ≠ 0xB7A3 → s.canLog → ∃ t, exec (.coldReset key) s = .next t ∧ s.Logged t 0x01 0x0006 2 none 0 ∧ s.Keeps t [.btn] noReg)

/-- R45, R46 and R34. -/
def Obligations.HoldBegins : Prop :=
  ∀ (s : State) (since : Nat), s.Inv → s.dev.st = .run → s.dev.lossSince = some since →
    (s.holdDue = true → since + s.raw .SYS_HOLD_CFG_GRACE * ms ≤ s.clock → s.canLog → s.raw .CHN_CFG_ENABLE = 1 → s.hostLoc = false →
      s.inDram s.area (2 ^ 26) = true →
      ∃ t, exec .holdTrigger s = .next t ∧ t.dev.st = .hold ∧ s.Logged t 0x01 0x0003 1 none 0 ∧
        (∀ c, c < 2 ^ 17 → t.entry c =
          if s.chanState c = csLive ∧ eHold (s.entry c) = false then withState (s.entry c) csHeld else s.entry c) ∧
        t.raw .SYS_HOLD_STATUS_ENTER_COUNT = (s.raw .SYS_HOLD_STATUS_ENTER_COUNT + 1) % 2 ^ 16 ∧ t.raw .SYS_POWER_PACE_RAISE = 0 ∧
        (s.raw .SYS_POWER_TRANSIT = 0 → s.raw .SYS_POWER_ACTIVE ≠ s.raw .SYS_POWER_HOLD_SETPOINT →
          t.raw .SYS_POWER_TRANSIT = 1 ∧ t.dev.target = s.raw .SYS_POWER_HOLD_SETPOINT) ∧
        s.Keeps t [.mem, .dev, .btn, .out] (anyOf [.SYS_HOLD_STATUS_ENTER_COUNT, .SYS_POWER_PACE_RAISE, .SYS_POWER_TRANSIT])) ∧
    (s.holdDue = false → exec .holdTrigger s = .next s) ∧
    (s.clock < since + s.raw .SYS_HOLD_CFG_GRACE * ms → exec .holdTrigger s = .next s)

/-- R530 and R481; the completion for an Ethernet port whose link is down, so that no queue is cut. -/
def Obligations.BlockReset : Prop :=
  ∀ (s : State) (n key blk : Nat), s.Inv → s.coreAlive = true → s.canLog → n < 10 →
    (s.raw .BLK_STATUS_QUIESCED (0x20 + n) = 1 → s.raw .ETH_STATUS_LINK n = 0 →
      ∃ t, exec (.blkReset (0x20 + n) 0xB7A3) s = .next t ∧ s.Logged t 0x01 0x0009 1 none (0x20 + n) ∧ t.eth = s.eth.del n ∧
      (∀ r i j, spotFits i j = true → r.owner i = 0x20 + n → r.info.kept = false → t.raw r i j = r.info.reset) ∧
      s.Keeps t [.eth, .btn, .shadows, .taken] fun r i _ => r.owner i == 0x20 + n && !r.info.kept) ∧
    (s.raw .BLK_STATUS_QUIESCED (0x20 + n) = 0 → ∃ t, exec (.blkReset (0x20 + n) 0xB7A3) s = .next t ∧
      t.raw .BLK_STATUS_BUSY_REFUSED (0x20 + n) = 1 ∧ s.Keeps t [] (ofInst [.BLK_STATUS_BUSY_REFUSED] (0x20 + n))) ∧
    (key ≠ 0xB7A3 ∨ resettable blk = false → ∃ t, exec (.blkReset blk key) s = .next t ∧ s.Logged t 0x01 0x0006 2 none 0 ∧ s.Keeps t [.btn] noReg)

/-- R166, R442, R446 to R448, R434, R435 and R467, for operands in fitted DRAM that the protection unit allows. -/
def Obligations.KeyInstructions : Prop :=
  ∀ (s : State) (rd rs1 rs2 : Reg),
    let m : Mach := .secure
    let c := s.core 12
    let a := (s.reg m rs1).toNat
    let v := (s.reg m rs2).toNat
    let zeroised : Bool := s.raw .KEY_STATUS_ZEROISED == 1
    let may (n right : Nat) : Prop := c.allowsAll a n right = true ∧ s.inDram a n = true
    let answers (i : Instr) (st : Nat) : Prop := ∃ t, exec i s = .next t ∧ s.Executed t m 0 (pcAfter m (s.pc m)) (s.regsWith m rd (BitVec.ofNat 64 st))
    let does_ (i : Instr) (k : KeyPart) : Prop := ∃ t, exec i s = .next t ∧ t.key = k ∧
      s.Executed { t with key := s.key } m 0 (pcAfter m (s.pc m)) (s.regsWith m rd 0)
    let filled (n node : Nat) (key : List Byte) : KeyPart := { s.key with
      slots := s.key.slots.put n ⟨key, node, (s.node node).depth, (s.node node).epoch, kcvOf key, none, s.key.useCount, false⟩
      useCount := s.key.useCount + 1 }
    (s.Issues m (.kload m rd rs1 rs2) 0 → may 96 8 →
      let blob := s.mem.reads a 96
      let opened := s.openBlob blob (s.slot v).isSome
      (256 ≤ v → answers (.kload m rd rs1 rs2) 6) ∧
      (v < 256 → zeroised = true → answers (.kload m rd rs1 rs2) 5) ∧
      (v < 256 → zeroised = false → a % 16 ≠ 0 → answers (.kload m rd rs1 rs2) 6) ∧
      (v < 256 → zeroised = false → a % 16 = 0 →
        if opened.1 = 0 then does_ (.kload m rd rs1 rs2) (filled v (fieldOf blob 6 2) opened.2) else answers (.kload m rd rs1 rs2) opened.1)) ∧
    (s.Issues m (.kderive m rd rs1 rs2) 0 → may 32 8 →
      let label := s.mem.reads a 32
      let child := leNat (label.take 2)
      (65536 ≤ v → answers (.kderive m rd rs1 rs2) 6) ∧
      (v < 65536 → zeroised = true → answers (.kderive m rd rs1 rs2) 5) ∧
      (v < 65536 → zeroised = false → s.slot (v % 256) = none → answers (.kderive m rd rs1 rs2) 1) ∧
      (∀ p : VaultSlot, v < 65536 → zeroised = false → s.slot (v % 256) = some p → s.slotOrphaned (v % 256) = false →
        (s.node child).inUse = true → (s.node child).depth ≠ 0 → (s.node child).parent = p.node →
        ((s.slot (v / 256)).isSome = true → answers (.kderive m rd rs1 rs2) 2) ∧
        (s.slot (v / 256) = none → does_ (.kderive m rd rs1 rs2)
          (filled (v / 256) child (Config.kdf p.key label (leBytes 2 p.node ++ leBytes 2 (s.node p.node).epoch ++ leBytes 2 child)))))) ∧
    (s.Issues m (.kwrap m rd rs1 rs2) 0 → may 96 9 →
      (65536 ≤ v → answers (.kwrap m rd rs1 rs2) 6) ∧
      (∀ p q : VaultSlot, v < 65536 → zeroised = false → a % 16 = 0 → s.slot (v % 256) = some p → s.slot (v / 256) = some q →
        s.slotOrphaned (v % 256) = false → s.slotOrphaned (v / 256) = false → 2 ≤ (s.node p.node).depth → (s.node p.node).parent = q.node →
        s.mem.wf = true →
        ∃ t, exec (.kwrap m rd rs1 rs2) s = .next t ∧ t.mem.reads a 96 = s.blobUnder p.node p.key q.key ∧
          (∀ x, x < a ∨ a + 96 ≤ x → t.mem.read x = s.mem.read x) ∧
          s.Executed { t with mem := s.mem } m 0 (pcAfter m (s.pc m)) (s.regsWith m rd 0))) ∧
    (s.Issues m (.kdrop m rd rs1 rs2) 0 →
      (256 ≤ v → answers (.kdrop m rd rs1 rs2) 6) ∧
      (v < 256 → does_ (.kdrop m rd rs1 rs2) { s.key with slots := s.key.slots.del v })) ∧
    (s.Issues m (.lcstep m rd rs1 rs2) 0 → may 64 8 →
      (8 ≤ v → answers (.lcstep m rd rs1 rs2) 6) ∧
      (v < 8 → lcAllowed s.key.lifecycle v = none → answers (.lcstep m rd rs1 rs2) 5) ∧
      (v < 8 → if s.lcStatus a v = 0 then ∃ t, exec (.lcstep m rd rs1 rs2) s = .next t ∧ t.key.lifecycle = max s.key.lifecycle v ∧
          t.dev.st = .boot ∧ t.raw .SYS_RESET_CAUSE_CAUSE = 2 ∧ t.moment = 0
        else answers (.lcstep m rd rs1 rs2) (s.lcStatus a v)))

/-- R115 and R116 for an ORDERED unit's slot that holds no emitted units and messages. -/
def Obligations.Harvest : Prop :=
  ∀ (s : State) (n u : Nat) (h : HSlot) (f : Flow), s.grn.harvest.get? n = some h → h.unit = some u → s.sal.units.get? u = some f → h.gap = false →
    let may : Prop := h.retired = true ∧ s.earlierSlots n h = [] ∧ h.moment + 16 ≤ s.moment ∧ h.emitted = [] ∧ h.msgs = []
    (may → h.enq = none → ∃ t, exec (.harvestRelease n) s = .next t ∧ t.grn = { s.grn with harvest := s.grn.harvest.del n } ∧
      t.sal.units = (s.sal.units.put u { f with slot := none }).del u ∧
      t.sal.queues = s.sal.queues ∧ s.Keeps t [.grn, .sal] noReg) ∧
    (∀ (route : Nat) (saf : Bool), may → h.enq = some (route, saf, false) →
      s.enqCheck (bits route 21 8) (bits route 4 0) f.flakes 0xFFFF false = 0 → s.wouldSpill (bits route 21 8) f.flakes = false → s.sal.soft.headD 0 ≠ 6 →
      ∃ t, exec (.harvestRelease n) s = .next t ∧ t.grn = { s.grn with harvest := s.grn.harvest.del n } ∧
        t.queue (bits route 21 8) = s.queue (bits route 21 8) ++ [⟨u, f.flakes, false, false, false, 0, 0, false⟩] ∧ s.Keeps t [.grn, .sal] noReg) ∧
    (s.earlierSlots n h ≠ [] → exec (.harvestRelease n) s = .next s) ∧
    (s.coreAlive = true → h.retired = false → h.since + s.raw .HRV_CFG_TIMEOUT_US * us ≤ s.clock → s.canLog →
      ∃ t, exec (.hrvGap n) s = .next t ∧ s.Logged t 0x05 0x0001 2 (some h.chan) (h.moment + h.order % 2 ^ 32 * 2 ^ 64) ∧
        t.grn = { s.grn with harvest := s.grn.harvest.put n { h with gap := true } } ∧
        t.raw .HRV_GAPS_GAPS = (s.raw .HRV_GAPS_GAPS + 1) % 2 ^ 32 ∧ s.Keeps t [.grn, .btn] (anyOf [.HRV_GAPS_GAPS])) ∧
    (s.clock < h.since + s.raw .HRV_CFG_TIMEOUT_US * us → exec (.hrvGap n) s = .next s)

/-- R127 to R131. -/
def Obligations.PoolAndImages : Prop :=
  ∀ (s : State) (slot : Nat), s.Inv → s.coreAlive = true → slot < 64 →
    let w := s.raw .GRN_IMG_BASE_WORD
    let a := poolBase + 4 * w
    let ends (t : State) (result : Nat) : Prop := t.raw .GRN_IMG_STATUS_RESULT = result ∧ t.raw .GRN_IMG_STATUS_SLOT = slot
    let dir : List RegId := [.GRN_IMG_DIR_BASE, .GRN_IMG_DIR_VALID, .GRN_IMG_DIR_PROFILE, .GRN_IMG_DIR_LENGTH, .GRN_IMG_DIR_IMAGE_ID]
    let status : List RegId := [.GRN_IMG_STATUS_RESULT, .GRN_IMG_STATUS_SLOT]
    let only (result : Nat) : Prop := ∃ t, exec (.register slot) s = .next t ∧ ends t result ∧ s.Keeps t [] (anyOf status)
    (∀ (word : Nat) (bs : List Byte), bs.length % 4 = 0 → word + bs.length / 4 ≤ poolWords →
      ((∀ i, i < bs.length / 4 → s.imageAt (word + i) = none) → ∃ t, exec (.poolWrite word bs) s = .next t ∧
        t.mem.reads (poolBase + 4 * word) bs.length = bs ∧
        (∀ x, x < poolBase + 4 * word ∨ poolBase + 4 * word + bs.length ≤ x → t.mem.read x = s.mem.read x) ∧ s.Keeps t [.mem] noReg) ∧
      (s.canLog → 0 < bs.length → (∀ i, i < bs.length / 4 → (s.imageAt (word + i)).isSome = true) →
        ∃ t, exec (.poolWrite word bs) s = .next t ∧ s.Logged t 0x04 0x0008 2 none 0 ∧ s.Keeps t [.btn] noReg)) ∧
    (s.raw .GRN_IMG_DIR_VALID 0 slot = 1 → only 6) ∧
    (s.raw .GRN_IMG_DIR_VALID 0 slot = 0 → s.headerOk w = false → only 2) ∧
    (s.raw .GRN_IMG_DIR_VALID 0 slot = 0 → s.headerOk w = true → s.overlaps w (s.load (a + 12) 4 / 4) = true → only 3) ∧
    (s.raw .GRN_IMG_DIR_VALID 0 slot = 0 → s.headerOk w = true → s.overlaps w (s.load (a + 12) 4 / 4) = false →
      s.raw .GRN_CFG_REQUIRE_SIG = 0 → s.load (a + 4) 1 = 0 →
      ∃ t, exec (.register slot) s = .next t ∧ ends t 1 ∧ t.raw .GRN_IMG_DIR_VALID 0 slot = 1 ∧ t.raw .GRN_IMG_DIR_BASE 0 slot = w ∧
        t.raw .GRN_IMG_DIR_LENGTH 0 slot = s.load (a + 12) 4 / 4 ∧ t.raw .GRN_IMG_DIR_IMAGE_ID 0 slot = s.load (a + 24) 4 ∧
        t.raw .GRN_IMG_DIR_PROFILE 0 slot = 0 ∧ s.Keeps t [] fun r _ j => status.contains r || (dir.contains r && j == slot)) ∧
    (s.raw .GRN_IMG_DIR_VALID 0 slot = 1 → s.imageRefs slot = 0 → ∃ t, exec (.unregister slot) s = .next t ∧ ends t 1 ∧
      t.raw .GRN_IMG_DIR_VALID 0 slot = 0 ∧ s.Keeps t [] fun r _ j => status.contains r || (dir.contains r && j == slot)) ∧
    (s.raw .GRN_IMG_DIR_VALID 0 slot = 1 → s.imageRefs slot ≠ 0 →
      ∃ t, exec (.unregister slot) s = .next t ∧ ends t 4 ∧ s.Keeps t [] (anyOf status)) ∧
    (s.raw .GRN_IMG_DIR_VALID 0 slot = 0 → ∃ t, exec (.unregister slot) s = .next t ∧ ends t 7 ∧ s.Keeps t [] (anyOf status))

/-- R71, over the transitions that R70 gives to commands. -/
def Obligations.WrongState : Prop :=
  ∀ (s : State) (c : Nat), s.Inv → s.coreAlive = true → c < 2 ^ 17 →
    let st := s.chanState c
    let wrong (i : Instr) (shown : Nat) : Prop := ∃ t, exec i s = .next t ∧
      t.raw .CHN_CMD_STATUS_RESULT = 2 ∧ t.raw .CHN_CMD_STATUS_STATE = shown ∧ t.raw .CHN_CMD_STATUS_CHANNEL = c ∧
      s.Keeps t [] (anyOf [.CHN_CMD_STATUS_RESULT, .CHN_CMD_STATUS_STATE, .CHN_CMD_STATUS_CHANNEL])
    (s.raw .CHN_CFG_ENABLE = 1 →
      (st ≠ csIdle ∨ eType (s.entry c) = tyFree → wrong (.arm c) st) ∧ (st ≠ csArmed → wrong (.go c) st) ∧ (st ≠ csHeld → wrong (.resume c) st) ∧
      (st ≠ csSealed → st ≠ csFaulted → wrong (.clearFault c) st) ∧ (st = csIdle ∨ st = csDraining → wrong (.drain c) st)) ∧
    (s.raw .CHN_CFG_ENABLE = 0 → ∀ i ∈ [Instr.arm c, .go c, .drain c, .resume c, .clearFault c, .clearStats c], wrong i (eState (s.entry c)))

/-- R69, R70, R77 and R78, with the table in the hub's DRAM. -/
def Obligations.ChannelCommands : Prop :=
  ∀ (s : State) (c : Nat), s.Inv → s.coreAlive = true → s.raw .CHN_CFG_ENABLE = 1 → s.hostLoc = false → s.inDram s.area (2 ^ 26) = true → c < 2 ^ 17 →
    (∀ p, s.raw .LNK_STATUS_UP p = 0) →
    let st := s.chanState c
    let status : List RegId := [.CHN_CMD_STATUS_RESULT, .CHN_CMD_STATUS_STATE, .CHN_CMD_STATUS_CHANNEL]
    let ok (t : State) (st' : Nat) : Prop := t.raw .CHN_CMD_STATUS_RESULT = 1 ∧ t.raw .CHN_CMD_STATUS_STATE = st' ∧ t.raw .CHN_CMD_STATUS_CHANNEL = c
    let a := s.entryAddr c
    let moves (i : Instr) (st' : Nat) : Prop := ∃ t, exec i s = .next t ∧ ok t st' ∧ t.entry c = withState (s.entry c) st' ∧
      (∀ x, x < a ∨ a + 64 ≤ x → t.mem.read x = s.mem.read x) ∧ s.Keeps t [.mem] (anyOf status)
    (st = csIdle → eType (s.entry c) ≠ tyFree → moves (.arm c) csArmed) ∧ (st = csArmed → moves (.go c) csLive) ∧
    (st = csHeld → moves (.resume c) csLive) ∧
    (st = csArmed ∨ st = csLive ∨ st = csHeld ∨ st = csSealed ∨ st = csFaulted → moves (.drain c) csDraining) ∧
    (st = csSealed ∨ st = csFaulted → ∃ t, exec (.clearFault c) s = .next t ∧ ok t csArmed ∧ t.entry c = withState (s.entry c) csArmed ∧
      t.load (s.statsAddr c + 20) 2 = 0 ∧
      (∀ x, ¬ (a ≤ x ∧ x < a + 64) → ¬ (s.statsAddr c + 20 ≤ x ∧ x < s.statsAddr c + 22) → t.mem.read x = s.mem.read x) ∧
      s.Keeps t [.mem] (anyOf status)) ∧
    (∃ t, exec (.clearStats c) s = .next t ∧ ok t st ∧ (∀ x, s.statsAddr c ≤ x → x < s.statsAddr c + 32 → t.mem.read x = 0) ∧
      (∀ x, x < s.statsAddr c ∨ s.statsAddr c + 32 ≤ x → t.mem.read x = s.mem.read x) ∧ s.Keeps t [.mem] (anyOf status)) ∧
    (st = csDraining → s.flying c = 0 → ∃ t, exec (.drainComplete c) s = .next t ∧ t.entry c = withState (s.entry c) csIdle ∧
      (∀ x, x < a ∨ a + 64 ≤ x → t.mem.read x = s.mem.read x) ∧ s.Keeps t [.mem] noReg) ∧
    (s.flying c ≠ 0 → exec (.drainComplete c) s = .next s)

/-- R63 to R66 and R82, for writes within one region. -/
def Obligations.ChannelArea : Prop :=
  ∀ (s : State) (off : Nat) (bs : List Byte), s.Inv → s.coreAlive = true → s.canLog → s.inDram s.area (2 ^ 26) = true → 0 < bs.length →
    let fin := off + bs.length
    let i := Instr.channelAreaWrite off bs
    let stored : Prop := ∃ t, exec i s = .next t ∧ t.mem.reads (s.area + off) bs.length = bs ∧
      (∀ x, x < s.area + off ∨ s.area + fin ≤ x → t.mem.read x = s.mem.read x) ∧ s.Keeps t [.mem] noReg
    let refused (code : Nat) (c : Option Nat) : Prop := ∃ t, exec i s = .next t ∧ s.Logged t 0x03 code 2 c 0 ∧ s.Keeps t [.btn] noReg
    let enabled : Bool := s.raw .CHN_CFG_ENABLE == 1
    (s.raw .CHN_CFG_ENABLE = 0 → s.hostLoc = false → fin ≤ 0x01400000 ∨ 0x02000000 ≤ off → fin ≤ 2 ^ 26 → stored) ∧
    (enabled = true → s.hostLoc = false → fin ≤ 0x00800000 → refused 1 (some (off / 64))) ∧
    (enabled = true → s.hostLoc = true → fin ≤ 0x00800000 → exec i s = .next s) ∧
    (enabled = true → 0x00800000 ≤ off → fin ≤ 0x00C00000 → refused 1 none) ∧
    (enabled = true → 0x00C00000 ≤ off → fin ≤ 0x00E00000 → s.raw .BLK_STATUS_COMMIT_PENDING 0x03 = 0 → stored) ∧
    (enabled = true → 0x00C00000 ≤ off → fin ≤ 0x00E00000 → s.raw .BLK_STATUS_COMMIT_PENDING 0x03 = 1 → refused 2 none) ∧
    (enabled = true → 0x00E00000 ≤ off → fin ≤ 0x01000000 → stored) ∧
    (enabled = true → 0x01000000 ≤ off → fin ≤ 0x01400000 → refused 1 none) ∧
    (0x01400000 ≤ off → fin ≤ 0x02000000 → exec i s = .next s) ∧
    (∀ c, enabled = true → 0x02000000 + c * 256 ≤ off → fin ≤ 0x02000000 + c * 256 + 256 → fin ≤ 2 ^ 26 →
      (eType (s.entry c) ≠ tyMulti → stored) ∧ (eType (s.entry c) = tyMulti → refused 1 (some c))) ∧
    (∀ host : List (Nat × List Byte), s.raw .CHN_CFG_ENABLE = 0 →
      (s.hostLoc = false → ∃ t, exec (.tableEnable host) s = .next t ∧ t.raw .CHN_CFG_ENABLE = 1 ∧
        (∀ c, c < 2 ^ 17 → t.entry c = if entryReserved (s.entry c) then withState (s.entry c) csFaulted else s.entry c) ∧
        s.Keeps t [.mem, .btn] (anyOf [.CHN_CFG_ENABLE, .BTN_LOST_RECORDS, .BTN_STATUS_OVERFLOW])) ∧
      (∀ k, s.hostLoc = true → { s with chn := { s.chn with hostTable := hostEntries host } }.pinFault = some k →
        ∃ t, exec (.tableEnable host) s = .next t ∧ t.raw .BLK_STATUS_BUSY_REFUSED 0x03 = 1 ∧ s.Logged t 0x03 0x0004 2 none k ∧
          s.Keeps t [.chn, .btn] (ofInst [.BLK_STATUS_BUSY_REFUSED] 0x03)))

/-- R69, R79, R80, R96, R97, R101, R126 and R258 to R266, for an unordered channel of a table in the hub's DRAM, with tracing and latency gauges
off. -/
def Obligations.IngressDispatch : Prop :=
  ∀ (s : State), s.Inv → s.flowing = true → s.hostLoc = false → s.inDram s.area (2 ^ 26) = true → s.fld .TRC_CFG_ENABLE = 0 → s.gaugesOf 1 = [] →
    s.sal.soft.headD 0 = 0 →
    let n := s.sal.nextUnit
    let count (t : State) (r : RegId) : Prop := t.raw r = (s.raw r + 1) % 2 ^ 32
    let dropped (t : State) (c : Nat) : Prop := t.load (s.statsAddr c + 8) 8 = satAdd (s.load (s.statsAddr c + 8) 8) 1 64
    (∀ (a : Arrival) (b : Nat), a.chan < 2 ^ 17 → s.pickBerth a.group a.port = some b → s.raw .CHN_CFG_ENABLE = 1 → a.bytes.length ≤ 32768 →
      max (if a.group < 6 ∧ a.rsv = false then s.fld .SAL_PAN_CFG_RESERVED_FLAKES else 1) 1 ≤ s.panFree → ceilDiv a.bytes.length 128 ≤ s.panFree →
      let waits (t : State) (miss : Bool) : Prop := (∃ f, t.sal.units.get? n = some f ∧ f.chan = a.chan ∧ f.bytes = a.bytes ∧ f.length = a.length ∧
        f.kind = a.kind ∧ f.berth = b ∧ f.stampMoment = s.moment ∧ f.bad = a.bad ∧ f.place = .waiting miss) ∧
        t.sal.nextUnit = n + 1 ∧ ∀ m, m ≠ n → t.sal.units.get? m = s.sal.units.get? m
      (s.cached a.chan = true → s.chanState a.chan = csLive → eOrdered (s.entry a.chan) = false → ∃ t, exec (.unitIngress a) s = .next t ∧
        waits t false ∧ count t .CHN_CACHE_HITS_HITS ∧ s.Keeps t [.sal, .tmb, .chn] (anyOf [.CHN_CACHE_HITS_HITS])) ∧
      (s.cached a.chan = false → s.chanState a.chan = csLive → eOrdered (s.entry a.chan) = false → ∃ t, exec (.unitIngress a) s = .next t ∧
        waits t true ∧ t.chn.misses.contains a.chan = true ∧ count t .CHN_CACHE_MISSES_MISSES ∧
        s.Keeps t [.sal, .tmb, .chn] (anyOf [.CHN_CACHE_MISSES_MISSES])) ∧
      (s.cached a.chan = true → s.chanState a.chan ≠ csLive → ∃ t, exec (.unitIngress a) s = .next t ∧
        (∀ m, m ≠ n → t.sal.units.get? m = s.sal.units.get? m) ∧ dropped t a.chan ∧
        s.Keeps t [.sal, .tmb, .chn, .mem] (anyOf [.CHN_CACHE_HITS_HITS]))) ∧
    (∀ (a : Arrival), (∀ b, s.pickBerth a.group a.port = some b → s.raw .CHN_CFG_ENABLE = 0) →
      let b := (s.pickBerth a.group a.port).getD ((s.berths a.group).headD 18)
      b < 32 → ∃ t, exec (.unitIngress a) s = .next t ∧ t.raw .SAL_BERTH_DROP_UNITS 0 b = (s.raw .SAL_BERTH_DROP_UNITS 0 b + 1) % 2 ^ 32 ∧
        s.Keeps t [] (anyOf [.SAL_BERTH_DROP_UNITS])) ∧
    (∀ (c u cause : Nat) (e : List Byte) (f : Flow), c < 2 ^ 17 → s.chn.misses.contains c = true → s.missing c = [u] → s.sal.units.get? u = some f →
      (∃ t, exec (.cacheMissComplete c e) s = .next t ∧ t.sal.units = s.sal.units.put u { f with place := .waiting false } ∧
        t.chn.misses = s.chn.misses.filter (· != c) ∧ (s.pinned c = false → t.cached c = true) ∧ s.Keeps t [.sal, .chn, .grn] noReg) ∧
      (s.canLog → f.chan = c → ∃ t, exec (.chnFetchFail c cause) s = .next t ∧ t.sal.units = s.sal.units.del u ∧ t.chn.cache = s.chn.cache ∧
        t.chn.misses = s.chn.misses.filter (· != c) ∧ dropped t c ∧ s.Logged t 0x03 0x0006 2 (some c) cause ∧
        s.Keeps t [.sal, .chn, .grn, .btn, .mem] noReg)) ∧
    (∀ (b u e th : Nat) (f : Flow), s.raw .CHN_CFG_ENABLE = 1 → s.raw .BLK_CTRL_QUIESCE 0x04 = 0 → s.nextDispatch b = some (u, f) →
      s.sal.units.get? u = some f → s.chanState f.chan = csLive → f.chan < 2 ^ 17 → f.wantSlot = false → s.pickThread = some (e, th) →
      let ent := s.entry f.chan
      let k := threadKey e th
      (eLevel ent = 1 → ∃ t, exec (.unitDispatch b) s = .next t ∧
        ((t.thread k).busy = true ∧ (t.thread k).unit = u ∧ (t.thread k).chan = f.chan ∧ (t.thread k).gen = s.raw .CHN_GEN_ACTIVE_GEN ∧
          (t.thread k).entry = ent ∧ (t.thread k).pc = 4 * eOffset ent ∧ (t.thread k).steps = 0 ∧ (t.thread k).budget = s.budget (eBudget ent)) ∧
        (t.reg (.eng e th) 1 = BitVec.ofNat 64 f.chan ∧ t.reg (.eng e th) 2 = BitVec.ofNat 64 f.length ∧
          t.reg (.eng e th) 3 = BitVec.ofNat 64 (s.raw .CHN_GEN_ACTIVE_GEN) ∧ t.reg (.eng e th) 4 = BitVec.ofNat 64 (eCtrl ent) ∧
          t.reg (.eng e th) 5 = BitVec.ofNat 64 f.berth ∧ ∀ r : Reg, 6 ≤ r.toNat → t.reg (.eng e th) r = 0) ∧
        (∀ j, j ≠ k → t.thread j = s.thread j) ∧ (∃ f', t.sal.units.get? u = some f' ∧ f'.place = .running e th ∧ f'.entry = ent ∧ f'.bytes = f.bytes) ∧
        t.load (s.statsAddr f.chan) 8 = satAdd (s.load (s.statsAddr f.chan) 8) 1 64 ∧ s.Keeps t [.grn, .sal, .tmb, .mem] noReg) ∧
      (eLevel ent = 0 → eRecipe ent = 0 → memAllowed { f with entry := ent } = false → ∃ t, exec (.unitDispatch b) s = .next t ∧
        (∀ m, m ≠ u → t.sal.units.get? m = s.sal.units.get? m) ∧ dropped t f.chan ∧ t.load (s.statsAddr f.chan + 22) 2 = 0x8007 ∧
        t.load (s.statsAddr f.chan) 8 = satAdd (s.load (s.statsAddr f.chan) 8) 1 64 ∧ s.Keeps t [.grn, .sal, .tmb, .mem] noReg))

/-- R72, R76, R83 to R89 and R504, for staged records that are not sealed, no CHN field shadowed, no staged channel in flight and no cable link up. -/
def Obligations.GenerationCommit : Prop :=
  ∀ (s : State) (slot : Nat), s.Inv → s.coreAlive = true → s.hostLoc = false → s.inDram s.area (2 ^ 26) = true →
    let pending : Bool := s.raw .BLK_STATUS_COMMIT_PENDING 0x03 == 1
    let n := s.stageCount
    let rejected (t : State) (result cause : Nat) : Prop := t.raw .BLK_STATUS_COMMIT_PENDING 0x03 = 0 ∧ t.raw .BLK_STATUS_RESULT 0x03 = result ∧
      t.raw .BLK_COMMIT_COUNT_REJECT_COUNT 0x03 = (s.raw .BLK_COMMIT_COUNT_REJECT_COUNT 0x03 + 1) % 2 ^ 16 ∧
      s.Logged t 0x03 0xF004 2 none (result + cause * 2 ^ 32)
    let status : List RegId := [.BLK_STATUS_COMMIT_PENDING, .BLK_STATUS_RESULT, .BLK_COMMIT_COUNT_REJECT_COUNT, .BLK_COMMIT_COUNT_DONE_COUNT]
    (pending = true → s.chn.checked = true → s.mayCommit = true → s.chnCombo s.entriesAfter = 0 → s.stageFault = none → 0 < n →
      (s.taken.chosen (ofBlk 0x03)) = [] → (∀ p, s.raw .LNK_STATUS_UP p = 0) →
      (∀ i, i < n → eSealed (s.stageRec i) = false ∧ s.flying (stChan (s.stageRec i)) = 0) →
      ∃ t, exec .commitPoint s = .next t ∧
        (∀ i, i < n → t.entry (stChan (s.stageRec i)) =
          withState ((s.stageRec i).take 64) (s.stagedState (stChan (s.stageRec i)) ((s.stageRec i).take 64))) ∧
        (∀ c, c < 2 ^ 17 → (∀ i, i < n → stChan (s.stageRec i) ≠ c) → t.entry c = s.entry c) ∧
        t.raw .CHN_GEN_ACTIVE_GEN = (s.raw .CHN_GEN_ACTIVE_GEN + 1) % 256 ∧ t.raw .CHN_GEN_STAMP_MOMENT = s.moment ∧ t.raw .CHN_STAGE_COUNT_COUNT = 0 ∧
        t.raw .BLK_STATUS_COMMIT_PENDING 0x03 = 0 ∧ t.raw .BLK_STATUS_RESULT 0x03 = 1 ∧
        t.raw .BLK_COMMIT_COUNT_DONE_COUNT 0x03 = (s.raw .BLK_COMMIT_COUNT_DONE_COUNT 0x03 + 1) % 2 ^ 16 ∧
        s.Keeps t [.mem, .chn] fun r i _ => [RegId.CHN_GEN_ACTIVE_GEN, .CHN_GEN_STAMP_MOMENT, .CHN_STAGE_COUNT_COUNT].contains r ||
          (status.contains r && i == 0x03)) ∧
    (∀ i k, pending = true → s.chn.checked = false → s.stageFault = some (i, k) → s.canLog → ∃ t, exec .commitPoint s = .next t ∧
      rejected t 2 (k + i * 2 ^ 8) ∧ t.raw .CHN_STAGE_FAULT_VALID = 1 ∧ t.raw .CHN_STAGE_FAULT_INDEX = i ∧ t.raw .CHN_STAGE_FAULT_CHECK = k ∧
      s.Keeps t [.btn, .taken] fun r i _ => [RegId.CHN_STAGE_FAULT_INDEX, .CHN_STAGE_FAULT_CHECK, .CHN_STAGE_FAULT_VALID].contains r ||
        (status.contains r && i == 0x03)) ∧
    (pending = true → s.chn.checked = true → s.mayCommit = true → s.chnCombo s.entriesAfter ≠ 0 → s.canLog → ∃ t, exec .commitPoint s = .next t ∧
      rejected t 3 (s.chnCombo s.entriesAfter) ∧ s.Keeps t [.btn, .taken, .chn] (ofInst status 0x03)) ∧
    (pending = false ∨ (s.chn.checked = true ∧ s.mayCommit = false) → exec .commitPoint s = .next s) ∧
    (∀ c ver, slot < 8192 → s.chn.shadows.get? slot = some (c, ver) →
      (s.flyingVer c ver = 0 → ∃ t, exec (.shadowRelease slot) s = .next t ∧ t.chn = { s.chn with shadows := s.chn.shadows.del slot } ∧
        (∀ x, s.shadowAddr slot ≤ x → x < s.shadowAddr slot + 512 → t.mem.read x = 0) ∧
        (∀ x, x < s.shadowAddr slot ∨ s.shadowAddr slot + 512 ≤ x → t.mem.read x = s.mem.read x) ∧ s.Keeps t [.chn, .mem] noReg) ∧
      (s.flyingVer c ver ≠ 0 → exec (.shadowRelease slot) s = .next s))

/-- R171 to R174, R183 to R186 and R219, with tracing and latency gauges off. -/
def Obligations.LinkReplay : Prop :=
  ∀ (s : State) (p : Nat), s.Inv → s.coreAlive = true → p < 6 → s.raw .LNK_STATUS_UP p = 1 → s.fld .TRC_CFG_ENABLE = 0 → s.gaugesOf 1 = [] →
    let l := s.link p
    let only (t : State) (l' : LnkPort) : Prop := t.link p = l' ∧ ∀ q, q ≠ p → t.link q = s.link q
    let lanes : List RegId := [.LNK_LANE_STATE_STATE, .LNK_LANE_STATE_POWER, .LNK_STATUS_LANE_OK, .LNK_STATUS_LANE_TX, .LNK_TRAINS_PARTIAL]
    let ack (nak : Bool) (seq : Nat) : List Byte := sealBlock ([0xF9, if nak then 1 else 0] ++ leBytes 2 seq)
    let before := (l.rxSeq + 2 ^ 16 - 1) % 2 ^ 16
    (s.canSend p = true →
      (∀ b rest, l.blocks = b :: rest → ∃ t, exec (.parcelSend p) s = .next t ∧ only t { l with blocks := rest } ∧ t.out = ⟨.lcb, [p], b⟩ :: s.out ∧
        s.Keeps t [.lnk, .out] noReg) ∧
      (∀ i h, l.blocks = [] → l.resend = some i → l.held[i]? = some h → ∃ t, exec (.parcelSend p) s = .next t ∧
        only t { l with resend := if i + 1 < l.held.length then some (i + 1) else none, idleAt := s.clock } ∧ t.out = ⟨.parcel, [p], h.bytes⟩ :: s.out ∧
        s.Keeps t [.lnk, .out] noReg) ∧
      (∀ (x : OutParcel) (rest : List OutParcel), l.blocks = [] → l.resend = none → l.queue = x :: rest → fieldOf x.bytes 0 1 ≠ 2 →
        let bytes := closeParcel x.bytes l.nextSeq x.void
        (l.fill + linkCost bytes ≤ 2 ^ 18 → ∃ t, exec (.parcelSend p) s = .next t ∧ t.out = ⟨.parcel, [p], bytes⟩ :: s.out ∧
          only t { l with
            queue := rest, held := l.held ++ [⟨l.nextSeq, bytes⟩], ackAt := if l.held.isEmpty then s.clock else l.ackAt
            nextSeq := (l.nextSeq + 1) % 2 ^ 16, idleAt := s.clock } ∧ s.Keeps t [.lnk, .out, .tmb] noReg)) ∧
      (l.blocks = [] → l.resend = none → l.queue = [] → ∃ t, exec (.parcelSend p) s = .next t ∧
        t.out = ⟨.parcel, [p], fillerParcel l.nextSeq⟩ :: s.out ∧ s.Keeps t [.out] noReg)) ∧
    (s.canSend p = false → exec (.parcelSend p) s = .next s) ∧
    (∀ (b : List Byte), isFiller b = false →
      (parcelCrcOk b = true → parcelSeq b = l.rxSeq → l.accepted + 1 < 256 → ∃ t, exec (.parcelReceive p b true) s = .next t ∧
        only t { l with rxSeq := (l.rxSeq + 1) % 2 ^ 16, rejecting := false, accepted := l.accepted + 1, inbox := l.inbox ++ [(s.moment, b)] } ∧
        s.Keeps t [.lnk, .tmb] noReg) ∧
      (parcelCrcOk b = false ∨ parcelSeq b ≠ l.rxSeq →
        (l.rejecting = false → ∃ t, exec (.parcelReceive p b true) s = .next t ∧
          only t { l with rejecting := true, blocks := l.blocks ++ [ack true before] } ∧ s.Keeps t [.lnk] noReg) ∧
        (l.rejecting = true → exec (.parcelReceive p b true) s = .next s)) ∧
      (l.rejecting = true → ∃ t, exec (.parcelReceive p b false) s = .next t ∧
        t.raw .LNK_FEC_UNCORR_CODEWORDS p = (s.raw .LNK_FEC_UNCORR_CODEWORDS p + 1) % 2 ^ 32 ∧
        s.Keeps t [] (ofInst [.LNK_FEC_UNCORR_CODEWORDS] p))) ∧
    (0 < l.accepted → l.ackSent + us ≤ s.clock → ∃ t, exec (.ackInterval p) s = .next t ∧
      only t { l with blocks := l.blocks ++ [ack false before], accepted := 0, ackSent := s.clock } ∧ s.Keeps t [.lnk] noReg) ∧
    (l.accepted = 0 → exec (.ackInterval p) s = .next s) ∧
    (∀ (b : List Byte), blockOk b = true → exec (.filler p b) s = .next s ∧
      (let n := freed (fieldOf b 2 2) l.held
       fieldOf b 0 1 = 0xF9 →
        (fieldOf b 1 1 % 2 = 0 → 0 < n → ∃ t, exec (.ack p b) s = .next t ∧ s.Keeps t [.lnk] noReg ∧ only t { l with
          held := l.held.drop n, ackAt := s.clock, fruitless := 0
          resend := l.resend.bind fun i => if n ≤ i then some (i - n) else if n < l.held.length then some 0 else none }) ∧
        (fieldOf b 1 1 % 2 = 1 → ∃ t, exec (.nak p b) s = .next t ∧ s.Keeps t [.lnk] (ofInst [.LNK_REPLAY_REPLAYS] p) ∧
          t.raw .LNK_REPLAY_REPLAYS p = (s.raw .LNK_REPLAY_REPLAYS p + 1) % 2 ^ 16 ∧
          only t { l with resend := if n < l.held.length then some n else none, fruitless := l.fruitless + 1, ackAt := s.clock }))) ∧
    (l.held ≠ [] → l.ackAt + s.fld .LNK_THRESH_ACK_TIMEOUT_US p * us ≤ s.clock → ∃ t, exec (.ackTimeout p) s = .next t ∧
      t.raw .LNK_REPLAY_TIMEOUTS p = (s.raw .LNK_REPLAY_TIMEOUTS p + 1) % 2 ^ 16 ∧
      only t { l with resend := some 0, fruitless := l.fruitless + 1, ackAt := s.clock } ∧ s.Keeps t [.lnk] (ofInst [.LNK_REPLAY_TIMEOUTS] p)) ∧
    (s.fld .LNK_THRESH_REPLAY_LIMIT p ≤ l.fruitless → s.canLog → ∃ t, exec (.lnkReplayLimit p) s = .next t ∧ s.Logged t (0x10 + p) 0x0006 2 none 0xFF ∧
      (∀ k, k ∈ s.txLanes p ∨ k ∈ s.rxLanes p → t.laneState p k = lnRetrain) ∧ (t.link p).held = l.held ∧ (t.link p).fruitless = 0 ∧
      (t.link p).resend = (if l.held.isEmpty then none else some 0) ∧ (∀ q, q ≠ p → t.link q = s.link q) ∧ s.Keeps t [.lnk, .btn] (ofInst lanes p)) ∧
    (l.fruitless < s.fld .LNK_THRESH_REPLAY_LIMIT p → exec (.lnkReplayLimit p) s = .next s)

/-- R180 to R182, R188 to R193, R198, R203 and R206 to R208. -/
def Obligations.LinkTraining : Prop :=
  ∀ (s : State) (p : Nat), s.Inv → s.coreAlive = true → p < 6 → s.canLog →
    let l := s.link p
    let lanes : List RegId := [.LNK_LANE_STATE_STATE, .LNK_LANE_STATE_POWER, .LNK_STATUS_LANE_OK, .LNK_STATUS_LANE_TX]
    let taps : List RegId := [.LNK_TXEQ_CM2, .LNK_TXEQ_CM1, .LNK_TXEQ_C0, .LNK_TXEQ_CP1]
    let keeps (t : State) (gs : List Grp) (rs : List RegId) : Prop := (∀ q, q ≠ p → t.link q = s.link q) ∧ s.Keeps t gs (ofInst rs p)
    let tapped (t : State) (k : Nat) (v : Int × Int × Int × Int) : Prop := t.raw .LNK_TXEQ_CM2 p k = enc 6 v.1 ∧ t.raw .LNK_TXEQ_CM1 p k = enc 6 v.2.1 ∧
      t.raw .LNK_TXEQ_C0 p k = enc 7 v.2.2.1 ∧ t.raw .LNK_TXEQ_CP1 p k = enc 6 v.2.2.2
    let align (t : State) : Prop := (t.link p).phase = .align ∧ ∀ k ∈ s.trainLanes p, s.laneState p k ≠ lnFail → t.laneState p k = lnAlign
    (l.phase = .detect →
      (l.phaseAt + 10 * us ≤ s.clock → ∃ t, exec (.detectComplete p) s = .next t ∧ (t.link p).phase = .train ∧ (t.link p).phaseAt = s.clock ∧
        (∀ k ∈ s.trainLanes p, t.laneState p k = lnTrain ∧ tapped t k (0, -8, 48, -8)) ∧ keeps t [.lnk, .out] (lanes ++ taps)) ∧
      (s.clock < l.phaseAt + 10 * us → exec (.detectComplete p) s = .next s) ∧
      (∀ good, s.clock < l.phaseAt + 100 * ms → exec (.trainPhaseTimeout p good) s = .next s) ∧
      (∀ good, l.phaseAt + 100 * ms ≤ s.clock → l.attempts < 2 → ∃ t, exec (.trainPhaseTimeout p good) s = .next t ∧ (t.link p).phase = .detect ∧
        (t.link p).attempts = l.attempts + 1 ∧ (t.link p).phaseAt = s.clock ∧ (∀ k ∈ s.trainLanes p, t.laneState p k = lnDetect) ∧
        keeps t [.lnk, .out] (lanes ++ [.LNK_STATUS_PAIRMAP_ACTIVE, .LNK_STATUS_REV_READY]))) ∧
    (∀ own, l.phase = .train →
      (∀ k ∈ (s.trainLanes p).filter (fun k => s.laneState p k != lnFail), s.trained p own k = true ∨ s.trained p own (k ^^^ 2) = true) →
      (s.raw .LNK_CFG_REVERSIBLE p = 0 → ∃ t, exec (.trainComplete p own) s = .next t ∧ align t ∧
        keeps t [.lnk] (lanes ++ [.LNK_STATUS_PRECODE_TX, .LNK_STATUS_PRECODE_RX])) ∧
      (s.raw .LNK_CFG_REVERSIBLE p = 1 → s.raw .LNK_STATUS_RATE p ≠ 2 → s.split p = false → (∀ k, k < 4 → s.laneState p k ≠ lnFail) →
        (l.lane 0).revCapable = true → ∃ t, exec (.trainComplete p own) s = .next t ∧ (t.link p).phase = .reverse ∧
          t.laneState p 1 = lnReverse ∧ t.laneState p 3 = lnReverse ∧ keeps t [.lnk] lanes)) ∧
    (∀ skew, l.phase = .reverse → ∃ t, exec (.reverseComplete p skew) s = .next t ∧ t.raw .LNK_STATUS_REV_READY p = 1 ∧ align t ∧
      (t.link p).revSkew = skew ∧ keeps t [.lnk] (lanes ++ [.LNK_STATUS_REV_READY, .LNK_STATUS_PRECODE_TX, .LNK_STATUS_PRECODE_RX])) ∧
    (∀ skew, l.phase = .align → s.rxLanes p ≠ [] → (∀ k ∈ s.rxLanes p, (l.lane k).locked = true) → s.key.noSession = false → s.key.sessions < 256 →
      ∃ t, exec (.alignComplete p skew 0) s = .next t ∧ t.raw .LNK_STATUS_UP p = 1 ∧ t.raw .LNK_STATUS_PAIRMAP_ACTIVE p = 0 ∧
        (t.link p).phase = .up ∧ (t.link p).nextSeq = 0 ∧ (t.link p).rxSeq = 0 ∧ (t.link p).fwdSkew = skew ∧
        (∀ k ∈ s.trainLanes p, s.laneState p k = lnAlign → t.laneState p k = lnActive) ∧ (t.tunPort p).sent = true ∧
        (t.tunPort p).session = (s.key.sessionHi + s.key.sessions) % 2 ^ 24 ∧
        keeps t [.lnk, .tun, .dev, .key] (lanes ++ [.LNK_STATUS_UP, .LNK_STATUS_PAIRMAP_ACTIVE])) ∧
    (∀ k control status, k < 4 → s.laneState p k = lnTrain → bits status 23 16 = trainChk control status → 1 ≤ bits control 8 6 → bits control 8 6 ≤ 5 →
      ∃ t, exec (.trainingFrame p k control status) s = .next t ∧ tapped t (k ^^^ 2) (presetTaps (bits control 8 6)) ∧ keeps t [.lnk, .out] taps) ∧
    (∀ k control status, s.laneState p k = lnActive → exec (.trainingFrame p k control status) s = .next s) ∧
    (∀ (b : List Byte), s.raw .LNK_STATUS_UP p = 1 → blockOk b = true →
      let k := (fieldOf b 1 1 % 4) ^^^ 2
      let j := (fieldOf b 2 1 % 4) ^^^ 2
      (fieldOf b 0 1 = 0xFC → s.laneState p k = lnRetrain → bits (fieldOf b 4 3) 23 16 = trainChk (fieldOf b 2 2) (fieldOf b 4 3) →
        1 ≤ bits (fieldOf b 2 2) 8 6 → bits (fieldOf b 2 2) 8 6 ≤ 5 → bit (fieldOf b 4 3) 6 = true → l.change = none →
        ∃ t, exec (.trainCtl p b) s = .next t ∧ t.laneState p k = lnActive ∧ tapped t k (presetTaps (bits (fieldOf b 2 2) 8 6)) ∧
          keeps t [.lnk, .out] (lanes ++ taps)) ∧
      (fieldOf b 0 1 = 0xFB → fieldOf b 1 1 = 5 → ∃ t, exec (.join p b) s = .next t ∧
        t.link p = { l with lanes := l.lanes.put j { l.lane j with joinAt := some (fieldOf b 4 4) } } ∧ keeps t [.lnk] []) ∧
      (fieldOf b 0 1 = 0xFB → fieldOf b 1 1 = 4 → j ∈ s.txLanes p → s.laneState p j ≠ lnFail → ∃ t, exec (.retrainReq p b) s = .next t ∧
        t.laneState p j = lnRetrain ∧ t.raw .LNK_TRAINS_PARTIAL p = (s.raw .LNK_TRAINS_PARTIAL p + 1) % 2 ^ 16 ∧
        t.out = ⟨.training, [p, j, 1], []⟩ :: s.out ∧ keeps t [.lnk, .out] (lanes ++ [.LNK_TRAINS_PARTIAL]))) ∧
    (∀ k, k < 4 → s.laneState p k = lnRetrain →
      ((l.lane k).since + 80 * us ≤ s.clock → ∃ t, exec (.retrainTimeout p k) s = .next t ∧ t.laneState p k = lnFail ∧ t.raw .LNK_STATUS_DEGRADED p = 1 ∧
        s.Logged t (0x10 + p) 0x0004 2 none k ∧ keeps t [.lnk, .btn] (lanes ++ [.LNK_STATUS_DEGRADED])) ∧
      (s.clock < (l.lane k).since + 80 * us → exec (.retrainTimeout p k) s = .next s)) ∧
    (∀ k (b : List Byte), k < 4 → k ∈ s.rxLanes p →
      (markerValid b = false → ∃ t, exec (.marker p k b) s = .next t ∧
        t.link p = { l with lanes := l.lanes.put k { l.lane k with bad := (l.lane k).bad + 1 } } ∧ keeps t [.lnk] []) ∧
      (markerValid b = true → s.laneState p k = lnActive → bit (fieldOf b 4 1) 6 = false →
        bits (fieldOf b 5 1) 4 3 = complement (s.raw .LNK_STATUS_PAIRMAP_ACTIVE p) → ∃ t, exec (.marker p k b) s = .next t ∧
          t.raw .LNK_CWC_RX_CWC p = fieldOf b 6 4 ∧ (t.link p).rxCwc = fieldOf b 6 4 ∧ (t.link p).rxCwcAt = s.clock ∧ ((t.link p).lane k).bad = 0 ∧
          keeps t [.lnk] [.LNK_CWC_RX_CWC]) ∧
      (s.carries p k = true → 4 ≤ (l.lane k).bad → ∃ t, exec (.lnkLockLost p k) s = .next t ∧ s.Logged t (0x10 + p) 0x0003 2 none k ∧
        t.laneState p k = lnRetrain ∧ keeps t [.lnk, .btn] (lanes ++ [.LNK_TRAINS_PARTIAL])) ∧
      ((l.lane k).bad < 4 → exec (.lnkLockLost p k) s = .next s)) ∧
    (∀ hs : List Nat, l.eyeAt + ms ≤ s.clock → (∀ h ∈ hs, s.fld .LNK_THRESH_EYE_MIN_MV p ≤ h ∧ h < 256) → hs.length = 4 →
      ∃ t, exec (.eyeMonUpdate p hs) s = .next t ∧ (∀ k ∈ s.rxLanes p, s.carries p k = true → t.raw .LNK_EYE_MON_HEIGHT p k = hs.getD k 0) ∧
        (t.link p).eyeAt = s.clock ∧ keeps t [.lnk] [.LNK_EYE_MON_HEIGHT]) ∧
    (∀ k, k < 4 → ∃ t, exec (.slip p k) s = .next t ∧ t.raw .LNK_PRBS_ERR_LOCKED p k = Config.free s.drawn % 2 ∧
      t.link p = { l with lanes := l.lanes.put k { l.lane k with slips := (l.lane k).slips + 1 } } ∧ keeps t [.lnk, .drawn] [.LNK_PRBS_ERR_LOCKED]) ∧
    (s.raw .LNK_EYE_CTRL_BUSY p = 0 → ∃ t, exec (.eyeScanStart p) s = .next t ∧ t.raw .LNK_EYE_CTRL_BUSY p = 1 ∧
      (∀ e ∈ eyesOf (s.raw .LNK_EYE_CTRL_EYE p), t.raw .LNK_EYE_RESULT_VALID p e = 0) ∧ keeps t [] [.LNK_EYE_CTRL_BUSY, .LNK_EYE_RESULT_VALID]) ∧
    (s.raw .LNK_EYE_CTRL_BUSY p = 1 → exec (.eyeScanStart p) s = .next s ∧ ∀ hs ws : List Nat, ∃ t, exec (.eyeScanComplete p hs ws) s = .next t ∧
      t.raw .LNK_EYE_CTRL_BUSY p = 0 ∧ (∀ e ∈ eyesOf (s.raw .LNK_EYE_CTRL_EYE p), t.raw .LNK_EYE_RESULT_HEIGHT_MV p e = min 4095 (hs.getD e 0) ∧
        t.raw .LNK_EYE_RESULT_WIDTH p e = min 255 (ws.getD e 0) ∧ t.raw .LNK_EYE_RESULT_VALID p e =
          (s.laneState p (s.raw .LNK_EYE_CTRL_LANE p) == lnActive || s.laneState p (s.raw .LNK_EYE_CTRL_LANE p) == lnRaw).toNat) ∧
      keeps t [] [.LNK_EYE_CTRL_BUSY, .LNK_EYE_RESULT_HEIGHT_MV, .LNK_EYE_RESULT_WIDTH, .LNK_EYE_RESULT_VALID])

/-- R195 to R197, R200, R201 and R203. -/
def Obligations.LinkSleepLanes : Prop :=
  ∀ (s : State) (p : Nat), s.Inv → s.coreAlive = true → p < 6 → s.canLog → s.raw .LNK_STATUS_UP p = 1 →
    let l := s.link p
    let lanes : List RegId := [.LNK_LANE_STATE_STATE, .LNK_LANE_STATE_POWER, .LNK_STATUS_LANE_OK, .LNK_STATUS_LANE_TX]
    let keeps (t : State) (gs : List Grp) (rs : List RegId) : Prop := (∀ q, q ≠ p → t.link q = s.link q) ∧ s.Keeps t gs (ofInst rs p)
    let power (n : Nat) : List (List Byte) := List.replicate 3 (sealBlock ([0xFA, BitVec.ofNat 8 n, 0, 0] ++ leBytes 4 ((s.cwcTx p + 8) % 2 ^ 32)))
    let lane (n : Nat) (b : List Byte) : List (List Byte) := List.replicate 3 (sealBlock ([0xFB, BitVec.ofNat 8 n, BitVec.ofNat 8 (fieldOf b 2 1), 0] ++ leBytes 4 (fieldOf b 4 4)))
    let ended (t : State) : Prop := (t.link p).change = none ∧ t.raw .LNK_STATUS_LANE_CHANGE p = 0 ∧ s.Logged t (0x10 + p) 0x0008 2 none 0xFF ∧
      keeps t [.lnk, .btn] [.LNK_STATUS_LANE_CHANGE]
    (∀ (b : List Byte), blockOk b = true → fieldOf b 0 1 = 0xFA →
      (fieldOf b 1 1 = 1 → ∃ t, exec (.powerHalf p b) s = .next t ∧ t.link p = { l with rxEntry := some (1, fieldOf b 4 4) } ∧ keeps t [.lnk] []) ∧
      (fieldOf b 1 1 = 2 → ∃ t, exec (.powerDeep p b) s = .next t ∧ t.link p = { l with rxEntry := some (2, fieldOf b 4 4) } ∧ keeps t [.lnk] [])) ∧
    (s.canSend p = true → s.raw .LNK_PWR_HALF_US p ≠ 0 → s.raw .LNK_PWR_ALLOW p ≠ 0 → l.held = [] → l.queue = [] → l.txEntry = none →
      s.portBusy p = false → l.idleAt + s.raw .LNK_PWR_HALF_US p * us ≤ s.clock → ∃ t, exec (.halfIdleTimeout p) s = .next t ∧
        t.link p = { l with blocks := l.blocks ++ power 1, txEntry := some (1, (s.cwcTx p + 8) % 2 ^ 32) } ∧ keeps t [.lnk] []) ∧
    (s.raw .LNK_PWR_HALF_US p = 0 → exec (.halfIdleTimeout p) s = .next s) ∧
    (l.txSleep = 1 → s.raw .LNK_PWR_DEEP_MS p ≠ 0 → s.raw .LNK_PWR_ALLOW p = 2 → l.txSince + s.raw .LNK_PWR_DEEP_MS p * ms ≤ s.clock →
      ∃ t, exec (.deepIdleTimeout p) s = .next t ∧ (t.link p).txSleep = 0 ∧ (t.link p).txEntry = some (2, (s.cwcTx p + 8) % 2 ^ 32) ∧
        (t.link p).blocks = l.blocks ++ power 2 ∧ (∀ k ∈ s.txLanes p, s.laneState p k = lnHalf → t.laneState p k = lnActive) ∧
        keeps t [.lnk, .out] lanes) ∧
    (∀ kind at_, kind = 1 ∨ kind = 2 →
      (l.txEntry = some (kind, at_) → cwcPast (s.cwcTx p) at_ = true → ∃ t, exec (.sleepEntry p true) s = .next t ∧ (t.link p).txSleep = kind ∧
        (∀ k ∈ s.txLanes p, s.carries p k = true → t.laneState p k = (if kind = 2 then lnDeep else lnHalf)) ∧ keeps t [.lnk] lanes) ∧
      (l.txEntry = some (kind, at_) → cwcPast (s.cwcTx p) at_ = false → exec (.sleepEntry p true) s = .next s) ∧
      (l.rxEntry = some (kind, at_) → cwcPast (s.cwcRx p) at_ = true → ∃ t, exec (.sleepEntry p false) s = .next t ∧ (t.link p).rxSleep = kind ∧
        (∀ k ∈ s.rxLanes p, s.carries p k = true → t.laneState p k = (if kind = 2 then lnDeep else lnHalf)) ∧ keeps t [.lnk] lanes)) ∧
    (l.queue ≠ [] → l.txSleep = 1 → ∃ t, exec (.directionWake p) s = .next t ∧ (t.link p).txSleep = 0 ∧ (t.link p).queue = l.queue ∧
      (∀ k ∈ s.txLanes p, s.laneState p k = lnHalf → t.laneState p k = lnActive) ∧ keeps t [.lnk, .out] lanes) ∧
    (l.blocks = [] → l.queue = [] → l.resend = none → exec (.directionWake p) s = .next s) ∧
    (∀ (b : List Byte), blockOk b = true → fieldOf b 0 1 = 0xFB → fieldOf b 1 1 = 1 → s.portBusy p = false →
      let map := complement (fieldOf b 2 1 % 4)
      let may : Bool := s.raw .LNK_STATUS_REV_READY p == 1 && oneLane (s.raw .LNK_STATUS_PAIRMAP_ACTIVE p) map && !s.split p
      (may = true → ∃ t, exec (.laneReq p b) s = .next t ∧ t.raw .LNK_STATUS_LANE_CHANGE p = 1 ∧
        t.link p = { l with change := some ⟨map, fieldOf b 4 4, false, true, none, s.clock⟩, blocks := l.blocks ++ lane 2 b } ∧
        keeps t [.lnk] [.LNK_STATUS_LANE_CHANGE]) ∧
      (may = false → ∃ t, exec (.laneReq p b) s = .next t ∧ t.link p = { l with blocks := l.blocks ++ lane 3 b } ∧ keeps t [.lnk] [])) ∧
    (∀ c : LaneChange, l.change = some c →
      (c.own = true → c.granted = false → s.raw .BLK_STATUS_COMMIT_PENDING (0x10 + p) = 0 →
        (∀ (b : List Byte), blockOk b = true → fieldOf b 0 1 = 0xFB → fieldOf b 1 1 = 2 → fieldOf b 4 4 = c.switchAt →
          ∃ t, exec (.laneGrant p b) s = .next t ∧ t.link p = { l with change := some { c with granted := true } } ∧ keeps t [.lnk] []) ∧
        (∀ (b : List Byte), blockOk b = true → fieldOf b 0 1 = 0xFB → fieldOf b 1 1 = 3 → ∃ t, exec (.laneRefuse p b) s = .next t ∧ ended t) ∧
        (c.reqAt + 10 * us ≤ s.clock → ∃ t, exec (.laneChangeTimeout p) s = .next t ∧ ended t)) ∧
      (s.clock < c.reqAt + 10 * us → exec (.laneChangeTimeout p) s = .next s) ∧
      (let cur := s.raw .LNK_STATUS_PAIRMAP_ACTIVE p
       let k := movedLane cur c.map
       (c.granted = true → c.switched = none → cwcPast (if gainsTx cur c.map k then s.cwcRx p else s.cwcTx p) c.switchAt = true →
         ∃ t, exec (.laneSwitch p) s = .next t ∧ t.laneState p k = lnRetrain ∧ (t.link p).change = some { c with switched := some s.clock } ∧
           t.raw .LNK_TRAINS_PARTIAL p = (s.raw .LNK_TRAINS_PARTIAL p + 1) % 2 ^ 16 ∧ keeps t [.lnk] (lanes ++ [.LNK_TRAINS_PARTIAL])) ∧
       (∀ at_, gainsTx 0 c.map k = true → c.switched = some at_ → at_ + us ≤ s.clock → ∃ t, exec (.laneDrive p) s = .next t ∧
         t.out = ⟨.training, [p, k, 1], []⟩ :: s.out ∧ keeps t [.out] []))) ∧
    (s.raw .LNK_CFG_ENABLE p = 0 → l.held = [] → s.raw .TMB_STATUS_DISCIPLINED = 0 → ∃ t, exec (.lnkDown p) s = .next t ∧ t.raw .LNK_STATUS_UP p = 0 ∧
      (t.link p).phase = .down ∧ (∀ k, k < 4 → t.laneState p k = lnDisabled) ∧ s.Logged t (0x10 + p) 0x0005 3 none 0xFF ∧
      t.tun.ports = s.tun.ports.del p ∧ (∀ q, q ≠ p → t.link q = s.link q) ∧
      s.Keeps t [.lnk, .tun, .tmb, .sal, .dev, .btn] fun r i _ => (r.owner i == 0x10 + p) ||
        [RegId.TUN_STATUS_PEER_OK, .TUN_STATUS_HOLD_WAIT, .TUN_PORT_STATUS_PEER_VALID, .TUN_PORT_STATUS_PEER_HOLD, .TUN_PORT_STATUS_OVER,
         .TUN_PORT_STATUS_ALLOT_PENDING, .TUN_RESV_TX_TOTAL, .TUN_RESV_RX_TOTAL, .TUN_RESV_RX_NEXT, .TMB_SYNC_ERR_SLAVE, .TMB_GM_ID_ID,
         .TMB_STATUS_DISCIPLINED, .SAL_LATE_MARK_MARKS].contains r) ∧
    (s.raw .LNK_CFG_ENABLE p = 1 → s.avrath p = true → l.deadAt = none → exec (.lnkDown p) s = .next s)

/-- R214 to R226, for a table in the hub's DRAM and units that are neither sealed nor reserved, with tracing and latency gauges off. -/
def Obligations.TunnelParcels : Prop :=
  ∀ (s : State) (p line : Nat) (b : List Byte) (rest : List (Nat × List Byte)), s.Inv → s.flowing = true → p < 6 → s.canLog → s.hostLoc = false →
    s.inDram s.area (2 ^ 26) = true → s.fld .TRC_CFG_ENABLE = 0 → s.gaugesOf 1 = [] →
    let l := s.link p
    let u := s.tunPort p
    let keeps (t : State) (gs : List Grp) (may : RegId → Nat → Nat → Bool) : Prop :=
      (∀ q, q ≠ p → t.link q = s.link q ∧ t.tunPort q = s.tunPort q) ∧ s.Keeps t gs may
    let lmp (op token : Nat) (body : List Byte) : OutParcel :=
      ⟨false, parcelHeader 2 6 0 0 0 (4 + body.length) 0 0 ++ padded ([BitVec.ofNat 8 op, 1] ++ leBytes 2 token ++ body), none⟩
    let sends (t : State) (inbox : List (Nat × List Byte)) (x : OutParcel) : Prop :=
      t.link p = { l with inbox := inbox, queue := l.queue.takeWhile isLmp ++ [x] ++ l.queue.dropWhile isLmp }
    let d := bits (fieldOf b 4 4) 16 0
    let live (t : State) (c : Nat) : Prop := t.entry c = (if s.chanState c = csArmed then withState (s.entry c) csLive else s.entry c) ∧
      ∀ x, x < s.entryAddr c ∨ s.entryAddr c + 64 ≤ x → t.mem.read x = s.mem.read x
    (isFiller b = true → exec (.fillerParcel p b) s = .next s) ∧
    (s.raw .LNK_STATUS_UP p = 1 → u.hello = none → u.helloAt + s.fld .TUN_TIMERS_HELLO_MS * ms ≤ s.clock → ∃ t, exec (.helloTimer p) s = .next t ∧
      t.tunPort p = { u with sent := true, helloAt := s.clock, token := (u.token + 1) % 2 ^ 16 } ∧ (t.link p).queue.length = l.queue.length + 1 ∧
      keeps t [.tun, .lnk] noReg) ∧
    (u.hello.isSome = true → exec (.helloTimer p) s = .next s) ∧
    (∀ c, c < 2 ^ 17 → s.peerOk p = true → u.closed = false → s.chanState c = csArmed → eLink (s.entry c) = p →
      ((∀ at_, u.est.get? c = some at_ → at_ + s.fld .TUN_CFG_EST_RETRY_MS * ms ≤ s.clock) → ∃ t, exec (.estRetry p c) s = .next t ∧
        t.tunPort p = { u with est := u.est.put c s.clock, token := (u.token + 1) % 2 ^ 16 } ∧
        sends t l.inbox (lmp 0x10 u.token (leBytes 4 c ++ leBytes 4 (eRemote (s.entry c)) ++
          [BitVec.ofNat 8 (eType (s.entry c)), if eSealed (s.entry c) then 1 else 0, 0, 0] ++ leBytes 4 ((s.entryKcv (s.entry c)).getD 0))) ∧
        keeps t [.tun, .lnk] noReg) ∧
      (∀ at_, u.est.get? c = some at_ → s.clock < at_ + s.fld .TUN_CFG_EST_RETRY_MS * ms → exec (.estRetry p c) s = .next s)) ∧
    (l.inbox = (line, b) :: rest → fieldOf b 0 1 ≠ 2 → s.partWaits b = false → s.peerOk p = true → u.closed = false →
      (hBad b = true → ∃ t, exec (.dataParcel p) s = .next t ∧ t.link p = { l with inbox := rest } ∧
        s.Logged t 0x18 0x0008 2 (some d) (p + d * 2 ^ 32) ∧ keeps t [.lnk, .btn] noReg) ∧
      (hBad b = false → bit (fieldOf b 1 1) 1 = true → bits (fieldOf b 2 1) 7 4 ≠ 0 → u.parts.get? d = none → ∃ t, exec (.dataParcel p) s = .next t ∧
        t.link p = { l with inbox := rest } ∧ s.Logged t 0x18 0x0009 2 (some d) (p + d * 2 ^ 32) ∧ keeps t [.lnk, .tun, .btn] noReg) ∧
      (hBad b = false → bits (fieldOf b 1 1) 3 0 = 6 → bits (fieldOf b 2 1) 7 4 = 0 → u.parts.get? d = none → u.rxNext = none → u.rxTotal < 2 ^ 13 →
        eSealed (s.entry d) = false →
        let regs : List RegId := [.TUN_RESV_RX_TOTAL, .TUN_RESV_RX_NEXT, .CHN_CACHE_HITS_HITS]
        (s.chanState d ≠ csLive → ∃ t, exec (.dataParcel p) s = .next t ∧ t.link p = { l with inbox := rest } ∧
          t.load (s.statsAddr d + 8) 8 = satAdd (s.load (s.statsAddr d + 8) 8) 1 64 ∧ keeps t [.lnk, .tun, .mem] (anyOf regs)) ∧
        (∀ berth, s.chanState d = csLive → s.raw .CHN_CFG_ENABLE = 1 → s.cached d = true → eOrdered (s.entry d) = false → s.pickBerth p 0 = some berth →
          max (s.fld .SAL_PAN_CFG_RESERVED_FLAKES) 1 ≤ s.panFree → ceilDiv ((b.drop 16).take (fieldOf b 8 2)).length 128 ≤ s.panFree →
          s.sal.soft.headD 0 = 0 → ∃ t, exec (.dataParcel p) s = .next t ∧ t.link p = { l with inbox := rest } ∧
            (∃ f, t.sal.units.get? s.sal.nextUnit = some f ∧ f.chan = d ∧ f.bytes = (b.drop 16).take (fieldOf b 8 2) ∧ f.kind = fieldOf b 2 1 % 16 ∧
              f.hops = some (fieldOf b 3 1 % 4) ∧ f.cseq = fieldOf b 10 2 ∧ f.whole = true ∧ f.bad = parcelVoid b ∧ f.berth = berth ∧
              f.stampMoment = s.moment) ∧
            (∀ m, m ≠ s.sal.nextUnit → t.sal.units.get? m = s.sal.units.get? m) ∧ keeps t [.lnk, .tun, .sal, .tmb, .chn] (anyOf regs)))) ∧
    (l.inbox = (line, b) :: rest → fieldOf b 0 1 = 2 → lmpOk b = true →
      let op := fieldOf b 16 1
      let body := (b.drop 16).take (fieldOf b 8 2)
      let token := fieldOf b 18 2
      let r := bits (fieldOf body 8 4) 16 0
      let c := bits (fieldOf body 4 4) 16 0
      let reason := s.estReason r (fieldOf body 12 1) (bit (fieldOf body 13 1) 0) (fieldOf body 16 4)
      (op = 1 → s.raw .LNK_STATUS_UP p = 1 → s.chans = [] → u.shares = [] → u.pending = none → l.change = none → s.dev.st = .run →
        s.raw .SYS_HOLD_CFG_UPSTREAM = 0 → (∀ q, q ≠ p → s.peerOk q = false) → s.raw .LNK_STATUS_REV_READY p = 0 →
        ∃ t, exec (.hello p) s = .next t ∧ t.link p = { l with inbox := rest } ∧
          (∃ h, (t.tunPort p).hello = some h ∧ h.pos = fieldOf body 7 1 ∧ h.flags = fieldOf body 9 1 ∧ h.gen = fieldOf body 10 1 ∧
            h.bootId = fieldOf body 12 4 ∧ h.session = fieldOf body 16 3 ∧ h.port = fieldOf body 8 1 % 8) ∧ (t.tunPort p).closed = false ∧
          t.raw .TUN_PORT_STATUS_PEER_VALID 0 p = 1 ∧ t.raw .TUN_PORT_STATUS_PEER_POS 0 p = fieldOf body 7 1 % 8 ∧
          t.raw .TUN_PORT_STATUS_PEER_HOLD 0 p = (bit (fieldOf body 9 1) 1).toNat ∧ t.raw .TUN_PEER_BOOT_BOOT_ID 0 p = fieldOf body 12 4 ∧
          bit (t.raw .TUN_STATUS_PEER_OK) p = true ∧
          keeps t [.lnk, .tun] (anyOf [.TUN_STATUS_PEER_OK, .TUN_STATUS_HOLD_WAIT, .TUN_PORT_STATUS_PEER_POS, .TUN_PORT_STATUS_PEER_VALID,
            .TUN_PORT_STATUS_PEER_HOLD, .TUN_PORT_STATUS_OVER, .TUN_PEER_BOOT_BOOT_ID])) ∧
      (op = 0x10 → s.peerOk p = true → reason = 0 → ∃ t, exec (.estReq p) s = .next t ∧ sends t rest (lmp 0x11 token ((body.drop 4).take 16)) ∧ live t r ∧
        keeps t [.lnk, .mem] noReg) ∧
      (op = 0x10 → s.peerOk p = true → reason ≠ 0 → ∃ t, exec (.estReq p) s = .next t ∧
        sends t rest (lmp 0x12 token ((body.drop 4).take 16 ++ [BitVec.ofNat 8 reason])) ∧ keeps t [.lnk] noReg) ∧
      (op = 0x11 → s.peerOk p = true → eLink (s.entry c) = p → ∃ t, exec (.estAck p) s = .next t ∧ t.link p = { l with inbox := rest } ∧
        t.tunPort p = { u with est := u.est.del c } ∧ live t c ∧ keeps t [.lnk, .tun, .mem] noReg) ∧
      (op = 0x12 → s.peerOk p = true → ∃ t, exec (.estNak p) s = .next t ∧ t.link p = { l with inbox := rest } ∧
        t.raw .TUN_EST_NAKS 0 p = (s.raw .TUN_EST_NAKS 0 p + 1) % 2 ^ 16 ∧ s.Logged t 0x18 0x0001 2 (some c) (p + c * 2 ^ 32) ∧
        keeps t [.lnk, .btn] (anyOf [.TUN_EST_NAKS])))

/-- R232 to R241, R243, R244 and R249. -/
def Obligations.AllotmentTime : Prop :=
  ∀ (s : State) (p line : Nat) (b : List Byte) (rest : List (Nat × List Byte)), s.Inv → s.coreAlive = true → p < 6 → s.canLog → s.hostLoc = false →
    s.inDram s.area (2 ^ 26) = true →
    let l := s.link p
    let u := s.tunPort p
    let keeps (t : State) (gs : List Grp) (may : RegId → Nat → Nat → Bool) : Prop :=
      (∀ q, q ≠ p → t.link q = s.link q ∧ t.tunPort q = s.tunPort q) ∧ s.Keeps t gs may
    let lmp (op token : Nat) (body : List Byte) : OutParcel :=
      ⟨false, parcelHeader 2 6 0 0 0 (4 + body.length) 0 0 ++ padded ([BitVec.ofNat 8 op, 1] ++ leBytes 2 token ++ body), none⟩
    let sends (t : State) (inbox : List (Nat × List Byte)) (x : OutParcel) : Prop :=
      t.link p = { l with inbox := inbox, queue := l.queue.takeWhile isLmp ++ [x] ++ l.queue.dropWhile isLmp }
    let abandoned (t : State) (code : Nat) : Prop := t.tunPort p = { u with pending := none, retry := true } ∧
      t.raw .TUN_PORT_STATUS_ALLOT_PENDING 0 p = 0 ∧ s.Logged t 0x18 code 2 none p ∧
      keeps t [.lnk, .tun, .btn] (anyOf [.TUN_PORT_STATUS_ALLOT_PENDING])
    let op := fieldOf b 16 1
    let body := (b.drop 16).take (fieldOf b 8 2)
    let token := fieldOf b 18 2
    let ended (t : State) : Prop := t.dev.st = .run ∧ s.Logged t 0x01 0x0004 1 none 0
    let power : List RegId := [.SYS_POWER_TRANSIT, .SYS_POWER_PACE_RAISE]
    (l.inbox = (line, b) :: rest → fieldOf b 0 1 = 2 → lmpOk b = true → s.peerOk p = true →
      (op = 0x20 →
        let ver := fieldOf body 4 1
        let tot := fieldOf body 6 2
        let ep := fieldOf body 8 4
        let nak (reason : Nat) : Prop := ∃ t, exec (.allotReq p) s = .next t ∧
          sends t rest (lmp 0x22 token ([BitVec.ofNat 8 ver, BitVec.ofNat 8 reason, 0, 0] ++ leBytes 4 ep)) ∧ keeps t [.lnk] noReg
        let standing : Prop := s.raw .LNK_STATUS_LANE_CHANGE p = 1 ∨ u.rxNext.isSome = true
        (laterEpoch ep (s.epoch + 1) = false → nak 2) ∧ (laterEpoch ep (s.epoch + 1) = true → standing → nak 1) ∧
        (laterEpoch ep (s.epoch + 1) = true → ¬ standing → s.rxLimit p < tot → nak 3) ∧
        (laterEpoch ep (s.epoch + 1) = true → ¬ standing → tot ≤ s.rxLimit p → ∃ t, exec (.allotReq p) s = .next t ∧
          t.tunPort p = { u with rxNext := some (tot, ver % 2, ep) } ∧ t.raw .TUN_RESV_RX_NEXT 0 p = tot ∧
          sends t rest (lmp 0x21 token ([BitVec.ofNat 8 ver, 0, 0, 0] ++ leBytes 4 ep)) ∧ keeps t [.lnk, .tun] (anyOf [.TUN_RESV_RX_NEXT]))) ∧
      (∀ r, u.pending = some r → r.ver = fieldOf body 4 1 → r.epoch = fieldOf body 8 4 → r.acked = false →
        (op = 0x21 → s.allotTimely r = true → ∃ t, exec (.allotAck p) s = .next t ∧ t.tunPort p = { u with pending := some { r with acked := true } } ∧
          keeps t [.lnk, .tun] noReg) ∧
        (op = 0x21 → s.allotTimely r = false → ∃ t, exec (.allotAck p) s = .next t ∧ abandoned t 0x0002) ∧
        (op = 0x22 → ∃ t, exec (.allotNak p) s = .next t ∧ abandoned t 0x0003)) ∧
      (op = 0x30 → fieldOf body 4 2 = 1 → s.grn.ipend.testBit 0x18 = false → s.fld .BRG_VEC_MAP_EN 0 0x18 = 0 →
        let h := s.raw .TUN_REPORT_HEAD_HEAD
        let a := s.raw .TUN_REPORT_BASE_BASE * 16 + 16 * (h % s.ringSize)
        s.ringFull 2 = false → s.inDram a 16 = true → 16 ≤ body.length →
        ∃ t, exec (.holdReport p) s = .next t ∧ t.link p = { l with inbox := rest } ∧ t.raw .TUN_REPORT_HEAD_HEAD = (h + 1) % s.ringSize ∧
          t.mem.reads a 8 = (body.drop 8).take 8 ∧ t.mem.read (a + 8) = BitVec.ofNat 8 p ∧ t.grn.ipend.testBit 0x18 = true ∧
          (∀ x, x < a ∨ a + 16 ≤ x → t.mem.read x = s.mem.read x) ∧ t.bus = { s.bus with full := t.bus.full } ∧
          t.ringFull 2 = ((h + 1) % s.ringSize == s.raw .TUN_REPORT_TAIL_TAIL % s.ringSize) ∧ keeps t [.lnk, .mem, .grn, .bus] (anyOf [.TUN_REPORT_HEAD_HEAD])) ∧
      (op = 0x31 → s.dev.st = .hold → fieldOf body 7 1 = s.raw .CHN_GEN_ACTIVE_GEN → fieldOf body 4 2 = 1 → 16 ≤ body.length →
        let w := leNat ((body.drop 8).take 8)
        let c := bits w 16 0
        bits w 24 17 = eGen (s.entry c) → bit (fieldOf body 6 1) 1 = false → ∃ t, exec (.holdConfirm p) s = .next t ∧
          t.entry c = (if s.chanState c = csHeld then withState (s.entry c) csLive else s.entry c) ∧
          (bit (fieldOf body 6 1) 0 = true → ended t) ∧ (bit (fieldOf body 6 1) 0 = false → t.dev = s.dev ∧ t.btn = s.btn) ∧
          keeps t [.lnk, .mem, .dev, .btn, .out] (anyOf power)) ∧
      (op = 0x31 → s.dev.st ≠ .hold → ∃ t, exec (.holdConfirm p) s = .next t ∧ t.link p = { l with inbox := rest } ∧ keeps t [.lnk] noReg) ∧
      (op = 0x40 → ∃ t, exec (.sync p) s = .next t ∧ t.tunPort p = { u with syncRx := some (fieldOf body 4 2, s.asTime line) } ∧ keeps t [.lnk, .tun] noReg) ∧
      (∀ t2, op = 0x41 → u.syncRx = some (fieldOf body 4 2, t2) → ∃ t, exec (.followUp p) s = .next t ∧ t.tunPort p = { u with syncRx := none } ∧
        t.tmb.heard = s.tmb.heard.put p [fieldOf body 24 1, fieldOf body 26 1, fieldOf body 25 1, fieldOf body 16 8, fieldOf body 6 1] ∧
        (t.tmb.slave = some p → t.raw .TMB_OFFSET_LAST_OFFSET = enc 64 (t2 - (sgn 64 (fieldOf body 8 8) + (u.delay - (s.asym p).1 / 500)))) ∧
        keeps t [.lnk, .tun, .tmb, .btn, .moment] fun r _ _ => r.info.blk == .tmb || [RegId.BTN_LOST_RECORDS, .BTN_STATUS_OVERFLOW].contains r) ∧
      (op = 0x42 → ∃ t, exec (.pdelayReq p) s = .next t ∧
        sends t rest (lmp 0x43 token ((body.drop 4).take 2 ++ [0, 0] ++ leBytes 8 (enc 64 (s.asTime line)))) ∧ keeps t [.lnk] noReg) ∧
      (op = 0x43 → fieldOf body 4 2 = (u.pdelaySeq + 2 ^ 16 - 1) % 2 ^ 16 → ∃ t, exec (.pdelayResp p) s = .next t ∧
        t.tunPort p = { u with t2 := sgn 64 (fieldOf body 8 8), t4 := s.asTime line } ∧ keeps t [.lnk, .tun] noReg) ∧
      (op = 0x44 → fieldOf body 4 2 = (u.pdelaySeq + 2 ^ 16 - 1) % 2 ^ 16 → ∃ t, exec (.pdelayFollow p) s = .next t ∧
        t.tunPort p = { u with t3 := sgn 64 (fieldOf body 8 8), delay := meanDelay u.t1 u.t2 (sgn 64 (fieldOf body 8 8)) u.t4 u.prev,
                               prev := some (sgn 64 (fieldOf body 8 8), u.t4) } ∧ keeps t [.lnk, .tun] noReg)) ∧
    (∀ r, u.pending = some r → r.acked = false →
      (s.allotTimely r = false → ∃ t, exec (.allotTimeout p) s = .next t ∧ abandoned t 0x0002) ∧
      (s.allotTimely r = true → exec (.allotTimeout p) s = .next s)) ∧
    (s.moment % 2 ^ 16 ≠ 0 → exec .epochStart s = .next s) ∧
    (∀ r c n, s.moment % 2 ^ 16 = 0 → s.peerOk p = true → u.pending = some r → r.acked = true → laterEpoch r.epoch s.epoch = false → r.shares = [(c, n)] →
      s.wanted p = r.shares → r.ver < 256 → r.total < 2 ^ 13 → u.closed = false → l.change = none → ∃ t, exec .epochStart s = .next t ∧
        (t.tunPort p).shares = [(c, n)] ∧ (t.tunPort p).pending = none ∧ t.raw .TUN_PORT_STATUS_ALLOT_VER 0 p = r.ver ∧
        t.raw .TUN_RESV_TX_TOTAL 0 p = r.total ∧ t.raw .TUN_PORT_STATUS_ALLOT_PENDING 0 p = 0 ∧
        (t.tunPort p).credit.get? c = some (min 0 ((u.credit.get? c).getD 0) + (n * shareOf (s.raw .LNK_STATUS_RATE p) : Nat)) ∧
        s.Keeps t [.tun, .lnk, .btn] (anyOf [.TUN_PORT_STATUS_OVER, .TUN_PORT_STATUS_ALLOT_PENDING, .TUN_PORT_STATUS_ALLOT_VER, .TUN_SWITCH_EPOCH_EPOCH,
          .TUN_RESV_TX_TOTAL, .BTN_LOST_RECORDS, .BTN_STATUS_OVERFLOW])) ∧
    (∀ last all gen, s.peerOk p = true → s.raw .TUN_CONFIRM_COUNT_COUNT = 1 → ∃ t, exec (.confirm p last all gen) s = .next t ∧
      t.raw .TUN_CMD_STATUS_RESULT = 1 ∧ t.tunPort p = { u with token := (u.token + 1) % 2 ^ 16 } ∧
      sends t l.inbox (lmp 0x31 u.token (leBytes 2 1 ++ [(if last then 1 else 0) + (if all then 2 else 0), BitVec.ofNat 8 gen] ++
        s.mem.reads (s.raw .TUN_CONFIRM_BASE_BASE * 8) 8)) ∧ keeps t [.lnk, .tun] (anyOf [.TUN_CMD_STATUS_RESULT])) ∧
    (∀ last all gen, s.peerOk p = false → ∃ t, exec (.confirm p last all gen) s = .next t ∧ t.raw .TUN_CMD_STATUS_RESULT = 2 ∧
      s.Keeps t [] (anyOf [.TUN_CMD_STATUS_RESULT])) ∧
    (∀ all, ∃ t, exec (.localEnd all) s = .next t ∧ t.raw .TUN_CMD_STATUS_RESULT = 1 ∧
      (s.dev.st = .hold → ended t ∧ ∀ c, c < 2 ^ 17 → t.entry c =
        if all = true ∧ s.chanState c = csHeld then withState (s.entry c) csLive else s.entry c) ∧
      (s.dev.st ≠ .hold → s.Keeps t [] (anyOf [.TUN_CMD_STATUS_RESULT])) ∧ s.Keeps t [.mem, .dev, .btn, .out] (anyOf (.TUN_CMD_STATUS_RESULT :: power))) ∧
    (s.peerOk p = true → s.tmb.slave ≠ some p → u.syncAt + s.syncEvery ≤ s.clock → ∃ t, exec (.syncInterval p) s = .next t ∧
      t.tunPort p = { u with syncSeq := (u.syncSeq + 1) % 2 ^ 16, syncAt := s.clock, token := (u.token + 1) % 2 ^ 16 } ∧
      sends t l.inbox (lmp 0x40 u.token (leBytes 2 u.syncSeq ++ [BitVec.ofNat 8 (s.fld .TMB_SYNC_CFG_LOG_SYNC)])) ∧ keeps t [.lnk, .tun] noReg) ∧
    (s.peerOk p = true → u.pdelayAt + s.pdelayEvery ≤ s.clock → ∃ t, exec (.pdelayInterval p) s = .next t ∧
      t.tunPort p = { u with pdelaySeq := (u.pdelaySeq + 1) % 2 ^ 16, pdelayAt := s.clock, token := (u.token + 1) % 2 ^ 16 } ∧
      sends t l.inbox (lmp 0x42 u.token (leBytes 2 u.pdelaySeq)) ∧ keeps t [.lnk, .tun] noReg) ∧
    (s.tmb.slave.isSome = true → s.tmb.lastSync + 16 * s.syncEvery ≤ s.clock → ∃ t, exec .syncReceiptTimeout s = .next t ∧
      t.raw .TMB_STATUS_DISCIPLINED = 0 ∧ (s.raw .TMB_STATUS_DISCIPLINED = 1 → s.Logged t 0x02 0x0003 2 none 0) ∧
      s.Keeps t [.btn] (anyOf [.TMB_STATUS_DISCIPLINED])) ∧
    (s.clock < s.tmb.lastSync + 16 * s.syncEvery → exec .syncReceiptTimeout s = .next s)

/-- R217, R235, R267, R270, R273, R278, R284, R285, R296, R300 to R302, with tracing and latency gauges off. -/
def Obligations.Egress : Prop :=
  ∀ (s : State) (q : Nat), s.Inv → s.flowing = true → q < 16384 → s.canLog → s.fld .TRC_CFG_ENABLE = 0 → s.gaugesOf 1 = [] → s.sal.soft.headD 0 = 0 →
    s.inDram s.area (2 ^ 26) = true →
    let dropped (t : State) (c : Nat) : Prop := t.load (s.statsAddr c + 8) 8 = satAdd (s.load (s.statsAddr c + 8) 8) 1 64
    (∀ (n : Nat) (i : Instr) (x : Queued) (f : Flow) (rest : List Queued), n < 10 → i = .egressStart gEth n ∨ i = .transmissionOpportunity n →
      s.portUp gEth n = true → s.raw .BLK_CTRL_QUIESCE (0x20 + n) = 0 → s.rak.sending.get? (portKey gEth n) = none → s.slotsOf gEth n = [q] →
      s.headOf q = some (x, f) → s.queue q = x :: rest → x.started = false → f.whole = true → s.headFault q f = 0 → (s.ethPort n).ptp = [] →
      let tc := s.raw .SAL_QCFG_TC 0 q
      s.raw .ETH_TC_CBS_EN n tc = 0 → s.shapers q = [] → s.mayStart q x f = true → s.fits n tc (frameLen f.leaving) = true →
      ∃ t, exec i s = .next t ∧ t.rak.sending.get? (portKey gEth n) = some q ∧ t.queue q = { x with started := true, sent := 1 } :: rest ∧
        (∀ k, k ≠ q → t.queue k = s.queue k) ∧ s.Keeps t [.rak, .sal, .tmb] noReg) ∧
    (∀ (p : Nat) (x : Queued) (f : Flow) (rest : List Queued) (payload : List Byte) (last : Bool), p < 6 → s.raw .LNK_STATUS_UP p = 1 →
      s.raw .BLK_CTRL_QUIESCE (0x10 + p) = 0 → s.slotsOf p 0 = [q] → s.nextPart p q = some (x, f, payload, last) → s.headOf q = some (x, f) →
      s.queue q = x :: rest → x.sent = 0 → x.started = false → s.headFault q f = 0 → f.mustSeal = false → eWeight f.entry = 0 →
      (s.tunPort p).credit = [] → s.shapers q = [] →
      let cseq := (s.tun.cseq.get? f.chan).getD 0
      let flags := 2 + (if last then 4 else 0) + (if s.raw .TUN_PORT_STATUS_ALLOT_VER 0 p % 2 = 1 then 16 else 0)
      let header := parcelHeader 1 flags (f.kind % 16) (match f.hops with | some h => h - 1 | none => 3) (eRemote f.entry) payload.length cseq
        (f.origin.getD (f.stampMoment % 2 ^ 32))
      ∃ t, exec (.egressStart p 0) s = .next t ∧
        (t.link p).queue.map (fun o => (o.void, o.bytes)) = (s.link p).queue.map (fun o => (o.void, o.bytes)) ++ [(false, header ++ padded payload)] ∧
        t.queue q = { x with started := true, sent := 1, cseq := cseq, ended := last } :: rest ∧ t.tun.cseq.get? f.chan = some ((cseq + 1) % 2 ^ 16) ∧
        s.Keeps t [.lnk, .tun, .sal, .tmb] noReg) ∧
    (∀ (x : Queued) (f : Flow) (rest : List Queued), s.headOf q = some (x, f) → s.queue q = x :: rest → x.native = false → f.bad = false →
      let n := s.slotPort q
      let g := s.slotGroup q
      (g = gEth → n < 10 → x.started = true → x.sent = 1 → f.whole = true → ∃ t, exec (.egressComplete q) s = .next t ∧
        t.out = ⟨.frame, [gEth, n, 0], frameBytes f.leaving false⟩ :: s.out ∧ t.raw .ETH_TX_FRAMES_FRAMES n = (s.raw .ETH_TX_FRAMES_FRAMES n + 1) % 2 ^ 64 ∧
        t.raw .SAL_QSTAT_UNITS_OUT 0 q = (s.raw .SAL_QSTAT_UNITS_OUT 0 q + 1) % 2 ^ 32 ∧ t.queue q = rest ∧
        t.sal.units = s.sal.units.del x.unit ∧ t.rak = { s.rak with sending := s.rak.sending.del (portKey gEth n) } ∧
        s.Keeps t [.out, .sal, .rak] (anyOf [.ETH_TX_FRAMES_FRAMES, .SAL_QSTAT_UNITS_OUT])) ∧
      (g < 6 → x.ended = true → ∃ t, exec (.egressComplete q) s = .next t ∧ t.raw .SAL_QSTAT_UNITS_OUT 0 q = (s.raw .SAL_QSTAT_UNITS_OUT 0 q + 1) % 2 ^ 32 ∧
        t.queue q = rest ∧ t.sal.units = s.sal.units.del x.unit ∧ s.Keeps t [.sal, .rak] (anyOf [.SAL_QSTAT_UNITS_OUT])) ∧
      (x.started = false → 6 ≤ g → exec (.egressComplete q) s = .next s) ∧
      (x.started = true → f.whole = false → ∃ t, exec (.lostFlakeTimeout q) s = .next t ∧ t.raw .SAL_LOST_UNITS = (s.raw .SAL_LOST_UNITS + 1) % 2 ^ 32 ∧
        t.sal = { s.sal with units := s.sal.units.map fun e => if e.1 == x.unit || e.2.parent == some x.unit then (e.1, { e.2 with bad := true }) else e } ∧
        s.Keeps t [.sal] (anyOf [.SAL_LOST_UNITS])) ∧
      (f.whole = true → exec (.lostFlakeTimeout q) s = .next s)) ∧
    (∀ (l : List Queued) (x : Queued), s.sal.queues = [(q, l)] → s.refillDue q = some x → ∃ t, exec .refill s = .next t ∧
      t.queue q = l.map (fun y => if y.unit == x.unit then { y with spilled := false } else y) ∧ t.sal.units = s.sal.units ∧ s.Keeps t [.sal] noReg) ∧
    ((∀ e ∈ s.sal.queues, s.refillDue e.1 = none) → exec .refill s = .next s) ∧
    (∀ (x : Queued) (f : Flow), s.queue q = [x] → s.sal.units.get? x.unit = some f → x.started = false → x.native = false → f.chan < 2 ^ 17 →
      s.rak.sending.get? (portKey (s.slotGroup q) (s.slotPort q)) ≠ some q → ∃ t, exec (.flush q) s = .next t ∧ t.raw .SAL_QCFG_FLUSH 0 q = 1 ∧
        t.sal.flushes.contains q = true ∧ t.queue q = [] ∧ t.sal.units = s.sal.units.del x.unit ∧ dropped t f.chan ∧
        t.raw .SAL_QSTAT_DROPS 0 q = (s.raw .SAL_QSTAT_DROPS 0 q + 1) % 2 ^ 32 ∧ s.Keeps t [.sal, .mem] (anyOf [.SAL_QCFG_FLUSH, .SAL_QSTAT_DROPS])) ∧
    (s.sal.flushes.contains q = true → ∃ t, exec (.flushComplete q) s = .next t ∧ t.raw .SAL_QCFG_FLUSH 0 q = 0 ∧
      t.sal = { s.sal with flushes := s.sal.flushes.filter (· != q) } ∧ s.Keeps t [.sal] (anyOf [.SAL_QCFG_FLUSH])) ∧
    (s.sal.flushes.contains q = false → exec (.flushComplete q) s = .next s) ∧
    (∀ b, b < 32 →
      let st := s.raw .SAL_BERTH_STATE_STATE 0 b
      let wrong (i : Instr) : Prop := ∃ t, exec i s = .next t ∧ t.raw .SAL_BERTH_CMD_STATUS_RESULT = 2 ∧ s.Keeps t [] (anyOf [.SAL_BERTH_CMD_STATUS_RESULT])
      (st = 0 → ∃ t, exec (.berthDrain b) s = .next t ∧ t.raw .SAL_BERTH_STATE_STATE 0 b = 1 ∧ t.raw .SAL_BERTH_CMD_STATUS_RESULT = 1 ∧
        t.sal = { s.sal with drains := s.sal.drains.put b s.clock } ∧
        s.Keeps t [.sal] fun r _ j => (r == .SAL_BERTH_STATE_STATE && j == b) || r == .SAL_BERTH_CMD_STATUS_RESULT) ∧
      (st ≠ 0 → wrong (.berthDrain b)) ∧
      (st = 2 → s.sal.failed.contains b = false → ∃ t, exec (.berthRestore b) s = .next t ∧ t.raw .SAL_BERTH_STATE_STATE 0 b = 0 ∧
        t.raw .SAL_BERTH_CMD_STATUS_RESULT = 1 ∧ s.Logged t 0x19 0x0009 1 none b ∧
        s.Keeps t [.btn] fun r _ j => (r == .SAL_BERTH_STATE_STATE && j == b) || r == .SAL_BERTH_CMD_STATUS_RESULT) ∧
      (st ≠ 2 ∨ s.sal.failed.contains b = true → wrong (.berthRestore b)) ∧
      (∀ at_, s.sal.drains.get? b = some at_ → st = 1 → (∃ k ∈ s.berths (s.groupOf b), k ≠ b ∧ s.berthState k = 0) →
        (∀ e ∈ s.sal.units, e.2.berth ≠ b ∨ e.2.whole = true) → ∃ t, exec (.berthOff b) s = .next t ∧ t.raw .SAL_BERTH_STATE_STATE 0 b = 2 ∧
          t.sal = { s.sal with drains := s.sal.drains.del b } ∧ s.Logged t 0x19 0x0008 2 none b ∧
          s.Keeps t [.sal, .btn] fun r _ j => r == .SAL_BERTH_STATE_STATE && j == b) ∧
      (s.sal.drains.get? b = none → exec (.berthOff b) s = .next s))

/-- R292 to R299, R303, R306, R314 and R318, with tracing and latency gauges off. -/
def Obligations.Ethernet : Prop :=
  ∀ (s : State) (n : Nat), s.Inv → s.flowing = true → n < 10 → s.canLog → s.fld .TRC_CFG_ENABLE = 0 → s.gaugesOf 1 = [] → s.sal.soft.headD 0 = 0 →
    s.hostLoc = false → s.inDram s.area (2 ^ 26) = true → s.raw .TMB_STATUS_DISCIPLINED = 0 →
    let e := s.ethPort n
    let blk := 0x20 + n
    let port (t : State) (e' : EthPort) : Prop := t.ethPort n = e' ∧ ∀ k, k ≠ n → t.ethPort k = s.ethPort k
    let master : List RegId := [.TMB_SYNC_ERR_SLAVE, .TMB_GM_ID_ID, .TMB_STATUS_DISCIPLINED]
    let due := (e.pdelaySeq + 2 ^ 16 - 1) % 2 ^ 16
    (s.ethUp n = true → s.raw .BLK_CTRL_QUIESCE blk = 0 →
      (∀ (b : List Byte) (err : Bool),
        let counted (r : RegId) : Prop := ∃ t, exec (.ethFrameReceive n b err) s = .next t ∧ t.raw r n = (s.raw r n + 1) % 2 ^ 32 ∧ s.Keeps t [] (ofInst [r] n)
        let good : Prop := 64 ≤ b.length ∧ b.length ≤ s.raw .ETH_CFG_MAX_FRAME n ∧ err = false ∧ crc32 (b.take (b.length - 4)) = leNat (b.drop (b.length - 4))
        let etype := beNat ((b.drop 12).take 2)
        (b.length < 64 → counted .ETH_RX_RUNT_FRAMES) ∧
        (64 ≤ b.length → s.raw .ETH_CFG_MAX_FRAME n < b.length → counted .ETH_RX_LONG_FRAMES) ∧
        (64 ≤ b.length → b.length ≤ s.raw .ETH_CFG_MAX_FRAME n → (err = true ∨ crc32 (b.take (b.length - 4)) ≠ leNat (b.drop (b.length - 4))) →
          counted .ETH_RX_FCS_FRAMES) ∧
        (good → etype = 0x8808 → counted .ETH_RX_MACCTL_FRAMES) ∧
        (good → etype = 0x88F7 → beNat (b.take 6) = 0x0180C200000E → s.raw .ETH_PTP_ENABLE n = 1 → exec (.ethFrameReceive n b err) s = .next s) ∧
        (let c := s.raw .ETH_RX_CLASS_DEFAULT n
         ∀ berth, good → etype ≠ 0x88F7 → etype ≠ 0x8808 → s.raw .ETH_RX_CLASS_DESC n = 0xFF → s.pickBerth gEth n = some berth →
          s.raw .CHN_CFG_ENABLE = 1 → ceilDiv b.length 128 ≤ s.panFree → 1 ≤ s.panFree → s.cached c = true → s.chanState c = csLive →
          eOrdered (s.entry c) = false → ∃ t, exec (.ethFrameReceive n b err) s = .next t ∧
            t.raw .ETH_RX_FRAMES_FRAMES n = (s.raw .ETH_RX_FRAMES_FRAMES n + 1) % 2 ^ 64 ∧
            (∃ f, t.sal.units.get? s.sal.nextUnit = some f ∧ f.chan = c ∧ f.kind = 1 ∧ f.bytes = b ∧ f.berth = berth ∧ f.stampMoment = s.moment ∧
              f.bad = false ∧ f.place = .waiting false) ∧
            s.Keeps t [.sal, .tmb, .chn] (anyOf [.ETH_RX_FRAMES_FRAMES, .CHN_CACHE_HITS_HITS])))) ∧
    ((s.gatesAt n s.moment).2.2 < 2 ^ 10 → ∃ t, exec (.gateChange n) s = .next t ∧ t.raw .ETH_SLU_STATUS_GATES n = (s.gatesAt n s.moment).1 % 256 ∧
      t.raw .ETH_SLU_STATUS_ENTRY n = (s.gatesAt n s.moment).2.2 ∧ s.Keeps t [.rak] (ofInst [.ETH_SLU_STATUS_GATES, .ETH_SLU_STATUS_ENTRY] n)) ∧
    (∀ c, e.changeAt = some c → c < 2 ^ 64 →
      (s.moment < c → exec (.sluiceConfigChange n) s = .next s) ∧
      (c ≤ s.moment →
        let l := s.judged.adminList n c
        ∃ t, exec (.sluiceConfigChange n) s = .next t ∧ t.raw .ETH_SLU_STATUS_OPER_EN n = l.en.toNat ∧ t.raw .ETH_SLU_OPER_BASE_BASE n = c ∧
          t.raw .ETH_SLU_OPER_CYCLE_CYCLE_NS n = l.cycle / 4 ∧
          (∀ i (h : i < l.entries.length), t.raw .ETH_SLU_OPER_ENTRY n i = l.entries[i].1 + l.entries[i].2 / 4 * 256) ∧
          (t.ethPort n).listLen = l.entries.length ∧ (t.ethPort n).changeAt = none ∧ t.raw .ETH_SLU_STATUS_CHANGE_PENDING n = 0 ∧
          t.raw .BLK_STATUS_COMMIT_PENDING blk = 0 ∧ t.raw .BLK_STATUS_RESULT blk = 1 ∧ s.Logged t blk 0x0005 2 none (0xFF + c * 2 ^ 32) ∧
          s.Keeps t [.rak, .eth, .btn, .shadows, .taken] fun r i _ => r.owner i == blk)) ∧
    (e.changeAt = none → exec (.sluiceConfigChange n) s = .next s) ∧
    (∀ speed, speed < 5 → s.raw .ETH_CFG_ENABLE n = 1 → s.raw .ETH_STATUS_LINK n = 0 → s.laneOut (24 + n) = false →
      (ethSpeedOk (s.raw .ETH_CFG_MODE n) speed = true → ∃ t, exec (.ethLinkUp n speed) s = .next t ∧ t.raw .ETH_STATUS_LINK n = 1 ∧
        t.raw .ETH_STATUS_SPEED n = speed ∧ s.Logged t blk 0x0002 1 none 0xFF ∧ (t.ethPort n).capable = false ∧
        s.Keeps t [.eth, .btn] (ofInst [.ETH_STATUS_LINK, .ETH_STATUS_SPEED, .ETH_STATUS_FEC_LOCK, .ETH_STATUS_AN_DONE, .ETH_STATUS_LOCAL_FAULT,
          .ETH_STATUS_REMOTE_FAULT] n)) ∧
      (ethSpeedOk (s.raw .ETH_CFG_MODE n) speed = false → exec (.ethLinkUp n speed) s = .next s)) ∧
    (s.raw .ETH_STATUS_LINK n = 0 → exec (.ethLinkDown n) s = .next s) ∧
    (s.raw .ETH_STATUS_LINK n = 1 → s.rak.sending.get? (portKey gEth n) = none → s.slotsOf gEth n = [] → ∃ t, exec (.ethLinkDown n) s = .next t ∧
      t.raw .ETH_STATUS_LINK n = 0 ∧ t.raw .ETH_STATUS_LINK_DOWNS n = (s.raw .ETH_STATUS_LINK_DOWNS n + 1) % 2 ^ 16 ∧ (t.ethPort n).capable = false ∧
      s.Logged t blk 0x0001 2 none 0xFF ∧ t.tmb.heard = s.tmb.heard.del (0x10 + n) ∧ s.Keeps t [.eth, .tmb, .btn] fun r i _ =>
        ([RegId.ETH_STATUS_LINK, .ETH_STATUS_FEC_LOCK, .ETH_STATUS_AN_DONE, .ETH_STATUS_LINK_DOWNS].contains r && i == n) || master.contains r) ∧
    (s.ethUp n = true → s.raw .ETH_PTP_ENABLE n = 1 →
      (∀ p1 cls p2 ident steps, (e.capable = true → ∃ t, exec (.ptpAnnounce n p1 cls p2 ident steps) s = .next t ∧
          t.tmb.heard = s.tmb.heard.put (0x10 + n) [p1, cls, p2, ident, steps] ∧ s.Keeps t [.tmb, .btn] (anyOf master)) ∧
        (e.capable = false → exec (.ptpAnnounce n p1 cls p2 ident steps) s = .next s)) ∧
      (∀ seq, e.capable = true → ∃ t, exec (.ptpSync n seq) s = .next t ∧ port t { e with syncRx := some (seq, s.ethRxTime n) } ∧
        s.Keeps t [.eth, .tmb] noReg) ∧
      (∀ seq t1 t2, e.syncRx = some (seq, t2) → ∃ t, exec (.ptpFollowUp n seq t1) s = .next t ∧ port t { e with syncRx := none } ∧
        (s.tmb.slave = some (0x10 + n) →
          t.raw .TMB_OFFSET_LAST_OFFSET = enc 64 (t2 - (t1 + e.delay + sgn 32 (s.raw .ETH_PTP_ASYM_ASYM_PS n) / 250))) ∧
        s.Keeps t [.eth, .tmb, .btn, .moment] fun r _ _ => r.info.blk == .tmb || [RegId.BTN_LOST_RECORDS, .BTN_STATUS_OVERFLOW].contains r) ∧
      (∀ seq, ∃ t, exec (.ptpPdelayReq n seq) s = .next t ∧ port t { e with ptp := e.ptp ++ [(3, seq, s.ethRxTime n)] } ∧ s.Keeps t [.eth, .tmb] noReg) ∧
      (∀ t2, ∃ t, exec (.ptpPdelayResp n due t2) s = .next t ∧ port t { e with t2 := t2, t4 := s.ethRxTime n } ∧ s.Keeps t [.eth, .tmb] noReg) ∧
      (∀ t3, let delay := meanDelay e.t1 e.t2 t3 e.t4 e.prev
        (delay ≤ 3200 → ∃ t, exec (.ptpPdelayRespFollowUp n due t3) s = .next t ∧
          port t { e with delay := delay, prev := some (t3, e.t4), capable := true, slow := false } ∧ s.Keeps t [.eth] noReg) ∧
        (3200 < delay → e.slow = false → ∃ t, exec (.ptpPdelayRespFollowUp n due t3) s = .next t ∧
          port t { e with delay := delay, prev := some (t3, e.t4), capable := false, slow := true } ∧ s.Logged t blk 0x0006 2 none 0xFF ∧
          s.Keeps t [.eth, .tmb, .btn] (anyOf master))) ∧
      (∃ t, exec (.ptpSignaling n) s = .next t ∧ s.Keeps t [.tmb] noReg) ∧
      (s.tmb.slave ≠ some (0x10 + n) →
        (e.announceAt + sec ≤ s.clock → ∃ t, exec (.announceInterval n) s = .next t ∧
          port t { e with announceAt := s.clock, ptp := e.ptp ++ [(11, 0, 0)] } ∧ s.Keeps t [.eth] noReg) ∧
        (e.capable = true → e.syncAt + s.syncEvery ≤ s.clock → ∃ t, exec (.syncInterval (0x10 + n)) s = .next t ∧
          port t { e with syncSeq := (e.syncSeq + 1) % 2 ^ 16, syncAt := s.clock, ptp := e.ptp ++ [(0, e.syncSeq, 0)] } ∧ s.Keeps t [.eth] noReg)) ∧
      (e.pdelayAt + s.pdelayEvery ≤ s.clock → ∃ t, exec (.pdelayInterval (0x10 + n)) s = .next t ∧
        port t { e with pdelaySeq := (e.pdelaySeq + 1) % 2 ^ 16, pdelayAt := s.clock, ptp := e.ptp ++ [(2, e.pdelaySeq, 0)] } ∧ s.Keeps t [.eth] noReg))

/-- R320 to R325, R329, R330, R332, R334, R347 and R351 on a primary controller, with tracing and latency gauges off. -/
def Obligations.PciLinks : Prop :=
  ∀ (s : State) (n : Nat), s.Inv → s.flowing = true → n < 4 → (bondMembers (s.raw .BRG_CFG_BOND) n).isEmpty = false → s.canLog →
    s.fld .TRC_CFG_ENABLE = 0 → s.gaugesOf 1 = [] → s.sal.soft.headD 0 = 0 →
    let blk := 0x31 + n
    let up : Prop := s.flag .PCI_STATUS_LINK_UP n = true
    let irq (t : State) : Prop := t.grn.ipend.testBit 0x30 = true ∧ t.grn = { s.grn with ipend := t.grn.ipend }
    let noVector : Prop := s.flag .BRG_VEC_MAP_EN 0 0x30 = false ∧ s.flag .BRG_PWERR_VEC_EN = false
    (∀ (rate width : Nat) (tag10 : Bool),
      let fits : Prop := 1 ≤ rate ∧ rate ≤ s.raw .PCI_CFG_MAX_RATE n ∧ width ∈ [1, 2, 4, 8, 16] ∧
        width ≤ 4 * (bondMembers (s.raw .BRG_CFG_BOND) n).length ∧ s.perstHigh n = true ∧ s.laneOut (34 + n) = false ∧ s.flag .PCI_CFG_ENABLE n = true
      (¬ up → fits → ∃ t, exec (.pciLinkUp n rate width tag10) s = .next t ∧ t.raw .PCI_STATUS_LINK_UP n = 1 ∧ t.raw .PCI_STATUS_RATE n = rate ∧
        t.raw .PCI_STATUS_WIDTH n = width ∧ t.raw .PCI_STATUS_TAG10 n = tag10.toNat ∧ s.Logged t blk 0x0002 1 none 0 ∧
        s.Keeps t [.btn] (ofInst [.PCI_STATUS_LINK_UP, .PCI_STATUS_RATE, .PCI_STATUS_WIDTH, .PCI_STATUS_TAG10] n)) ∧
      (up ∨ ¬ fits → exec (.pciLinkUp n rate width tag10) s = .next s)) ∧
    (¬ up → exec (.pciLinkDown n) s = .next s) ∧
    (∀ (r : BrgReq) (g rid tag k : Nat), up → s.reqsOf n = [r] → s.slotsOf (gPci n) 0 = [] → s.hostLoc = false → r.src = .link g rid tag → 9 ≤ g →
      r.slot = some k → ∃ t, exec (.pciLinkDown n) s = .next t ∧ t.raw .PCI_STATUS_LINK_UP n = 0 ∧
        t.raw .PCI_STATUS_LINK_DOWNS n = (s.raw .PCI_STATUS_LINK_DOWNS n + 1) % 2 ^ RegId.PCI_STATUS_LINK_DOWNS.info.width ∧
        t.brg = { s.brg with reqs := s.brg.reqs.erase r } ∧ t.grn = { s.grn with harvest := s.grn.harvest.del k } ∧
        t.out = ⟨.tlp, [g - 9], completionTlp rid tag 4 4 r.addr []⟩ :: s.out ∧ s.Logged t blk 0x0001 2 none 0 ∧
        s.Keeps t [.brg, .grn, .out, .btn] (ofInst [.PCI_STATUS_LINK_UP, .PCI_STATUS_LINK_DOWNS] n)) ∧
    (s.flag .PCI_CFG_ROLE n = true → ¬ up → ∃ t, exec (.perstAssert n) s = .next t ∧ t.brg = { s.brg with
        perst := s.brg.perst.put n 0
        msix := s.brg.msix.filter fun e => e.1 / 2048 != n
        msixPend := s.brg.msixPend.filter fun e => e.1 / 2048 != n } ∧ s.Keeps t [.brg] noReg) ∧
    (s.flag .PCI_CFG_ROLE n = false → exec (.perstAssert n) s = .next s) ∧
    (s.brg.perst.get? n = some 0 → ∃ t, exec (.perstRelease n) s = .next t ∧ t.brg = { s.brg with perst := s.brg.perst.put n (s.clock + 1) } ∧
      s.Keeps t [.brg] noReg) ∧
    (s.brg.perst.get? n ≠ some 0 → exec (.perstRelease n) s = .next s) ∧
    (∃ t, exec .pwerrPop s = .next t ∧ t.brg = { s.brg with pwerr := s.brg.pwerr.tail } ∧ s.Keeps t [.brg] noReg) ∧
    (∀ (b : List Byte) (bar : Option (Nat × Nat)), up →
      (tlpUnsupported b = true → ∃ t, exec (.pciTlpReceive n b bar) s = .next t ∧
        t.out = ⟨.tlp, [n], completionTlp (tlpRid b) (tlpTag b) 1 4 (tlpAddr b) []⟩ :: s.out ∧
        t.raw .PCI_UR_SENT_COUNT n = (s.raw .PCI_UR_SENT_COUNT n + 1) % 2 ^ RegId.PCI_UR_SENT_COUNT.info.width ∧
        s.Keeps t [.out] (ofInst [.PCI_UR_SENT_COUNT] n)) ∧
      (∀ off, bar = some (4, off) → s.flag .PCI_CFG_ROLE n = true → tlpMemory b = true → off + 4 * tlpDws b ≤ 2 ^ s.raw .PCI_BAR4_LOG2_SIZE n →
        let a := dramBase + s.raw .PCI_BAR4_OFFSET n * 2 ^ 30 + off
        (tlpHasData b = true → tlpPoisoned b = false → enabledRuns b (tlpData b).length = [(0, (tlpData b).length)] →
          s.plainDram a (tlpData b).length = true → s.touchesStore a (tlpData b).length = false → ∃ t, exec (.pciTlpReceive n b bar) s = .next t ∧
            t.mem.reads a (tlpData b).length = tlpData b ∧ (∀ x, x < a ∨ a + (tlpData b).length ≤ x → t.mem.read x = s.mem.read x) ∧
            s.Keeps t [.mem] noReg) ∧
        (tlpHasData b = true → tlpPoisoned b = true → s.brg.pwerr.length < 16 → noVector → ∃ t, exec (.pciTlpReceive n b bar) s = .next t ∧
          t.brg = { s.brg with pwerr := s.brg.pwerr ++ [⟨a % 2 ^ 48, n, 4, 0, s.moment⟩] } ∧ irq t ∧ s.Keeps t [.brg, .grn] noReg) ∧
        (tlpHasData b = false → enabledRuns b (4 * tlpDws b) = [(0, 4 * tlpDws b)] → s.plainDram a (4 * tlpDws b) = true →
          a % s.maxPayload n + 4 * tlpDws b ≤ s.maxPayload n → ∃ t, exec (.pciTlpReceive n b bar) s = .next t ∧
            t.out = ⟨.tlp, [n], completionTlp (tlpRid b) (tlpTag b) 0 (4 * tlpDws b) a (s.mem.reads a (4 * tlpDws b))⟩ :: s.out ∧
            s.Keeps t [.out] noReg)) ∧
      (let c := s.raw .PCI_RX_CLASS_DEFAULT n
       ∀ berth, bar = none → tlpMemory b = true → exactOne (s.descAt (s.raw .PCI_RX_CLASS_DESC n)) = false → s.raw .BLK_CTRL_QUIESCE blk = 0 →
        s.pickBerth (gPci n) 0 = some berth → s.raw .CHN_CFG_ENABLE = 1 → ceilDiv b.length 128 ≤ s.panFree → 1 ≤ s.panFree → s.cached c = true →
        s.chanState c = csLive → eOrdered (s.entry c) = false → ∃ t, exec (.pciTlpReceive n b bar) s = .next t ∧
          (∃ f, t.sal.units.get? s.sal.nextUnit = some f ∧ f.chan = c ∧ f.kind = 2 ∧ f.bytes = b ∧ f.berth = berth ∧ f.stampMoment = s.moment ∧
            f.bad = false ∧ f.place = .waiting false) ∧
          s.Keeps t [.sal, .tmb, .chn] (anyOf [.CHN_CACHE_HITS_HITS]))) ∧
    (∀ (tag status : Nat) (data : List Byte), up →
      ((∀ r ∈ s.reqsOf n, r.tag ≠ some tag) → ∃ t, exec (.pciCompletionReceive n tag status data) s = .next t ∧
        t.raw .PCI_LATE_CPL_COUNT n = (s.raw .PCI_LATE_CPL_COUNT n + 1) % 2 ^ RegId.PCI_LATE_CPL_COUNT.info.width ∧
        s.Keeps t [.btn] (anyOf [.PCI_LATE_CPL_COUNT, .BTN_SUPPRESSED_RECORDS])) ∧
      (∀ (r : BrgReq) (g rid tg k : Nat), (s.reqsOf n).find? (fun r => r.tag == some tag) = some r → r.mark = none → r.src = .link g rid tg → 9 ≤ g →
        r.slot = some k →
        let sends (b : List Byte) : Prop := ∃ t, exec (.pciCompletionReceive n tag status data) s = .next t ∧ t.out = ⟨.tlp, [g - 9], b⟩ :: s.out ∧
          t.brg = { s.brg with reqs := s.brg.reqs.erase r } ∧ t.grn = { s.grn with harvest := s.grn.harvest.del k } ∧
          s.Keeps t [.brg, .grn, .out, .tmb] noReg
        (status = 0 → r.len ≤ (r.got ++ data).length → sends (completionTlp rid tg 0 (r.len - r.got.length) (r.addr + r.got.length) data)) ∧
        (status ≠ 0 → sends (completionTlp rid tg 4 4 r.addr [])))) ∧
    (∀ r : BrgReq, up → s.flag .BLK_STATUS_QUIESCED blk = false → (s.reqsOf n).find? (fun r => r.tag.isNone) = some r → r.mark = none →
      ∀ tag, s.freeTag n = some tag → s.instFree n = true → s.bufferFree n r.len = true → ∃ t, exec (.pciRequestIssue n) s = .next t ∧
        t.out = ⟨.tlp, [n], retag r.tlp tag⟩ :: s.out ∧
        t.brg = { s.brg with reqs := s.brg.reqs.map fun y => if y = r then { r with tag := some tag, slot := some s.grn.nextSlot } else y } ∧
        t.grn = { s.grn with
          harvest := s.grn.harvest.put s.grn.nextSlot { blankSlot with inst := n, chan := r.chan, moment := s.moment, since := s.clock }
          nextSlot := s.grn.nextSlot + 1 } ∧ s.Keeps t [.brg, .grn, .out, .tmb] noReg) ∧
    ((s.reqsOf n).find? (fun r => r.tag.isNone) = none → exec (.pciRequestIssue n) s = .next s) ∧
    (∀ x, s.message 0x30 = some x →
      let taken (t : State) : Prop := t.grn = { s.grn with msgs := s.grn.msgs.erase x }
      let refused (i : Instr) : Prop := ∃ t, exec i s = .next t ∧ taken t ∧
        t.raw .BRG_MSG_REFUSED_MESSAGES = (s.raw .BRG_MSG_REFUSED_MESSAGES + 1) % 2 ^ RegId.BRG_MSG_REFUSED_MESSAGES.info.width ∧
        s.Logged t 0x30 0x0005 2 x.chan (x.chan.getD 0 * 2 ^ 64) ∧ s.Keeps t [.grn, .btn] (anyOf [.BRG_MSG_REFUSED_MESSAGES])
      let ctrl := bits (msgWord x 0) 17 16
      let vec := bits (msgWord x 0) 42 32
      let route := msgWord x 1 % 2 ^ 32
      let q := bits route 21 8
      let op := fieldOf x.body 0 1
      (op = 1 → raiseOk x = false → refused .raise) ∧ (op = 2 → moveOk s x = false → refused .brgMove) ∧
      (op ≠ 1 → op ≠ 2 → refused .raise ∧ refused .brgMove) ∧
      (op = 1 → raiseOk x = true → s.vectorLink ctrl = true →
        (bit (s.vectorEntry ctrl vec).2.2 0 = true → ∃ t, exec .raise s = .next t ∧ taken t ∧
          t.brg = { s.brg with msixPend := s.brg.msixPend.put (2048 * ctrl + vec) (some (route, x.chan.getD 0)) } ∧ s.Keeps t [.grn, .brg] noReg) ∧
        (bit (s.vectorEntry ctrl vec).2.2 0 = false → s.enqCheck q (bits route 4 0) 1 0xFFFF false = 0 → s.wouldSpill q 1 = false →
          ∃ t, exec .raise s = .next t ∧ taken t ∧ t.queue q = s.queue q ++ [⟨s.sal.nextUnit, 1, false, false, false, 0, 0, false⟩] ∧
            (∃ f, t.sal.units.get? s.sal.nextUnit = some f ∧ f.bytes = s.vectorTlp ctrl vec ∧ f.chan = x.chan.getD 0 ∧ f.kind = 2 ∧ f.saf = true) ∧
            s.Keeps t [.grn, .sal] noReg)) ∧
      (op = 2 → moveOk s x = true →
        let m := eParam x.entry 45 1 % 16
        ((s.mover m).held.length < 16 → ∃ t, exec .brgMove s = .next t ∧ taken t ∧
          t.mover m = { s.mover m with held := (s.mover m).held ++ [⟨msgWord x 1, msgWord x 2, msgWord x 3, false, x.chan.getD 0, bit (msgWord x 0) 8, 0, false⟩] } ∧
          (∀ k, k ≠ m → t.mover k = s.mover k) ∧ s.Keeps t [.grn, .brg] noReg) ∧
        (16 ≤ (s.mover m).held.length → exec .brgMove s = .next s)))

/-- R248, R331, R336, R337, R340 to R346. -/
def Obligations.BridgeWork : Prop :=
  ∀ s : State, s.Inv → s.flowing = true → s.canLog → s.flag .BRG_VEC_MAP_EN 0 0x30 = false → s.flag .BRG_PWERR_VEC_EN = false →
    let irq (t : State) : Prop := t.grn.ipend.testBit 0x30 = true ∧ t.grn = { s.grn with ipend := t.grn.ipend }
    let posted (e : PwErr) (t : State) : Prop := t.brg.pwerr = s.brg.pwerr ++ [e] ∧ irq t
    let sem (r : RegId) : Bool := [RegId.BRG_SEM_HELD, .BRG_SEM_OWNER, .BRG_SEM_TAINTED].contains r
    (∀ (p : Prefetched) (rest : List Prefetched), s.brg.ahead = p :: rest →
      (s.clock ≤ p.since + 4 * us → exec .prefetchDiscard s = .next s) ∧
      (p.since + 4 * us < s.clock → p.region < 64 → p.bytes.length ≤ 128 →
        let i := s.raw .BRG_DISCARD_STATUS_NEXT
        ∃ t, exec .prefetchDiscard s = .next t ∧ t.brg = { s.brg with ahead := rest } ∧ t.raw .BRG_DISCARD_ADDRESS 0 i = p.addr % 2 ^ 48 ∧
          t.raw .BRG_DISCARD_REGION 0 i = p.region ∧ t.raw .BRG_DISCARD_MOMENT_LO 0 i = s.moment % 2 ^ 32 ∧ t.raw .BRG_DISCARD_LENGTH 0 i = p.bytes.length ∧
          t.raw .BRG_DISCARD_STATUS_NEXT = (i + 1) % 32 ∧ t.raw .BRG_DISCARD_STATUS_COUNT = (s.raw .BRG_DISCARD_STATUS_COUNT + 1) % 2 ^ 16 ∧
          s.Keeps t [.brg] fun r _ j => ([RegId.BRG_DISCARD_ADDRESS, .BRG_DISCARD_REGION, .BRG_DISCARD_MOMENT_LO, .BRG_DISCARD_LENGTH].contains r && j == i) ||
            r == .BRG_DISCARD_STATUS_NEXT || r == .BRG_DISCARD_STATUS_COUNT)) ∧
    (s.brg.ahead = [] → exec .prefetchDiscard s = .next s) ∧
    (∀ (k at_ : Nat), k < 64 → s.grn.semSince.get? k = some at_ →
      (s.flag .BRG_SEM_HELD 0 k = true → at_ + s.raw .BRG_SEM_LEASE_US 0 k * us ≤ s.clock → (∀ w ∈ s.grn.semWaits, w.2 ≠ k) →
        ∃ t, exec (.semLeaseExpiry k) s = .next t ∧ t.raw .BRG_SEM_HELD 0 k = 0 ∧ t.raw .BRG_SEM_OWNER 0 k = 0xFFF ∧ t.raw .BRG_SEM_TAINTED 0 k = 1 ∧
          t.grn = { s.grn with semSince := s.grn.semSince.del k } ∧
          s.Logged t 0x30 0x0002 3 none (s.raw .BRG_SEM_BASE 0 k + s.raw .BRG_SEM_OWNER 0 k * 2 ^ 64) ∧
          s.Keeps t [.grn, .btn] fun r _ j => sem r && j == k) ∧
      (s.clock < at_ + s.raw .BRG_SEM_LEASE_US 0 k * us → exec (.semLeaseExpiry k) s = .next s)) ∧
    (∀ (n r : Nat) (b old : List Byte), n < 4 → (bondMembers (s.raw .BRG_CFG_BOND) n).isEmpty = false → s.flag .PCI_STATUS_LINK_UP n = true →
      tlpAtomic b = true →
      let a := tlpAddr b
      let data := tlpData b
      let size := if tlpType b = 0x0E then data.length / 2 else data.length
      let key := 1024 * n + tlpTag b
      let k := s.raw .BRG_REGION_SEM 0 r
      let d := dramBase + s.regionTarget r a
      let refuses (i : Instr) (st : Nat) (t : State) : Prop := exec i s = .next t ∧ t.out = ⟨.tlp, [n], completionTlp (tlpRid b) (tlpTag b) st 4 a []⟩ :: s.out
      (s.regionOf a = none → ∃ t, refuses (.atomicEmulation n b old) 1 t ∧ s.Keeps t [.out] (ofInst [.PCI_UR_SENT_COUNT] n)) ∧
      (s.regionOf a = some r → s.raw .BRG_REGION_KIND 0 r = 3 → s.flag .BRG_REGION_READ 0 r = true → s.flag .BRG_REGION_WRITE 0 r = true →
        size = 4 ∨ size = 8 → s.flag .BRG_REGION_ATOMIC 0 r = false →
        (k = 0x7F → ∃ t, refuses (.atomicEmulation n b old) 1 t ∧ s.Keeps t [.out] (ofInst [.PCI_UR_SENT_COUNT] n)) ∧
        (k < 64 → s.flag .BRG_SEM_HELD 0 k = false → (s.grn.semWaits.any fun w => w.2 == k) = false →
          (s.flag .BRG_SEM_TAINTED 0 k = false → s.inDram d size = true → ∃ t, exec (.atomicEmulation n b old) s = .next t ∧
            t.out = ⟨.tlp, [n], completionTlp (tlpRid b) (tlpTag b) 0 size a (s.mem.reads d size)⟩ :: s.out ∧
            (match atomicNew (tlpType b) size (leNat (s.mem.reads d size)) data with
              | some v => t.mem.reads d size = leBytes size v
              | none => t.mem.reads d size = s.mem.reads d size) ∧
            (∀ x, x < d ∨ d + size ≤ x → t.mem.read x = s.mem.read x) ∧ t.brg = { s.brg with emu := s.brg.emu.del key } ∧
            t.raw .BRG_SEM_HELD 0 k = 0 ∧ s.Keeps t [.out, .mem, .brg, .grn] fun r _ j => sem r && j == k) ∧
          (s.flag .BRG_SEM_TAINTED 0 k = true → ∃ t, refuses (.atomicEmulation n b old) 4 t ∧ s.Logged t 0x30 0x0003 2 none a ∧
            s.Keeps t [.out, .btn, .brg, .grn] fun r _ j => sem r && j == k)) ∧
        (k < 64 → s.flag .BRG_SEM_HELD 0 k = true →
          (s.brg.emu.get? key = none → ∃ t, exec (.atomicEmulation n b old) s = .next t ∧ t.brg = { s.brg with emu := s.brg.emu.put key s.clock } ∧
            s.Keeps t [.brg] noReg) ∧
          (∀ at_, s.brg.emu.get? key = some at_ → at_ + s.raw .BRG_CFG_EMU_WAIT_US * us ≤ s.clock → ∃ t, refuses (.atomicEmulation n b old) 4 t ∧
            t.brg = { s.brg with emu := s.brg.emu.del key } ∧ s.Logged t 0x30 0x0004 2 none a ∧ s.Keeps t [.out, .btn, .brg] noReg)))) ∧
    (∀ m, m < 16 →
      let v := s.mover m
      let mine (t : State) : Prop := ∀ k, k ≠ m → t.mover k = s.mover k
      let at_ := s.ringAt m + 24
      let regs : RegId → Nat → Nat → Bool := fun r _ j => [RegId.MOV_STATE_STATE, .MOV_HEAD_HEAD, .MOV_BYTES_BYTES].contains r && j == m
      (∀ x, v.run = none → s.raw .MOV_STATE_STATE 0 m ≠ 2 → s.nextTransfer m = some x → s.raw .BLK_CTRL_QUIESCE 0x30 = 0 →
        (x.len ≠ 0 → ∃ t, exec (.moverStart m) s = .next t ∧ t.mover m = ⟨if x.ring then v.held else v.held.tail, some x, x.ring⟩ ∧
          t.raw .MOV_STATE_STATE 0 m = 1 ∧ mine t ∧ s.Keeps t [.brg] regs) ∧
        (x.len = 0 → ∃ t, exec (.moverStart m) s = .next t ∧ (t.mover m).run = none ∧ t.raw .MOV_STATE_STATE 0 m = 2 ∧ s.Logged t 0x30 0x0007 2 none m ∧
          mine t ∧ (x.ring = true → s.inDram at_ 1 = true → t.mem.read at_ = 11) ∧ (∀ y, y ≠ at_ → t.mem.read y = s.mem.read y) ∧
          s.Keeps t [.brg, .btn, .mem] regs)) ∧
      (v.run ≠ none ∨ s.raw .MOV_STATE_STATE 0 m = 2 → exec (.moverStart m) s = .next s) ∧
      (∀ (x : Transfer) (data : List Byte) (status : Nat), v.run = some x → placeOf x.src = .dram → s.plainDram x.src x.len = true → placeOf x.dst = .dram →
        (s.leased x.dst x.len = false → s.plainDram x.dst x.len = true → x.ring = true → x.raise = false → s.inDram at_ 1 = true →
          ∃ t, exec (.moverComplete m data status) s = .next t ∧ t.mem.read at_ = 1 ∧
            (∀ i, i < x.len → x.dst + i ≠ at_ → t.mem.read (x.dst + i) = s.mem.read (x.src + i)) ∧
            (∀ y, y ≠ at_ → (y < x.dst ∨ x.dst + x.len ≤ y) → t.mem.read y = s.mem.read y) ∧
            t.raw .MOV_BYTES_BYTES 0 m = (s.raw .MOV_BYTES_BYTES 0 m + x.len) % 2 ^ 64 ∧
            t.raw .MOV_HEAD_HEAD 0 m = (s.raw .MOV_HEAD_HEAD 0 m + 1) % 2 ^ s.raw .MOV_RING_CFG_LOG2 0 m ∧ t.mover m = { v with run := none } ∧ mine t ∧
            s.Keeps t [.brg, .mem] regs) ∧
        (s.leased x.dst x.len = true → s.raw .DSP_CFG_LEASE_MODE = 0 → x.waits = false → ∃ t, exec (.moverComplete m data status) s = .next t ∧
          t.mover m = { v with run := some { x with waits := true } } ∧
          t.raw .DSP_LEASE_WAITS_WRITES = (s.raw .DSP_LEASE_WAITS_WRITES + 1) % 2 ^ RegId.DSP_LEASE_WAITS_WRITES.info.width ∧ mine t ∧
          s.Keeps t [.brg] (anyOf [.DSP_LEASE_WAITS_WRITES]))) ∧
      (v.run = none → ∀ data status, exec (.moverComplete m data status) s = .next s) ∧
      (s.raw .MOV_STATE_STATE 0 m = 2 → ∃ t, exec (.movRestart m) s = .next t ∧ t.raw .MOV_STATE_STATE 0 m = 0 ∧
        t.raw .MOV_HEAD_HEAD 0 m = (if v.fromRing then (s.raw .MOV_HEAD_HEAD 0 m + 1) % 2 ^ s.raw .MOV_RING_CFG_LOG2 0 m else s.raw .MOV_HEAD_HEAD 0 m) ∧
        s.Keeps t [] regs) ∧
      (s.raw .MOV_STATE_STATE 0 m ≠ 2 → exec (.movRestart m) s = .next s)) ∧
    (∀ (m p : Nat), m < 31 → p < 6 → s.inDram s.area (2 ^ 26) = true →
      let a := s.mailArea + m * 0x1_0000
      let l := s.link p
      let tail := s.load (a + 12) 4 % 127
      let r := s.mem.reads (a + 0x8000 + 256 * tail) 256
      let lmp (hops token : Nat) (body : List Byte) : OutParcel :=
        ⟨false, parcelHeader 2 6 0 hops 0 (4 + body.length) 0 0 ++ padded ([0x50, 1] ++ leBytes 2 token ++ body), none⟩
      let sends (t : State) (inbox : List (Nat × List Byte)) (x : OutParcel) : Prop :=
        t.link p = { l with inbox := inbox, queue := l.queue.takeWhile isLmp ++ [x] ++ l.queue.dropWhile isLmp }
      let others (t : State) : Prop := ∀ q, q ≠ p → t.link q = s.link q
      (s.load (a + 8) 4 % 127 = tail → exec (.mailboxResponse m) s = .next s) ∧
      (s.load (a + 8) 4 % 127 ≠ tail → s.portTowards (fieldOf r 2 1 % 8) = some p → ∃ t, exec (.mailboxResponse m) s = .next t ∧
        sends t l.inbox (lmp 3 (fieldOf r 4 2) (ctlBody (fieldOf r 2 1 % 8) m true s.chainPos ((r.drop 8).take (min 248 (fieldOf r 0 2))))) ∧
        t.load (a + 12) 4 = (tail + 1) % 127 ∧ (∀ x, x < a + 12 ∨ a + 16 ≤ x → t.mem.read x = s.mem.read x) ∧ others t ∧ s.Keeps t [.lnk, .mem] noReg) ∧
      (∀ (line : Nat) (h : List Byte) (rest : List (Nat × List Byte)), l.inbox = (line, h) :: rest → fieldOf h 0 1 = 2 → lmpOk h = true →
        s.raw .LNK_STATUS_UP p = 1 → fieldOf h 16 1 = 0x50 → s.peerOk p = true →
        let b := (h.drop 16).take (fieldOf h 8 2)
        let target := fieldOf b 4 1 % 8
        let hops := fieldOf h 3 1 % 4
        let token := fieldOf h 18 2
        let head := s.load a 4 % 127
        let slot := a + 0x100 + 256 * head
        (target = s.chainPos → fieldOf b 5 1 % 32 = m → (head + 1) % 127 ≠ s.load (a + 4) 4 % 127 → ∃ t, exec (.ctl p) s = .next t ∧
          t.link p = { l with inbox := rest } ∧ t.load a 4 = (head + 1) % 127 ∧ t.load slot 2 = min 248 (b.length - 8) ∧ t.load (slot + 4) 4 = token ∧
          t.mem.reads (slot + 8) (min 248 (b.length - 8)) = (b.drop 8).take 248 ∧ irq t ∧
          (∀ x, (x < a ∨ a + 4 ≤ x) → (x < slot ∨ slot + 256 ≤ x) → t.mem.read x = s.mem.read x) ∧ others t ∧ s.Keeps t [.lnk, .mem, .grn] noReg) ∧
        (target = s.chainPos → fieldOf b 5 1 % 32 = m → (head + 1) % 127 = s.load (a + 4) 4 % 127 → ∃ t, exec (.ctl p) s = .next t ∧
          t.link p = { l with inbox := rest } ∧ s.Logged t 0x30 0x0008 2 none m ∧ others t ∧ s.Keeps t [.lnk, .btn] noReg) ∧
        (target ≠ s.chainPos → hops = 0 → ∃ t, exec (.ctl p) s = .next t ∧ t.link p = { l with inbox := rest } ∧ s.Logged t 0x18 0x000A 2 none p ∧ others t ∧
          s.Keeps t [.lnk, .btn] noReg) ∧
        (target ≠ s.chainPos → hops ≠ 0 → s.portTowards target = some p → ∃ t, exec (.ctl p) s = .next t ∧
          sends t rest (lmp (hops - 1) token (b.drop 4)) ∧ others t ∧ s.Keeps t [.lnk] noReg))) ∧
    (∀ (k : Nat) (r : LocReq), k < 6 → r.len ≤ 4096 → r.len ≠ 0 → s.locOn k = true →
      let reg := if 2 ≤ k then (if s.flag .I2C_CFG_REG16 (k - 2) then r.offset % 2 ^ 16 else r.offset % 256) else 0
      let busy (t : State) (v : Nat) : Prop := if k < 2 then t.raw .SPI_STATUS_BUSY k = v else t.raw .I2C_STATUS_BUSY (k - 2) = v
      (s.brg.busy.get? k = none → (s.brg.loc.find? fun r => r.window == k) = some r →
        let starts (held : LocReq) (t : State) : Prop := t.brg = { s.brg with loc := s.brg.loc.erase r, busy := s.brg.busy.put k { held with since := s.clock } } ∧
          busy t 1 ∧ t.out = ⟨.localbus, [k, r.target, reg, r.len, r.write.toNat], r.data⟩ :: s.out
        (r.write = true → ∃ t, exec (.localBusTransfer k) s = .next t ∧ starts r t ∧ s.Keeps t [.brg, .out] (anyOf [.SPI_STATUS_BUSY, .I2C_STATUS_BUSY])) ∧
        (r.write = false → s.instFree 4 = true → ∃ t, exec (.localBusTransfer k) s = .next t ∧ starts { r with slot := some s.grn.nextSlot } t ∧
          t.grn = { s.grn with
            harvest := s.grn.harvest.put s.grn.nextSlot { blankSlot with inst := 4, chan := r.chan, moment := s.moment, since := s.clock }
            nextSlot := s.grn.nextSlot + 1 } ∧ s.Keeps t [.brg, .out, .grn] (anyOf [.SPI_STATUS_BUSY, .I2C_STATUS_BUSY]))) ∧
      (∀ data, s.brg.busy.get? k = some r → r.write = true →
        let regs : List RegId := [.SPI_STATUS_BUSY, .I2C_STATUS_BUSY, .SPI_STATUS_TRANSFERS, .I2C_STATUS_LAST_ERR, .I2C_STATUS_ERRORS]
        (∃ t, exec (.localBusComplete k 0 data) s = .next t ∧ t.brg = { s.brg with busy := s.brg.busy.del k } ∧ busy t 0 ∧
          (k < 2 → t.raw .SPI_STATUS_TRANSFERS k = (s.raw .SPI_STATUS_TRANSFERS k + 1) % 2 ^ RegId.SPI_STATUS_TRANSFERS.info.width) ∧
          (2 ≤ k → t.raw .I2C_STATUS_LAST_ERR (k - 2) = 0 ∧ t.raw .I2C_STATUS_ERRORS (k - 2) = s.raw .I2C_STATUS_ERRORS (k - 2)) ∧
          s.Keeps t [.brg] (anyOf regs)) ∧
        (∀ err, 1 ≤ err → err ≤ 4 → 2 ≤ k → s.brg.pwerr.length < 16 → ∃ t, exec (.localBusComplete k err data) s = .next t ∧
          posted ⟨r.offset % 2 ^ 48, 4, 6, r.chan, s.moment⟩ t ∧ busy t 0 ∧ t.raw .I2C_STATUS_LAST_ERR (k - 2) = err ∧
          t.raw .I2C_STATUS_ERRORS (k - 2) = (s.raw .I2C_STATUS_ERRORS (k - 2) + 1) % 2 ^ RegId.I2C_STATUS_ERRORS.info.width ∧
          s.Keeps t [.brg, .grn] (anyOf regs)))) ∧
    (∀ (k : Nat) (r : LocReq), k < 16 → s.brg.busy.get? k = none → (s.brg.loc.find? fun r => r.window == k) = some r → r.write = true →
      s.locOn k = false ∨ r.len = 0 ∨ 4096 < r.len → s.brg.pwerr.length < 16 → ∃ t, exec (.localBusTransfer k) s = .next t ∧
        t.brg.loc = s.brg.loc.erase r ∧ posted ⟨r.offset % 2 ^ 48, 4, 1, r.chan, s.moment⟩ t ∧ s.Keeps t [.brg, .grn] noReg) ∧
    (∀ (k : Nat) (byte : Byte) (parity framing : Bool), k < 2 →
      let rx := uartGet s.brg.uartRx (6 + k)
      (s.flag .UART_CFG_ENABLE k = false → exec (.uartReceive k byte parity framing) s = .next s) ∧
      (s.flag .UART_CFG_ENABLE k = true → ∃ t, exec (.uartReceive k byte parity framing) s = .next t ∧
        uartGet t.brg.uartRx (6 + k) = (if rx.length < 256 then rx ++ [byte] else rx) ∧
        t.raw .UART_ERRORS_PARITY k = (s.raw .UART_ERRORS_PARITY k + parity.toNat) % 2 ^ RegId.UART_ERRORS_PARITY.info.width ∧
        t.raw .UART_ERRORS_FRAMING k = (s.raw .UART_ERRORS_FRAMING k + framing.toNat) % 2 ^ RegId.UART_ERRORS_FRAMING.info.width ∧
        t.raw .UART_ERRORS_OVERRUN k = (s.raw .UART_ERRORS_OVERRUN k + (if rx.length < 256 then 0 else 1)) % 2 ^ RegId.UART_ERRORS_OVERRUN.info.width ∧
        s.Keeps t [.brg] (ofInst [.UART_ERRORS_PARITY, .UART_ERRORS_FRAMING, .UART_ERRORS_OVERRUN] k)))

/-- R352 to R369, with tracing and latency gauges off. -/
def Obligations.SignalAndCan : Prop :=
  ∀ s : State, s.Inv → s.dev.st = .run → s.canLog → s.btn.last = [] → s.fld .TRC_CFG_ENABLE = 0 → s.gaugesOf 1 = [] → s.sal.soft.headD 0 = 0 →
    s.hostLoc = false → s.inDram s.area (2 ^ 26) = true →
    let takes (c port len : Nat) : Prop := s.raw .CHN_CFG_ENABLE = 1 ∧ s.cached c = true ∧ s.chanState c = csLive ∧ eOrdered (s.entry c) = false ∧
      s.pickBerth gControl port = some 18 ∧ ceilDiv len 128 ≤ s.panFree ∧ 1 ≤ s.panFree
    let came (t : State) (c kind : Nat) (bytes : List Byte) : Prop := ∃ f, t.sal.units.get? s.sal.nextUnit = some f ∧ f.chan = c ∧ f.kind = kind ∧
      f.bytes = bytes ∧ f.berth = 18 ∧ f.stampMoment = s.moment ∧ f.bad = false ∧ f.place = .waiting false
    let more (t : State) (r : RegId) (i j n : Nat) : Prop := t.raw r i j = (s.raw r i j + n) % 2 ^ r.info.width
    (s.sig.inbox = [] → exec .sigUnit s = .next s) ∧
    (∀ (d : Delivered) (rest : List Delivered), s.sig.inbox = d :: rest →
      let map := fieldOf d.bytes 0 4
      let e := s.mapEntry map
      let taken (t : State) : Prop := t.sig = { s.sig with inbox := rest }
      (s.flag .SIG_CFG_ENABLE = false → ∃ t, exec .sigUnit s = .next t ∧ taken t ∧ more t .SIG_REFUSED_UNITS 0 0 1 ∧ s.Keeps t [.sig] (anyOf [.SIG_REFUSED_UNITS])) ∧
      (s.flag .SIG_CFG_ENABLE = true → s.unitOk d = false → ∃ t, exec .sigUnit s = .next t ∧ taken t ∧ more t .SIG_REFUSED_UNITS 0 0 1 ∧
        s.Logged t 0x38 0x0001 2 none (map + d.chan * 2 ^ 32) ∧ s.Keeps t [.sig, .btn] (anyOf [.SIG_REFUSED_UNITS])) ∧
      (s.flag .SIG_CFG_ENABLE = true → s.unitOk d = true → mapKind e = 0 → mapCount e = 1 → s.recordBad (s.record e 0) = false →
        let r := s.record e 0
        let frame := d.bytes.drop (16 + mapOff e)
        let a := s.slotAt (recSlot r)
        (getField frame (bitPlaces (recBig r) (recBit r) (recLen r)) = none → ∃ t, exec .sigUnit s = .next t ∧ taken t ∧ more t .SIG_SHORT_FIELDS 0 0 1 ∧
          s.Keeps t [.sig] (anyOf [.SIG_SHORT_FIELDS])) ∧
        (∀ (x : Nat) (v : Int), getField frame (bitPlaces (recBig r) (recBit r) (recLen r)) = some x →
          rawValue (recType r) (recLen r) x (s.flag .SIG_POLICY_NAN_SKIP) = some v → s.inDram a 32 = true →
          bit (s.load (a + 24) 4) 31 = false → bit (s.load (a + 28) 4) 31 = false →
          let y := scaleInt v (recMul r) (recShift r) (recOffset r) 64 true
          ∃ t, exec .sigUnit s = .next t ∧ taken t ∧
            t.mem.reads a 24 = leBytes 8 (enc 64 y.1) ++ leBytes 8 (fieldOf d.bytes 8 8) ++ [BitVec.ofNat 8 (1 + (if y.2 then 8 else 0)), 0, 0, 0] ++ leBytes 4 d.chan ∧
            (∀ z, z < a ∨ a + 24 ≤ z → t.mem.read z = s.mem.read z) ∧ more t .SIG_UPDATES_WRITES 0 0 1 ∧
            s.Keeps t [.sig, .mem] (anyOf [.SIG_UPDATES_WRITES])))) ∧
    (∀ c, c < 2 ^ 17 → cyclic (s.entry c) = true →
      (s.moment % cycleTicks (s.entry c) ≠ 0 ∨ s.triggered c = true → exec (.cyclicTrigger c) s = .next s) ∧
      (s.moment % cycleTicks (s.entry c) = 0 → s.triggered c = false → s.flag .SIG_CFG_ENABLE = true → takes c 1 16 → ∃ t, exec (.cyclicTrigger c) s = .next t ∧
        came t c 5 (leBytes 4 (eParam (s.entry c) 32 4) ++ [2, 0, 0, 0] ++ leBytes 8 s.moment) ∧ s.Keeps t [.sal, .tmb, .chn] (anyOf [.CHN_CACHE_HITS_HITS]))) ∧
    (∀ x, s.message 0x38 = some x →
      let taken (t : State) : Prop := t.grn = { s.grn with msgs := s.grn.msgs.erase x }
      let map := bits (msgWord x 0) 63 32
      let e := s.mapEntry map
      let refused (i : Instr) : Prop := ∃ t, exec i s = .next t ∧ taken t ∧ more t .SIG_REFUSED_UNITS 0 0 1 ∧
        s.Logged t 0x38 0x0003 2 none (map + x.chan.getD 0 * 2 ^ 32) ∧ s.Keeps t [.grn, .btn] (anyOf [.SIG_REFUSED_UNITS])
      let op := fieldOf x.body 0 1
      (op = 1 → packOk s x = false → refused .pack) ∧ (op = 2 → gpioSetOk s x = false → refused .gpioSet) ∧ (op ≠ 1 → op ≠ 2 → refused .pack ∧ refused .gpioSet) ∧
      (op = 1 → packOk s x = true →
        let r := ((List.range (mapCount e)).map (s.record e)).foldl (packRecord s (eParam x.entry 44 4) (mapOff e)) ⟨s.mem.reads (fieldOf e 8 6) (mapOutLen e), 0, 0⟩
        let c := bits (eParam x.entry 52 4) 16 0
        r.bad = 0 → takes c 1 r.frame.length → ∃ t, exec .pack s = .next t ∧ taken t ∧ came t c (mapUkind e) r.frame ∧ more t .SIG_SENDS_UNITS 0 0 1 ∧
          more t .SIG_SHORT_FIELDS 0 0 r.short ∧ s.Keeps t [.grn, .sal, .tmb, .chn] (anyOf [.SIG_SENDS_UNITS, .SIG_SHORT_FIELDS, .CHN_CACHE_HITS_HITS])) ∧
      (op = 2 → gpioSetOk s x = true → ∃ t, exec .gpioSet s = .next t ∧ taken t ∧
        (∀ n, (t.raw .GPIO_OUT_LEVEL).testBit n = (if (msgWord x 1).testBit n && (s.raw .GPIO_DIR_OUT).testBit n then (msgWord x 2).testBit n
          else (s.raw .GPIO_OUT_LEVEL).testBit n)) ∧
        t.out = ⟨.gpio, [msgWord x 1 &&& s.raw .GPIO_DIR_OUT, msgWord x 2 &&& (msgWord x 1 &&& s.raw .GPIO_DIR_OUT)], []⟩ :: s.out ∧
        s.Keeps t [.grn, .out] (anyOf [.GPIO_OUT_LEVEL]))) ∧
    (∀ (n : Nat) (level : Bool), n < 48 →
      let was := bit (s.raw .GPIO_IN_LEVEL) n
      let set_ (t : State) : Prop := ∀ k, (t.raw .GPIO_IN_LEVEL).testBit k = (if k = n then level else (s.raw .GPIO_IN_LEVEL).testBit k)
      (bit (s.raw .GPIO_DIR_OUT) n = true ∨ was = level → exec (.gpioTransition n level) s = .next s) ∧
      (bit (s.raw .GPIO_DIR_OUT) n = false → was ≠ level →
        (s.sig.edges.get? n = none → s.flag (if level then .SIG_GPIO_LINE_RISE else .SIG_GPIO_LINE_FALL) 0 n = true → ∃ t, exec (.gpioTransition n level) s = .next t ∧
          set_ t ∧ (∃ w, t.sig = { s.sig with edges := s.sig.edges.put n ⟨level, s.moment, w, s.clock⟩ }) ∧ s.Keeps t [.sig, .tmb] (anyOf [.GPIO_IN_LEVEL])) ∧
        (∀ e, s.sig.edges.get? n = some e → ∃ t, exec (.gpioTransition n level) s = .next t ∧ set_ t ∧ t.sig = { s.sig with edges := s.sig.edges.del n } ∧
          more t .SIG_GPIO_BOUNCE_EDGES 0 0 1 ∧ s.Keeps t [.sig] (anyOf [.GPIO_IN_LEVEL, .SIG_GPIO_BOUNCE_EDGES]))) ∧
      (s.sig.edges.get? n = none → exec (.gpioDebounce n) s = .next s) ∧
      (∀ e, s.sig.edges.get? n = some e →
        let c := s.raw .SIG_GPIO_LINE_CHANNEL 0 n
        (s.clock < e.since + s.raw .SIG_GPIO_LINE_DEBOUNCE_US 0 n * us → exec (.gpioDebounce n) s = .next s) ∧
        (e.since + s.raw .SIG_GPIO_LINE_DEBOUNCE_US 0 n * us ≤ s.clock → takes c 10 24 → ∃ t, exec (.gpioDebounce n) s = .next t ∧
          t.sig = { s.sig with edges := s.sig.edges.del n, levels := s.sig.levels.put n e.level } ∧
          came t c 5 (leBytes 8 e.moment ++ leBytes 4 e.word ++ [BitVec.ofNat 8 n, if e.level then 3 else 0, 0, 0] ++ leBytes 8 (s.raw .GPIO_IN_LEVEL)) ∧
          s.Keeps t [.sig, .sal, .tmb, .chn] (anyOf [.CHN_CACHE_HITS_HITS])))) ∧
    (∀ n, n < 8 →
      let c := s.canPort n
      let mine (t : State) (c' : CanPort) : Prop := t.canPort n = c' ∧ ∀ k, k ≠ n → t.canPort k = s.canPort k
      let calm : Prop := s.raw .CAN_STATUS_STATE n = 0 ∧ s.raw .CAN_STATUS_TEC n < 128 ∧ s.raw .CAN_STATUS_REC n < 128
      (∀ (id : Nat) (esi remote : Bool) (data : List Byte), id < 2 ^ 31 →
        let legal : Prop := canLength data.length = true ∧ (bit id 30 = true → s.flag .CAN_CFG_FD n = true) ∧ (bit id 30 = false → data.length ≤ 8)
        let heard (t : State) : Prop := t.raw .CAN_STATUS_REC n = s.raw .CAN_STATUS_REC n - 1
        let regs : List RegId := [.CAN_STATUS_REC, .CAN_RX_REMOTE_FRAMES, .CAN_RX_FRAMES_FRAMES, .CAN_RX_UNMATCHED_FRAMES, .CAN_FILTER_HITS, .CHN_CACHE_HITS_HITS]
        (s.onBus n = false → exec (.canFrameReceive n id esi remote data) s = .next s) ∧
        (s.onBus n = true → legal → calm →
          (remote = true → ∃ t, exec (.canFrameReceive n id esi remote data) s = .next t ∧ heard t ∧ more t .CAN_RX_REMOTE_FRAMES n 0 1 ∧
            s.Keeps t [] (ofInst [.CAN_STATUS_REC, .CAN_RX_REMOTE_FRAMES] n)) ∧
          (remote = false → s.canFilter n id = none → ∃ t, exec (.canFrameReceive n id esi remote data) s = .next t ∧ heard t ∧
            more t .CAN_RX_FRAMES_FRAMES n 0 1 ∧ more t .CAN_RX_UNMATCHED_FRAMES n 0 1 ∧
            s.Keeps t [] (ofInst [.CAN_STATUS_REC, .CAN_RX_FRAMES_FRAMES, .CAN_RX_UNMATCHED_FRAMES] n)) ∧
          (∀ f, remote = false → s.canFilter n id = some f → takes (s.raw .CAN_FILTER_CHANNEL n f) (2 + n) (16 + data.length) →
            ∃ t, exec (.canFrameReceive n id esi remote data) s = .next t ∧ heard t ∧ more t .CAN_RX_FRAMES_FRAMES n 0 1 ∧ more t .CAN_FILTER_HITS n f 1 ∧
            came t (s.raw .CAN_FILTER_CHANNEL n f) 3 (leBytes 4 id ++ [BitVec.ofNat 8 (dlcOf data.length + (if esi then 16 else 0)), BitVec.ofNat 8 data.length,
              BitVec.ofNat 8 f, BitVec.ofNat 8 n] ++ leBytes 8 s.moment ++ data) ∧ s.Keeps t [.sal, .tmb, .chn] (anyOf regs)))) ∧
      (∀ x, c.winner = some x → s.onBus n = true → s.flag .CAN_CFG_LISTEN n = false → calm → ∃ t, exec (.canFrameSent n) s = .next t ∧
        mine t { c with bufs := c.bufs.erase x } ∧ t.out = ⟨.can, [n], x.1⟩ :: s.out ∧ more t .CAN_TX_FRAMES_FRAMES n 0 1 ∧
        t.raw .CAN_STATUS_TEC n = s.raw .CAN_STATUS_TEC n - 1 ∧ s.Keeps t [.can, .out, .tmb] (ofInst [.CAN_TX_FRAMES_FRAMES, .CAN_STATUS_TEC] n)) ∧
      (c.bufs = [] → exec (.canFrameSent n) s = .next s) ∧
      (let due (x : List Byte × Nat) : Bool := decide (x.2 + s.raw .CAN_CFG_TX_TIMEOUT_MS n * ms ≤ s.clock)
       (c.bufs.find? due = none ∨ s.raw .CAN_CFG_TX_TIMEOUT_MS n = 0 → exec (.canTxTimeout n) s = .next s) ∧
       (∀ x, c.bufs.find? due = some x → s.raw .CAN_CFG_TX_TIMEOUT_MS n ≠ 0 → ∃ t, exec (.canTxTimeout n) s = .next t ∧ mine t { c with bufs := c.bufs.erase x } ∧
         more t .CAN_TX_DROP_UNITS n 0 1 ∧ s.Logged t (0x40 + n) 0x0003 2 none (fieldOf x.1 0 4) ∧ s.Keeps t [.can, .btn] (ofInst [.CAN_TX_DROP_UNITS] n))) ∧
      (∀ tec rec_ lec, s.onBus n = true → 1 ≤ lec → lec ≤ 6 →
        let counted (t : State) : Prop := more t .CAN_ERRORS_COUNT n 0 1 ∧ t.raw .CAN_STATUS_LEC n = lec ∧ t.raw .CAN_STATUS_TEC n = min tec 255 ∧
          t.raw .CAN_STATUS_REC n = min rec_ 255
        let regs : List RegId := [.CAN_ERRORS_COUNT, .CAN_STATUS_LEC, .CAN_STATUS_TEC, .CAN_STATUS_REC, .CAN_STATUS_STATE, .CAN_TX_DROP_UNITS]
        (tec ≤ 255 → ∃ t, exec (.canBusError n tec rec_ lec) s = .next t ∧ counted t ∧ t.raw .CAN_STATUS_STATE n = (if 128 ≤ tec ∨ 128 ≤ rec_ then 1 else 0) ∧
          ((128 ≤ tec ∨ 128 ≤ rec_) → s.raw .CAN_STATUS_STATE n = 0 → s.Logged t (0x40 + n) 0x0001 2 none 0) ∧ s.Keeps t [.btn] (ofInst regs n)) ∧
        (255 < tec → ∃ t, exec (.canBusError n tec rec_ lec) s = .next t ∧ counted t ∧ t.raw .CAN_STATUS_STATE n = 2 ∧
          mine t { c with bufs := [], recover := s.flag .CAN_CFG_AUTO_RECOVER n } ∧ more t .CAN_TX_DROP_UNITS n 0 c.bufs.length ∧
          s.Logged t (0x40 + n) 0x0002 2 none 0 ∧ s.Keeps t [.btn, .can] (ofInst regs n))) ∧
      (s.raw .CAN_STATUS_STATE n = 2 →
        (c.recover = true → ∃ t, exec (.canBusRecover n) s = .next t ∧ t.raw .CAN_STATUS_STATE n = 0 ∧ t.raw .CAN_STATUS_TEC n = 0 ∧ t.raw .CAN_STATUS_REC n = 0 ∧
          mine t { c with recover := false } ∧ s.Keeps t [.can] (ofInst [.CAN_STATUS_STATE, .CAN_STATUS_TEC, .CAN_STATUS_REC] n)) ∧
        (c.recover = false → exec (.canBusRecover n) s = .next s) ∧
        (∃ t, exec (.canRestart n) s = .next t ∧ mine t { c with recover := true } ∧ s.Keeps t [.can] noReg)) ∧
      (s.raw .CAN_STATUS_STATE n ≠ 2 → exec (.canBusRecover n) s = .next s ∧ exec (.canRestart n) s = .next s) ∧
      (c.away = true → ∃ t, exec (.canRejoin n) s = .next t ∧ mine t { c with away := false } ∧
        t.raw .CAN_STATUS_STATE n = (if s.flag .CAN_CFG_ENABLE n = true ∧ s.raw .CAN_STATUS_STATE n = 3 then 0 else s.raw .CAN_STATUS_STATE n) ∧
        s.Keeps t [.can] (ofInst [.CAN_STATUS_STATE] n)) ∧
      (c.away = false → exec (.canRejoin n) s = .next s))

/-- R376, R380, R389 to R395, R397 to R400, R403 to R405. -/
def Obligations.Displays : Prop :=
  ∀ (s : State) (h : Nat), s.Inv → s.dev.st = .run → h < 4 → s.canLog → s.btn.last = [] → s.flag .BRG_VEC_MAP_EN 0 0x48 = false →
    let v := s.head h
    let more (t : State) (r : RegId) (i j n : Nat) : Prop := t.raw r i j = (s.raw r i j + n) % 2 ^ r.info.width
    let others (t : State) : Prop := ∀ g, g ≠ h → t.head g = s.head g
    let hs := s.pairOf h
    let alone : Prop := s.partner h = none
    let d0 := h + 255 * 2 ^ 8
    ((∃ g ∈ hs, s.flag .DSP_HSTATUS_PENDING g = true) → ∃ t, exec (.headCommit h) s = .next t ∧ t.raw .BLK_STATUS_BUSY_REFUSED 0x48 = 1 ∧
      s.Keeps t [] (ofInst [.BLK_STATUS_BUSY_REFUSED] 0x48)) ∧
    ((∀ g ∈ hs, s.flag .DSP_HSTATUS_PENDING g = false) →
      let k := s.headCause hs
      (k = 0 → ∃ t, exec (.headCommit h) s = .next t ∧ (∀ g ∈ hs, t.raw .DSP_HSTATUS_PENDING g = 1 ∧ t.head g = { s.head g with commitAt := some s.clock }) ∧
        (alone → t.taken = (s.apply (.take (ofHead h))).taken) ∧ s.Keeps t [.dsp, .taken] (anyOf [.DSP_HSTATUS_PENDING])) ∧
      (k ≠ 0 → ∃ t, exec (.headCommit h) s = .next t ∧
        (∀ g ∈ hs, t.raw .DSP_HSTATUS_PENDING g = 0 ∧ t.raw .DSP_HSTATUS_RESULT g = 2 ∧ t.raw .DSP_HSTATUS_CAUSE g = k ∧ t.head g = { s.head g with commitAt := none }) ∧
        more t .BLK_COMMIT_COUNT_REJECT_COUNT 0x48 0 1 ∧ s.Logged t 0x48 0xF004 2 none (2 + k * 2 ^ 32) ∧
        s.Keeps t [.dsp, .taken, .btn] fun r i _ => r.owner i == 0x48)) ∧
    (alone → ∃ t, exec (.headAbandon h) s = .next t ∧ (s.flag .DSP_HSTATUS_PENDING h = true → t.raw .DSP_HSTATUS_PENDING h = 0 ∧ (t.head h).commitAt = none) ∧
      (∀ r i j, ofHead h r i j = true → spotFits i j = true → t.shadow r i j = t.fld r i j) ∧ others t ∧
      s.Keeps t [.dsp, .shadows, .taken] (anyOf [.DSP_HSTATUS_PENDING, .BLK_STATUS_COMMIT_PENDING])) ∧
    (alone → v.holdShown = false → s.flag .DSP_HCTRL_ENABLE h = true → s.flag .DSP_HSTATUS_PSR_ACTIVE h = false →
      let ended (t : State) : Prop := more t .DSP_FRAME_COUNT_FRAMES h 0 1 ∧ (t.head h).lastVblank = s.clock ∧ others t ∧
        ∃ w, t.out = ⟨.video, [h, s.moment, w], []⟩ :: s.out
      let seq := (s.raw .DSP_HSTATUS_SEQ h + 1) % 2 ^ 16
      let at_ := s.raw .DSP_FENCE_ADDR_ADDR h * 16
      let fenced (t : State) : Prop := t.raw .DSP_HSTATUS_SEQ h = seq ∧ t.raw .DSP_FENCE_SEQ h = seq ∧ t.grn.ipend.testBit 0x48 = true ∧
        t.grn = { s.grn with ipend := t.grn.ipend } ∧
        (at_ ≠ 0 → s.inDram at_ 16 = true → t.mem.reads at_ 16 = leBytes 2 seq ++ List.replicate 6 0 ++ leBytes 8 s.moment) ∧
        ∀ x, x < at_ ∨ at_ + 16 ≤ x → t.mem.read x = s.mem.read x
      (v.presents = [] → v.commitAt = none → ∃ t, exec (.vblankStart h) s = .next t ∧ ended t ∧
        t.head h = { v with quiet := (if v.damaged then 0 else v.quiet + 1), damaged := false, lastVblank := s.clock, mute := v.mute - 1 } ∧
        (v.mute = 1 → t.raw .DSP_LINK_STATUS_PLL_LOCK h = 1) ∧
        s.Keeps t [.dsp, .out, .tmb] (ofInst [.DSP_FRAME_COUNT_FRAMES, .DSP_LINK_STATUS_PLL_LOCK] h)) ∧
      (∀ at0, v.presents = [] → v.commitAt = some at0 → at0 + 4 * us ≤ s.clock → s.judged.headCause [h] = 0 → s.dsp.globals = false →
        s.routeClash h (s.judged.next .DSP_OUT_ROUTE h) = false → ∃ t, exec (.vblankStart h) s = .next t ∧ ended t ∧ fenced t ∧
          t.raw .DSP_HSTATUS_PENDING h = 0 ∧ t.raw .DSP_HSTATUS_RESULT h = 1 ∧ (t.head h).commitAt = none ∧ more t .BLK_COMMIT_COUNT_DONE_COUNT 0x48 0 1 ∧
          (∀ r j x, ofHead h r h j = true → spotFits h j = true → r.info.acc = .rws → s.taken.look r h j = some x → t.raw r h j = x) ∧
          s.Keeps t [.dsp, .taken, .shadows, .tmb, .out, .mem, .grn] fun r i _ => r.owner i == 0x48) ∧
      (∀ (p : Present) (at0 : Nat), v.commitAt = none → v.presents = [p] → p.readyAt = some at0 → at0 + 4 * us ≤ s.clock → p.fb < 2 ^ 48 → p.layer < 8 →
        ∃ t, exec (.vblankStart h) s = .next t ∧ ended t ∧ fenced t ∧ t.raw .DSP_LAYER_FB h p.layer = p.fb ∧ (t.head h).presents = [] ∧
          s.Keeps t [.dsp, .shadows, .tmb, .out, .mem, .grn] fun r i _ => r.owner i == 0x48)) ∧
    (∀ x, s.message 0x48 = some x → alone →
      let w := msgWord x 0
      let l := bits w 14 12
      let taken (t : State) : Prop := t.grn = { s.grn with msgs := s.grn.msgs.erase x }
      let ok : Prop := bits w 7 0 = 1 ∧ presentOk s x = true
      (ok → bits w 9 8 = h → v.presents = [] → s.tilesBefore h (x.chan.getD 0) = [] → ∃ t, exec .present s = .next t ∧ taken t ∧
        t.head h = { v with presents := [⟨l, bits (msgWord x 1) 47 0, x.chan.getD 0, [], some s.clock⟩], damaged := true, quiet := 0 } ∧ others t ∧
        s.Keeps t [.grn, .dsp, .out] (ofInst [.DSP_HSTATUS_PSR_ACTIVE] h)) ∧
      (¬ ok → ∃ t, exec .present s = .next t ∧ taken t ∧ more t .DSP_MSG_REFUSED_MESSAGES 0 0 1 ∧
        s.Logged t 0x48 0x0007 2 x.chan (bits w 9 8 + 255 * 2 ^ 8) ∧ s.Keeps t [.grn, .btn] (anyOf [.DSP_MSG_REFUSED_MESSAGES]))) ∧
    (v.tiles = [] → exec (.tileUpdate h) s = .next s ∧ exec (.tileApply h) s = .next s) ∧
    (∀ u : Tile, v.tiles = [u] → v.presents = [] →
      let c := canvasOf u.unit.entry
      let th := tileHead u.unit.bytes
      let n := c.cols th * c.bpp / 8
      let rowOf (x : Nat) : Prop := ∃ i, i < c.rows th ∧ c.rowAddr th i ≤ x ∧ x < c.rowAddr th i + n
      let handles (i : Instr) : Prop :=
        (∀ d owner, s.tileVerdict u.unit = .write c th d owner → alone → c.head = h → c.cols th * c.bpp % 8 = 0 → n ≤ c.stride → d.length = th.h * lineBytes th.w c.bpp →
          (∀ k, k < c.rows th → s.inDram (c.rowAddr th k) n = true) → ∃ t, exec i s = .next t ∧
            (∀ k j, k < c.rows th → j < n → t.mem.read (c.rowAddr th k + j) = d.getD (k * lineBytes th.w c.bpp + j) 0) ∧
            (∀ x, ¬ rowOf x → t.mem.read x = s.mem.read x) ∧ (t.head h).tiles = [] ∧ (owner = true → (t.head h).damaged = true) ∧ others t ∧
            more t .DSP_TILE_CLIP_TILES 0 0 (if c.cols th < th.w ∨ c.rows th < th.h then 1 else 0) ∧
            s.Keeps t [.dsp, .mem, .out] (anyOf [.DSP_TILE_CLIP_TILES, .DSP_HSTATUS_PSR_ACTIVE])) ∧
        (∀ a, s.tileVerdict u.unit = .bad a → ∃ t, exec i s = .next t ∧ t.head h = { v with tiles := [] } ∧ others t ∧ more t .DSP_TILE_BAD_TILES 0 0 1 ∧
          s.Logged t 0x48 0x0003 2 (some u.unit.chan) (h + c.layer * 2 ^ 8 + a * 2 ^ 32) ∧ s.Keeps t [.dsp, .btn] (anyOf [.DSP_TILE_BAD_TILES]))
      (u.waited = false → handles (.tileUpdate h)) ∧ (u.waited = true → handles (.tileApply h)) ∧
      (u.waited = false → s.tileVerdict u.unit = .defer → ∃ t, exec (.tileUpdate h) s = .next t ∧ t.head h = { v with tiles := [{ u with waited := true }] } ∧
        others t ∧ s.Keeps t [.dsp] noReg) ∧
      (u.waited = true → s.tileVerdict u.unit = .defer → exec (.tileApply h) s = .next s) ∧
      (∀ a, u.waited = false → u.held = false → s.tileVerdict u.unit = .lease a →
        (s.raw .DSP_CFG_LEASE_MODE = 0 → ∃ t, exec (.tileUpdate h) s = .next t ∧ t.head h = { v with tiles := [{ u with waited := true, held := true }] } ∧ others t ∧
          more t .DSP_LEASE_WAITS_WRITES 0 0 1 ∧ s.Keeps t [.dsp] (anyOf [.DSP_LEASE_WAITS_WRITES])) ∧
        (s.raw .DSP_CFG_LEASE_MODE ≠ 0 → ∃ t, exec (.tileUpdate h) s = .next t ∧ t.head h = { v with tiles := [] } ∧ others t ∧
          more t .DSP_LEASE_VIOL_WRITES 0 0 1 ∧ s.Logged t 0x48 0x0002 2 (some u.unit.chan) (h + c.layer * 2 ^ 8 + a * 2 ^ 32) ∧
          s.Keeps t [.dsp, .btn] (anyOf [.DSP_LEASE_VIOL_WRITES])))) ∧
    (alone →
      (s.psrReady h = true → s.flag .DSP_HSTATUS_PSR_ACTIVE h = false → v.lastVblank = s.clock → ∃ t, exec (.psrEntry h true) s = .next t ∧
        t.raw .DSP_HSTATUS_PSR_ACTIVE h = 1 ∧ t.out = ⟨.aux, [h, 1], []⟩ :: s.out ∧ s.Keeps t [.out] (ofInst [.DSP_HSTATUS_PSR_ACTIVE] h)) ∧
      (s.psrReady h = false → exec (.psrEntry h true) s = .next s)) ∧ exec (.psrEntry h false) s = .next s ∧
    (let on := s.flag .DSP_HCTRL_ENABLE h
     let down (i : Instr) (v' : Head) : Prop := ∃ t, exec i s = .next t ∧ t.raw .DSP_LINK_STATUS_UP h = 0 ∧ t.head h = v' ∧ others t ∧ s.Logged t 0x48 0x0004 2 none d0 ∧
       s.Keeps t [.dsp, .btn] (ofInst [.DSP_LINK_STATUS_UP] h)
     (on = true →
       (∃ t, exec (.dspUnderrun h) s = .next t ∧ more t .DSP_UNDERRUN_COUNT_LINES h 0 1 ∧ s.Logged t 0x48 0x0001 2 none d0 ∧
         s.Keeps t [.btn] (ofInst [.DSP_UNDERRUN_COUNT_LINES] h)) ∧
       (v.hpd = true → down (.hpdLoss h) { v with hpd := false, training := false, lost := true }) ∧
       (v.lost = false → down (.auxFailure h) { v with training := false, lost := true }) ∧
       (v.lost = true → s.raw .DSP_OUT_MODE h ≠ 0 → ∃ t, exec (.hpdReturn h) s = .next t ∧ t.raw .DSP_LINK_STATUS_UP h = 0 ∧
         t.head h = { v with hpd := true, training := true } ∧ others t ∧ s.Keeps t [.dsp] (ofInst [.DSP_LINK_STATUS_UP] h)) ∧
       (v.hpd = true → s.raw .DSP_OUT_MODE h = 1 → ∃ t, exec (.irqHpd h none) s = .next t ∧ t.out = ⟨.aux, [h, 2], []⟩ :: s.out ∧ s.Keeps t [.out] noReg)) ∧
     (on = false → exec (.dspUnderrun h) s = .next s ∧ exec (.auxFailure h) s = .next s ∧ exec (.irqHpd h none) s = .next s ∧
       ∃ t, exec (.hpdReturn h) s = .next t ∧ t.head h = { v with hpd := true } ∧ others t ∧ s.Keeps t [.dsp] noReg) ∧
     (v.hpd = false → exec (.hpdLoss h) s = .next s) ∧ (v.lost = true → exec (.auxFailure h) s = .next s) ∧
     (∀ k, k < 6 → s.raw .DSP_OUT_ROUTE h = k + 1 → s.chans = [] → ∃ t, exec (.irqHpd h (some k)) s = .next t ∧ t.out = ⟨.aux, [h, 2, k], []⟩ :: s.out ∧
       s.Keeps t [.out] noReg) ∧
     (∀ rate lanes tx, rate < 7 → lanes < 3 → v.training = true → v.hpd = true → s.laneOut (38 + h) = false → s.raw .DSP_OUT_MODE h ≠ 0 →
       let basic : Bool := s.level 0x48 == 0
       let r := if basic then rate else s.raw .DSP_LINK_CFG_RATE h
       let l := if basic then lanes else s.raw .DSP_LINK_CFG_LANES h
       r < 4 ∨ s.raw .DSP_OUT_MODE h = 1 → ∃ t, exec (.dspTrainingComplete h rate lanes tx) s = .next t ∧ t.raw .DSP_LINK_STATUS_UP h = 1 ∧
         t.raw .DSP_LINK_STATUS_RATE h = r ∧ t.raw .DSP_LINK_STATUS_LANES h = l ∧ t.head h = { v with training := false, lost := false } ∧ others t ∧
         (basic = true → t.raw .DSP_LINK_CFG_RATE h = rate ∧ t.raw .DSP_LINK_CFG_LANES h = lanes ∧ t.raw .DSP_LINK_CFG_TX_SETTING h = tx % 16) ∧
         (v.lost = true → s.Logged t 0x48 0x0005 1 none d0) ∧
         s.Keeps t [.dsp, .btn] (ofInst [.DSP_LINK_STATUS_UP, .DSP_LINK_STATUS_RATE, .DSP_LINK_STATUS_LANES, .DSP_LINK_CFG_RATE, .DSP_LINK_CFG_LANES,
           .DSP_LINK_CFG_TX_SETTING] h)) ∧
     (0 < v.mute → s.raw .DSP_LINK_STATUS_PLL_LOCK h = 0 → ∃ t, exec (.dspPllUnlock h) s = .next t ∧ t.head h = { v with mute := 2 } ∧ others t ∧
       s.Logged t 0x48 0x0006 2 none d0 ∧ s.Keeps t [.dsp, .btn] noReg) ∧
     (v.mute = 0 → exec (.dspPllUnlock h) s = .next s))

/-- R407, R409 to R414, R417, R423 to R427. The causes of CBL_HARD_RESET and the AMS codes are the model's (log entry 46), and VBUS before a contract is log entry 45's. -/
def Obligations.CableContracts : Prop :=
  ∀ (s : State) (p : Nat), s.Inv → p < 6 → s.dev.st = .run → s.dev.vin = true → s.btn.discards = 0 → s.btn.staged.length + 2 < stagingCap → s.btn.last = [] →
    s.coreDown = false → (∀ q, q < 6 → q ≠ p → s.flag .CBL_PORT_STATUS_ATTACHED q = false) → s.raw .CBL_MUX_STATE p = 0 →
    let v := s.cblPort p
    let more (t : State) (r : RegId) (n : Nat) : Prop := t.raw r p = (s.raw r p + n) % 2 ^ r.info.width
    let only (t : State) (v' : CblPort) : Prop := t.cblPort p = v' ∧ ∀ q, q ≠ p → t.cblPort q = s.cblPort q
    let used (t : State) : Prop := t.raw .CBL_SRC_USE_WATTS = ((List.range 6).map t.pooled).sum / 1000000 % 2 ^ 16
    let may (l : List RegId) : RegId → Nat → Nat → Bool := fun r i _ => (l.contains r && i == p) || r == .CBL_SRC_USE_WATTS
    let pdOut (args : List Nat) : Out := ⟨.pd, p :: args, []⟩
    let gates (a b c : Nat) : Out := ⟨.gates, [p, a, b, c], []⟩
    let fits (t : State) : Prop := ∀ o ∈ t.sourcePdos p, o.1 ≤ s.raw .CBL_CEILING_SRC_MV p ∧ o.2 ≤ s.raw .CBL_CEILING_SRC_MA p
    let capsOut (t : State) : Out := pdOut (33 :: (t.sourcePdos p).map fun o => fixedPdo o.1 o.2)
    let wide (i : Instr) (l : List Out) : Prop := ∃ t, exec i s = .next t ∧ t.out = l ++ s.out ∧ s.Keeps t [.out] noReg
    let quietI (i : Instr) : Prop := exec i s = .next s
    let source : Bool := s.flag .CBL_PORT_STATUS_POWER_ROLE p
    let stay : Prop := s.flag .CBL_PORT_STATUS_DATA_ROLE p = false ∨ s.flag .CBL_PORT_CFG_MUX_POLICY p = true ∨ s.raw .CBL_PORT_STATUS_MODE p ≠ 0
    let att : Prop := s.flag .CBL_PORT_STATUS_ATTACHED p = true
    (∀ (orient : Nat) (src ra : Bool) (cable speed : Nat) (fiveA epr : Bool),
      let i := Instr.ccAttach p orient src ra cable speed fiveA epr
      let role := s.raw .CBL_PORT_CFG_ROLE p
      cable % 4 < 3 →
      let on : Prop := ¬ att ∧ v.latched = false ∧ (role = 2 ∨ role = src.toNat)
      (¬ on → quietI i) ∧
      (on → ∃ t, exec i s = .next t ∧ t.raw .CBL_PORT_STATUS_ATTACHED p = 1 ∧ t.raw .CBL_PORT_STATUS_ORIENT p = orient % 2 ∧
        t.raw .CBL_PORT_STATUS_POWER_ROLE p = src.toNat ∧ t.raw .CBL_PORT_STATUS_DATA_ROLE p = src.toNat ∧ t.raw .CBL_PORT_STATUS_CABLE p = cable % 4 ∧
        t.raw .CBL_PORT_STATUS_CABLE_SPEED p = speed % 8 ∧ t.raw .CBL_PORT_STATUS_CABLE_5A p = fiveA.toNat ∧ t.raw .CBL_PORT_STATUS_CABLE_EPR p = epr.toNat ∧
        t.raw .CBL_PORT_STATUS_VCONN_ON p = (ra && s.flag .CBL_PORT_CFG_VCONN_EN p && src).toNat ∧ used t ∧
        (let w := { v with attachPower := src.toNat, attachData := src.toNat, vconnOc := false, ra := ra }
         if src = true ∨ s.vsafe5 p = true then only t { w with gsrc := src, gsnk := !src, discharge := false } else only t w) ∧
        (src = true → fits t → t.out = capsOut t :: gates 1 0 0 :: s.out) ∧ (src = false → s.vsafe5 p = true → t.out = gates 0 1 0 :: s.out) ∧
        (src = false → s.vsafe5 p = false → t.out = s.out) ∧ (src = true → ¬ fits t → s.Logged t 0x50 2 2 none p ∧ t.out = gates 1 0 0 :: s.out) ∧
        s.Keeps t [.cbl, .boot, .out, .btn] (may [.CBL_PORT_STATUS_ATTACHED, .CBL_PORT_STATUS_ORIENT, .CBL_PORT_STATUS_POWER_ROLE, .CBL_PORT_STATUS_DATA_ROLE,
          .CBL_PORT_STATUS_CABLE, .CBL_PORT_STATUS_CABLE_SPEED, .CBL_PORT_STATUS_CABLE_5A, .CBL_PORT_STATUS_CABLE_EPR, .CBL_PORT_STATUS_VCONN_ON]))) ∧
    (att →
      let status := [RegId.CBL_PORT_STATUS_ATTACHED, .CBL_PORT_STATUS_ORIENT, .CBL_PORT_STATUS_POWER_ROLE, .CBL_PORT_STATUS_DATA_ROLE, .CBL_PORT_STATUS_VCONN_ON,
        .CBL_PORT_STATUS_DEAD_BATTERY, .CBL_PORT_STATUS_CABLE, .CBL_PORT_STATUS_CABLE_SPEED, .CBL_PORT_STATUS_CABLE_5A, .CBL_PORT_STATUS_CABLE_EPR,
        .CBL_PORT_STATUS_CONTRACT, .CBL_CONTRACT_MV, .CBL_CONTRACT_MA, .CBL_PORT_STATUS_EPR, .CBL_PORT_STATUS_MODE, .CBL_PORT_STATUS_PIN]
      ∃ t, exec (.ccDetach p) s = .next t ∧ (∀ r ∈ status, t.raw r p = 0) ∧ t.vsafe5 p = false ∧ used t ∧ t.out = gates 0 0 1 :: s.out ∧
        only t { blankCbl with discharge := true, trips := v.trips, latched := v.latched } ∧
        (∀ r, v.req = some r → r.own = true → t.raw .CBL_CMD_STATUS_RESULT p = 6) ∧ s.Keeps t [.cbl, .dev, .out] (may (.CBL_CMD_STATUS_RESULT :: status))) ∧
    (let risen (t : State) : Prop := t.vsafe5 p = true ∧ t.dev = { s.dev with vbus := t.dev.vbus } ∧ ∀ q, q ≠ p → t.vsafe5 q = s.vsafe5 q
     let closes : Prop := s.isSink p = true ∧ s.flag .CBL_PORT_STATUS_CONTRACT p = false ∧ v.gsnk = false ∧ v.latched = false
     (closes → ∃ t, exec (.vbusRise p) s = .next t ∧ risen t ∧ only t { v with gsrc := false, gsnk := true, discharge := false } ∧ t.out = gates 0 1 0 :: s.out ∧
       s.Keeps t [.dev, .cbl, .out] noReg) ∧ (¬ closes → ∃ t, exec (.vbusRise p) s = .next t ∧ risen t ∧ s.Keeps t [.dev] noReg)) ∧
    (∀ pdos : List Nat, s.isSink p = true → v.latched = false → (s.vsafe5 p = false ∨ v.gsnk = true) →
      let i := Instr.pdSourceCapabilities p pdos
      let mv (k : Nat) := bits (pdos.getD k 0) 19 10 * 50
      let ma (k : Nat) := min (bits (pdos.getD k 0) 9 0 * 10) (s.raw .CBL_CEILING_SNK_MA p)
      let ok (k : Nat) : Prop := k < pdos.length ∧ pdos.getD k 0 ≠ 0 ∧ bits (pdos.getD k 0) 31 30 = 0 ∧ mv k ≤ s.raw .CBL_CEILING_SNK_MV p
      (∀ k, ok k → (∀ j, ok j → mv j * ma j ≤ mv k * ma k) → (∀ j, ok j → j < k → mv j * ma j < mv k * ma k) → ∃ t, exec i s = .next t ∧
        t.out = pdOut [34, k + 1, ma k / 10] :: s.out ∧ only t { v with nego := some (mv k, ma k), ams := 1 } ∧ s.Keeps t [.cbl, .out] noReg) ∧
      ((∀ k, ¬ ok k) → ∃ t, exec i s = .next t ∧ s.Logged t 0x50 2 2 none p ∧ s.Keeps t [.btn] noReg)) ∧
    (s.isSource p = true → v.latched = false → ∀ object ma offers vdo : Nat,
      let i := Instr.pdRequest p object ma offers vdo
      let w := { v with nego := none, safeAt := none, ams := 0, ceilingAt := none, offers := offers, peerVdo := vdo }
      let pick : Option (Nat × Nat) :=
        if object = 8 then ((s.sourcePdos p).filter fun o => decide (20000 < o.1) && s.flag .CBL_PORT_STATUS_EPR p).head?
        else if object = 0 then none else ((s.sourcePdos p).filter fun o => decide (o.1 ≤ 20000))[object - 1]?
      (pick = none → wide i [pdOut [4]]) ∧
      (∀ o, pick = some o →
        let above : Prop := s.raw .CBL_CEILING_SRC_MV p < o.1 ∨ s.raw .CBL_CEILING_SRC_MA p < ma
        (above → ∃ t, exec i s = .next t ∧ t.out = pdOut [4] :: s.out ∧ s.Logged t 0x50 2 2 none p ∧ s.Keeps t [.out, .btn] noReg) ∧
        (¬ above → o.2 < ma → wide i [pdOut [4]]) ∧
        (¬ above → ma ≤ o.2 → stay → ∃ t, exec i s = .next t ∧ t.raw .CBL_PORT_STATUS_CONTRACT p = 1 ∧ t.raw .CBL_CONTRACT_MV p = o.1 ∧
          t.raw .CBL_CONTRACT_MA p = ma ∧ used t ∧ t.out = pdOut [6] :: ((if v.gsrc then [] else [gates 1 0 0]) ++ pdOut [3] :: s.out) ∧
          only t { w with gsrc := true, gsnk := v.gsnk && v.gsrc, discharge := v.discharge && v.gsrc } ∧
          s.Keeps t [.cbl, .dev, .out] (may [.CBL_PORT_STATUS_CONTRACT, .CBL_CONTRACT_MV, .CBL_CONTRACT_MA])))) ∧
    (∀ mv ma offers vdo, att → v.nego = some (mv, ma) → mv < 2 ^ 16 → ma < 2 ^ 16 →
      (source = true → quietI (.pdPsRdy p offers vdo)) ∧
      (source = false → v.gsnk = true → stay → ∃ t, exec (.pdPsRdy p offers vdo) s = .next t ∧ t.raw .CBL_PORT_STATUS_CONTRACT p = 1 ∧
        t.raw .CBL_CONTRACT_MV p = mv ∧ t.raw .CBL_CONTRACT_MA p = ma ∧ t.out = s.out ∧
        only t { v with nego := none, safeAt := none, ams := 0, ceilingAt := none, offers := offers, peerVdo := vdo } ∧
        s.Keeps t [.cbl, .dev] (ofInst [.CBL_PORT_STATUS_CONTRACT, .CBL_CONTRACT_MV, .CBL_CONTRACT_MA] p))) ∧
    (att → v.nego = none → ∀ offers vdo, quietI (.pdPsRdy p offers vdo)) ∧
    (let roles := [RegId.CBL_PORT_STATUS_POWER_ROLE, .CBL_PORT_STATUS_DATA_ROLE, .CBL_PORT_STATUS_VCONN_ON]
     ∀ x ∈ [(1, Instr.pdPrSwap p, Instr.swapPr p, 10), (2, .pdDrSwap p, .swapDr p, 9), (3, .pdVconnSwap p, .swapVconn p, 11)],
      let op := x.1
      let got := x.2.1
      let ask := x.2.2.1
      let swapped (t : State) : Prop := t.roleOf p op = 1 - s.roleOf p op ∧ (∀ o, 1 ≤ o → o ≤ 3 → o ≠ op → t.roleOf p o = s.roleOf p o) ∧ more t .CBL_COUNTS_SWAPS 1
      (att → v.req = none → s.acceptSwap p op = false → wide got [pdOut [4]]) ∧
      (att → v.req = none → s.acceptSwap p op = true → ∃ t, exec got s = .next t ∧ swapped t ∧
        (op ≠ 1 → t.out = pdOut [6] :: pdOut [3] :: s.out ∧ only t v ∧ t.raw .CBL_SRC_USE_WATTS = s.raw .CBL_SRC_USE_WATTS ∧ t.btn = s.btn) ∧
        (op = 1 → only t { v with gsrc := !source, gsnk := source, discharge := false } ∧ used t ∧
          (source = true → t.out = pdOut [6] :: gates 0 1 0 :: gates 0 0 1 :: pdOut [3] :: s.out) ∧
          (source = false → v.latched = false → fits t → t.out = capsOut t :: pdOut [6] :: gates 1 0 0 :: gates 0 0 1 :: pdOut [3] :: s.out)) ∧
        s.Keeps t [.cbl, .out, .btn] (may (.CBL_COUNTS_SWAPS :: roles))) ∧
      (∀ r, att → v.req = some r → source = true → wide got [pdOut [12]]) ∧
      (∀ r, att → v.req = some r → source = false → r.own = true → s.acceptSwap p op = false → s.roleOf p r.op ≠ r.arg → 0 < r.retries →
        let lo := s.raw .CBL_SWAP_CFG_RETRY_MIN_MS p
        let hi := s.raw .CBL_SWAP_CFG_RETRY_MAX_MS p
        lo ≤ hi → ∃ t d, exec got s = .next t ∧ lo ≤ d ∧ d ≤ hi ∧ only t { v with req := some { r with retryAt := some (s.clock + d * ms), accepted := false } } ∧
          t.raw .CBL_CMD_STATUS_RESULT p = 5 ∧ s.Logged t 0x50 7 2 none p ∧ t.out = pdOut [4] :: s.out ∧
          s.Keeps t [.cbl, .out, .btn, .drawn] (ofInst [.CBL_CMD_STATUS_RESULT] p)) ∧
      (∀ r, att → v.req = some r → source = false → r.own = true → s.acceptSwap p op = false → (s.roleOf p r.op = r.arg ∨ r.retries = 0) → ∃ t, exec got s = .next t ∧
        only t { v with req := none, ams := 0 } ∧ t.raw .CBL_CMD_STATUS_RESULT p = 5 ∧ s.Logged t 0x50 7 2 none p ∧ t.out = pdOut [4] :: s.out ∧
        s.Keeps t [.cbl, .out, .btn] (ofInst [.CBL_CMD_STATUS_RESULT] p)) ∧
      (let ends (n : Nat) : Prop := ∃ t, exec ask s = .next t ∧ t.raw .CBL_CMD_STATUS_OP p = op ∧ t.raw .CBL_CMD_STATUS_RESULT p = n ∧
         s.Keeps t [] (ofInst [.CBL_CMD_STATUS_OP, .CBL_CMD_STATUS_RESULT] p)
       let busy : Prop := v.req ≠ none ∨ v.ams ≠ 0
       let wrong : Prop := ¬ att ∨ (op = 2 ∧ s.raw .CBL_PORT_STATUS_MODE p ≠ 0)
       (busy → ends 2) ∧ (¬ busy → wrong → ends 4) ∧
       (¬ busy → ¬ wrong → ∃ t, exec ask s = .next t ∧ t.raw .CBL_CMD_STATUS_OP p = op ∧ t.raw .CBL_CMD_STATUS_RESULT p = 0 ∧ t.out = pdOut [x.2.2.2] :: s.out ∧
         only t { v with req := some ⟨op, 1 - s.roleOf p op, s.clock, s.raw .CBL_SWAP_CFG_RETRIES p, none, false, true⟩, ams := op + 1 } ∧
         s.Keeps t [.cbl, .out] (ofInst [.CBL_CMD_STATUS_OP, .CBL_CMD_STATUS_RESULT] p))) ∧
      (∀ r, att → v.req = some r → r.op = op →
        let ends (i : Instr) (n : Nat) : Prop := ∃ t, exec i s = .next t ∧ only t { v with req := none, ams := 0 } ∧ (r.own = true → t.raw .CBL_CMD_STATUS_RESULT p = n) ∧
          s.Keeps t [.cbl] (ofInst [.CBL_CMD_STATUS_RESULT] p)
        (r.retryAt = none →
          ends (.pdReject p) 3 ∧ ends (.swapTimeout p) 6 ∧ quietI (.swapRetry p) ∧
          (∃ t, exec (.pdAccept p) s = .next t ∧ swapped t ∧ (t.cblPort p).req = none ∧ (t.cblPort p).ams = 0 ∧ (r.own = true → t.raw .CBL_CMD_STATUS_RESULT p = 1) ∧
            s.Keeps t [.cbl, .out, .btn] (may (.CBL_COUNTS_SWAPS :: .CBL_CMD_STATUS_RESULT :: roles))) ∧
          (s.raw .CBL_SWAP_CFG_RETRY_MIN_MS p ≤ s.raw .CBL_SWAP_CFG_RETRY_MAX_MS p → ∃ t d, exec (.pdWait p) s = .next t ∧ s.raw .CBL_SWAP_CFG_RETRY_MIN_MS p ≤ d ∧
            d ≤ s.raw .CBL_SWAP_CFG_RETRY_MAX_MS p ∧ only t { v with req := some { r with retryAt := some (s.clock + d * ms), accepted := false } } ∧
            s.Keeps t [.cbl, .drawn] noReg)) ∧
        (∀ at_, r.retryAt = some at_ →
          quietI (.pdReject p) ∧ quietI (.swapTimeout p) ∧ quietI (.pdAccept p) ∧ quietI (.pdWait p) ∧
          (s.clock < at_ → quietI (.swapRetry p)) ∧
          (at_ ≤ s.clock → (s.roleOf p r.op = r.arg ∨ r.retries = 0) → ∃ t, exec (.swapRetry p) s = .next t ∧ only t { v with req := none, ams := 0 } ∧ s.Keeps t [.cbl] noReg) ∧
          (at_ ≤ s.clock → s.roleOf p r.op ≠ r.arg → 0 < r.retries → ∃ t, exec (.swapRetry p) s = .next t ∧ t.out = pdOut [x.2.2.2] :: s.out ∧
            only t { v with req := some { r with retries := r.retries - 1, retryAt := none, sentAt := s.clock } } ∧ s.Keeps t [.cbl, .out] noReg)))) ∧
    (att → v.req = none → quietI (.pdAccept p) ∧ quietI (.swapTimeout p) ∧ quietI (.swapRetry p) ∧
      ∀ i ∈ [Instr.pdReject p, .pdWait p], ∃ t, exec i s = .next t ∧ only t { v with nego := none, ams := 0 } ∧ s.Keeps t [.cbl] noReg) ∧
    (att → ∃ t, exec (.pdSoftReset p) s = .next t ∧ only t { v with req := none, nego := none, ams := 0 } ∧ t.out = pdOut [3] :: s.out ∧
      (∀ r, v.req = some r → r.own = true → t.raw .CBL_CMD_STATUS_RESULT p = 6) ∧ s.Keeps t [.cbl, .out] (ofInst [.CBL_CMD_STATUS_RESULT] p)) ∧
    (let low := [RegId.CBL_PORT_STATUS_CONTRACT, .CBL_CONTRACT_MV, .CBL_CONTRACT_MA, .CBL_PORT_STATUS_EPR, .CBL_PORT_STATUS_MODE, .CBL_PORT_STATUS_PIN]
     let hit (t : State) : Prop := (∀ r ∈ low, t.raw r p = 0) ∧ t.raw .CBL_MUX_STATE p = 0 ∧ t.raw .CBL_PORT_STATUS_POWER_ROLE p = v.attachPower ∧
       t.raw .CBL_PORT_STATUS_DATA_ROLE p = v.attachData ∧ more t .CBL_COUNTS_HARD_RESETS 1 ∧ (t.cblPort p).req = none ∧ (t.cblPort p).ams = 0 ∧
       (t.cblPort p).nego = none ∧ (t.cblPort p).peerDp = 0 ∧ (∀ q, q ≠ p → t.cblPort q = s.cblPort q) ∧
       t.raw .CBL_PORT_STATUS_VCONN_ON p = (v.attachPower == 1 && s.flag .CBL_PORT_CFG_VCONN_EN p && !v.vconnOc && v.ra).toNat ∧ used t ∧ gates 0 0 1 ∈ t.out
     let back (t : State) : Prop := (t.cblPort p).gsrc = (v.attachPower == 1) ∧ (t.cblPort p).gsnk = (v.attachPower != 1) ∧ (t.cblPort p).discharge = false
     let code (c : Nat) := p + (c + v.ams * 2 ^ 8) * 2 ^ 8
     let mayHr (l : List RegId) := may (l ++ .CBL_CMD_STATUS_RESULT :: .CBL_PORT_STATUS_POWER_ROLE :: .CBL_PORT_STATUS_DATA_ROLE :: .CBL_PORT_STATUS_VCONN_ON ::
       .CBL_COUNTS_HARD_RESETS :: low)
     let grps := [Grp.cbl, .dev, .out, .btn]
     let resets (i : Instr) (c : Nat) (l : List RegId) : Prop := ∃ t, exec i s = .next t ∧ hit t ∧ back t ∧ s.Keeps t grps (mayHr l) ∧
       (t.btn.staged.drop s.btn.staged.length).head? = some ⟨s.moment, s.btn.logSeq % 2 ^ 20, s.raw .SYS_STATE_CHAIN_POS, 0x50, 2, 4, none, code c⟩ ∧
       (pdOut [64] ∈ t.out ∨ c = 1)
     v.attachPower < 2 → v.attachData < 2 → v.latched = false →
       (att → resets (.pdHardReset p) 1 []) ∧
       (att → ∃ t, exec (.hardReset p) s = .next t ∧ hit t ∧ back t ∧ t.raw .CBL_CMD_STATUS_OP p = 7 ∧ t.raw .CBL_CMD_STATUS_RESULT p = 1) ∧
       (att → resets (.hardReset p) 2 [.CBL_CMD_STATUS_OP]) ∧
       (¬ att → ∃ t, exec (.hardReset p) s = .next t ∧ t.raw .CBL_CMD_STATUS_OP p = 7 ∧ t.raw .CBL_CMD_STATUS_RESULT p = 4 ∧
         s.Keeps t [] (ofInst [.CBL_CMD_STATUS_OP, .CBL_CMD_STATUS_RESULT] p)) ∧
       (∀ x ∈ [(Instr.safeSourceTimeout p, v.safeAt), (.ceilingTimeout p, v.ceilingAt)], att →
         (x.2 = none → quietI x.1) ∧ (∀ at_, x.2 = some at_ → s.clock < at_ + 30 * ms → quietI x.1)) ∧
       (∀ at_, att → v.safeAt = some at_ → at_ + 30 * ms ≤ s.clock → resets (.safeSourceTimeout p) 4 []) ∧
       (∀ at_, att → v.ceilingAt = some at_ → at_ + 30 * ms ≤ s.clock → s.overCeiling p = true → resets (.ceilingTimeout p) 5 []) ∧
       (∀ at_, att → v.ceilingAt = some at_ → at_ + 30 * ms ≤ s.clock → s.overCeiling p = false → ∃ t, exec (.ceilingTimeout p) s = .next t ∧
         only t { v with ceilingAt := none } ∧ s.Keeps t [.cbl] noReg) ∧
       (∀ mv ma, att →
         let maxV := if source then s.raw .CBL_CEILING_SRC_MV p else s.raw .CBL_CEILING_SNK_MV p
         let maxA := if source then s.raw .CBL_CEILING_SRC_MA p else s.raw .CBL_CEILING_SNK_MA p
         let trips := v.trips.filter fun t => decide (s.clock ≤ t + 10 * sec)
         (100 * mv ≤ 105 * maxV → 100 * ma ≤ 110 * maxA → quietI (.cblTrip p mv ma)) ∧
         ((105 * maxV < 100 * mv ∨ 110 * maxA < 100 * ma) → trips.length < 2 → ∃ t, exec (.cblTrip p mv ma) s = .next t ∧ hit t ∧ back t ∧ more t .CBL_COUNTS_TRIPS 1 ∧
           (t.cblPort p).trips = s.clock :: trips ∧ (t.cblPort p).latched = false ∧
           ((t.btn.staged.drop s.btn.staged.length).map fun r => (r.blk, r.code, r.sev, r.detail)).take 2 = [(0x50, 1, 3, p), (0x50, 4, 2, code 3)] ∧
           s.Keeps t grps (mayHr [.CBL_COUNTS_TRIPS])) ∧
         ((105 * maxV < 100 * mv ∨ 110 * maxA < 100 * ma) → 2 ≤ trips.length → ∃ t, exec (.cblTrip p mv ma) s = .next t ∧ t.raw .CBL_PORT_STATUS_ATTACHED p = 0 ∧
           only t { blankCbl with discharge := true, trips := s.clock :: trips, latched := true } ∧ more t .CBL_COUNTS_TRIPS 1 ∧ more t .CBL_COUNTS_HARD_RESETS 1))) ∧
    (att → s.flag .CBL_PORT_STATUS_VCONN_ON p = true → ∃ t, exec (.cblVconnOc p) s = .next t ∧ t.raw .CBL_PORT_STATUS_VCONN_ON p = 0 ∧
      only t { v with vconnOc := true } ∧ s.Logged t 0x50 3 2 none p ∧ s.Keeps t [.cbl, .btn] (ofInst [.CBL_PORT_STATUS_VCONN_ON] p)) ∧
    (s.flag .CBL_PORT_STATUS_VCONN_ON p = false → quietI (.cblVconnOc p)) ∧
    (∃ t, exec (.recaps p) s = .next t ∧ only t { v with latched := false, trips := [] } ∧ t.raw .CBL_CMD_STATUS_OP p = 8 ∧ t.raw .CBL_CMD_STATUS_RESULT p = 1 ∧
      (att → source = false → t.out = pdOut [7] :: s.out) ∧ (s.isSource p = true → fits s → t.out = capsOut s :: s.out) ∧ (¬ att → t.out = s.out) ∧
      s.Keeps t [.cbl, .out, .btn] (ofInst [.CBL_CMD_STATUS_OP, .CBL_CMD_STATUS_RESULT] p)) ∧
    (att → wide (.pdEprKeepalive p) [pdOut [46]] ∧
      (let ok : Bool := s.flag .CBL_PORT_CFG_EPR_EN p && s.flag .CBL_PORT_STATUS_CABLE_EPR p && s.flag .CBL_PORT_STATUS_CABLE_5A p
       (ok = false → wide (.pdEprMode p true) [pdOut [4]]) ∧
       ∀ enter : Bool, (enter = true → ok = true) → ∃ t, exec (.pdEprMode p enter) s = .next t ∧ t.raw .CBL_PORT_STATUS_EPR p = enter.toNat ∧
         t.out = pdOut [42, if enter then 3 else 5] :: s.out ∧ s.Keeps t [.out] (ofInst [.CBL_PORT_STATUS_EPR] p)))

/-- R415 to R418, R420 to R422. Contents of the identity and of a peer's answers are operands or the model's own. -/
def Obligations.CableModes : Prop :=
  (∀ (s : State) (p : Nat), p < 6 →
      let l := [Instr.pdPrSwap p, .pdDrSwap p, .pdVconnSwap p, .pdSoftReset p, .pdExitMode p, .pdDiscoverIdentity p, .pdDiscoverSvids p]
      (s.aonAlive = true → s.flag .CBL_PORT_STATUS_ATTACHED p = true → s.coreDown = true →
        let waits (i : Instr) : Prop := ∃ t, exec i s = .next t ∧ t.out = ⟨.pd, [p, 12], []⟩ :: s.out ∧ s.Keeps t [.out] noReg
        (∀ i ∈ l, waits i) ∧
        (∀ a b : Nat, waits (.pdEnterMode p a b) ∧ waits (.pdDiscoverModes p a) ∧ waits (.pdDpStatusUpdate p a) ∧ waits (.pdDpConfigure p a)) ∧
        (∀ e, waits (.pdEprMode p e)) ∧
        ((s.cblPort p).latched = false →
          (s.isSource p = true → ∀ o ma a b, waits (.pdRequest p o ma a b)) ∧ (s.isSink p = true → ∀ c, waits (.pdSourceCapabilities p c))) ∧
        ∃ t, exec (.pdEprKeepalive p) s = .next t ∧ t.out = ⟨.pd, [p, 46], []⟩ :: s.out ∧ s.Keeps t [.out] noReg) ∧
      (s.aonAlive = false ∨ s.flag .CBL_PORT_STATUS_ATTACHED p = false → ∀ i ∈ l, exec i s = .next s)) ∧
  ∀ (s : State) (p : Nat), s.Inv → p < 6 → s.dev.st = .run → s.coreDown = false → s.canLog → s.raw .LNK_STATUS_UP p = 0 → s.tun.ports.get? p = none →
    s.flag .CBL_PORT_STATUS_ATTACHED p = true →
    let v := s.cblPort p
    let only (t : State) (v' : CblPort) : Prop := t.cblPort p = v' ∧ ∀ q, q ≠ p → t.cblPort q = s.cblPort q
    let flag (r : RegId) : Bool := s.flag r p
    let out (kind cmd svid : Nat) (l : List Nat) : Out := ⟨.vdm, p :: kind :: cmd :: svid :: l, []⟩
    let speaks (i : Instr) (o : Out) : Prop := ∃ t, exec i s = .next t ∧ t.out = o :: s.out ∧ s.Keeps t [.out] noReg
    let cur := s.raw .CBL_PORT_STATUS_MODE p
    let muxed (t : State) (l : List RegId) : Prop := s.Keeps t [.cbl, .lnk, .dev, .out] fun r i _ => r.owner i == 0x10 + p || i == p && (l.contains r ||
      r == .CBL_PORT_STATUS_MODE || r == .CBL_PORT_STATUS_PIN || r == .CBL_MUX_STATE)
    let inMode (t : State) (mode pin : Nat) : Prop := t.raw .CBL_PORT_STATUS_MODE p = mode ∧ t.raw .CBL_PORT_STATUS_PIN p = pin ∧
      t.raw .CBL_MUX_STATE p = if flag .CBL_PORT_CFG_MUX_POLICY then s.raw .CBL_MUX_STATE p else muxOf mode pin
    let outOfMode (t : State) : Prop := t.raw .CBL_PORT_STATUS_MODE p = 0 ∧ t.raw .CBL_PORT_STATUS_PIN p = 0 ∧ t.raw .CBL_MUX_STATE p = 0
    let splitOk (vdo : Nat) : Prop := bit vdo 4 = true → flag .CBL_PORT_CFG_SPLIT_EN = true ∧ flag .CBL_PORT_CFG_DP_EN = true ∧ bit vdo 5 ≠ bit vdo 6
    let avrathOk (vdo : Nat) : Prop := flag .CBL_PORT_CFG_AVRATH_EN = true ∧ s.offerRates p &&& bits vdo 2 0 ≠ 0 ∧ splitOk vdo
    let avrathMode (vdo : Nat) (mine : Bool) : Nat := if bit vdo 4 then (if bit vdo 5 = mine then 5 else 4) else 1
    speaks (.pdDiscoverIdentity p) (out 1 1 0xFF00 []) ∧
    speaks (.pdDiscoverSvids p) (let l := (if flag .CBL_PORT_CFG_AVRATH_EN then [0x3A7D] else []) ++ (if flag .CBL_PORT_CFG_DP_EN then [0xFF01] else [])
      out (if l = [] then 2 else 1) 2 0xFF00 l) ∧
    (flag .CBL_PORT_CFG_AVRATH_EN = true → speaks (.pdDiscoverModes p 0x3A7D) (out 1 3 0x3A7D [s.ownVdo p])) ∧
    (flag .CBL_PORT_CFG_DP_EN = true → speaks (.pdDiscoverModes p 0xFF01) (out 1 3 0xFF01 [0x000C0C07])) ∧
    (∀ x, (x = 0x3A7D → flag .CBL_PORT_CFG_AVRATH_EN = false) → (x = 0xFF01 → flag .CBL_PORT_CFG_DP_EN = false) → speaks (.pdDiscoverModes p x) (out 2 3 x [])) ∧
    (∀ svid vdo,
      let idle : Prop := cur = 0 ∧ s.flag .CBL_IMG_STATUS_ROM = false
      (¬ (idle ∧ ((svid = 0x3A7D ∧ avrathOk vdo) ∨ (svid = 0xFF01 ∧ flag .CBL_PORT_CFG_DP_EN = true))) → ∃ t, exec (.pdEnterMode p svid vdo) s = .next t ∧
        t.out = out 2 4 svid [] :: s.out ∧ s.Logged t 0x50 8 2 none p ∧ s.Keeps t [.out, .btn] noReg) ∧
      (idle → svid = 0x3A7D → avrathOk vdo → ∃ t, exec (.pdEnterMode p svid vdo) s = .next t ∧ inMode t (avrathMode vdo false) 0 ∧ out 1 4 svid [] ∈ t.out ∧
        only t { v with peerVdo := vdo } ∧ muxed t []) ∧
      (idle → svid = 0x3A7D → avrathOk vdo → bit vdo 4 = false → flag .CBL_PORT_CFG_MUX_POLICY = false → s.avrath p = false → s.flag .LNK_CFG_ENABLE p = true →
        s.flag .BLK_CTRL_QUIESCE (0x10 + p) = false → s.raw .TMB_STATUS_REF_LOCK = 1 → ∃ t r, exec (.pdEnterMode p svid vdo) s = .next t ∧ r < 3 ∧
          bit (s.offerRates p &&& bits vdo 2 0) r = true ∧ (∀ q, q < r → bit (s.offerRates p &&& bits vdo 2 0) q = false) ∧
          t.raw .LNK_TRAINS_FULL p = (s.raw .LNK_TRAINS_FULL p + 1) % 2 ^ RegId.LNK_TRAINS_FULL.info.width ∧ t.raw .LNK_STATUS_RATE p = r ∧ (t.link p).phase = .detect) ∧
      (idle → svid = 0xFF01 → flag .CBL_PORT_CFG_DP_EN = true → ∃ t, exec (.pdEnterMode p svid vdo) s = .next t ∧ inMode t 2 1 ∧ out 1 4 svid [] ∈ t.out ∧
        only t v ∧ muxed t [])) ∧
    (∃ t, exec (.pdExitMode p) s = .next t ∧ outOfMode t ∧ only t { v with peerDp := 0 } ∧ muxed t [] ∧
      (cur = 1 → out 1 5 0x3A7D [] ∈ t.out) ∧ (cur = 2 ∨ cur = 3 → s.avrath p = false → out 1 5 0xFF01 [] ∈ t.out)) ∧
    (∀ vdo, (∃ t, exec (.pdAttention p 0x3A7D vdo) s = .next t ∧ only t { v with peerVdo := vdo } ∧ s.Keeps t [.cbl] noReg) ∧
      (∃ t, exec (.pdAttention p 0xFF01 vdo) s = .next t ∧ only t { v with peerDp := vdo } ∧ s.Keeps t [.cbl] noReg) ∧
      ∃ t, exec (.pdDpStatusUpdate p vdo) s = .next t ∧ only t { v with peerDp := vdo } ∧ s.Keeps t [.cbl, .out] noReg ∧
        t.out = out 1 16 0xFF01 [(if cur = 2 then 2 else 1) + 8 + (if s.streamUp p then 128 else 0)] :: s.out) ∧
    (∀ config,
      let pin := if bit config 10 then 1 else if bit config 11 then 2 else 0
      let ok : Prop := (cur = 2 ∨ cur = 3) ∧ pin ≠ 0 ∧ bits config 1 0 ≠ 0
      (ok → ∃ t, exec (.pdDpConfigure p config) s = .next t ∧ inMode t (if bits config 1 0 = 1 then 3 else 2) pin ∧ out 1 17 0xFF01 [] ∈ t.out ∧ only t v ∧ muxed t []) ∧
      (¬ ok → speaks (.pdDpConfigure p config) (out 2 17 0xFF01 []))) ∧
    (let busy : Prop := v.req ≠ none ∨ v.ams ≠ 0
     let dfp : Prop := flag .CBL_PORT_STATUS_CONTRACT = true ∧ flag .CBL_PORT_STATUS_DATA_ROLE = true ∧ cur = 0
     let status := [RegId.CBL_CMD_STATUS_OP, .CBL_CMD_STATUS_RESULT]
     let ends (i : Instr) (op n : Nat) : Prop := ∃ t, exec i s = .next t ∧ t.raw .CBL_CMD_STATUS_OP p = op ∧ t.raw .CBL_CMD_STATUS_RESULT p = n ∧ s.Keeps t [] (ofInst status p)
     let done (t : State) (op n : Nat) : Prop := t.raw .CBL_CMD_STATUS_OP p = op ∧ t.raw .CBL_CMD_STATUS_RESULT p = n
     (∀ (split src ack : Bool) (peer : Nat),
       let i := Instr.enterAvrath p split src peer ack
       let ok : Prop := dfp ∧ flag .CBL_PORT_CFG_AVRATH_EN = true
       let own := (s.ownVdo p &&& 0xFFFFFF8F) + (if split then 16 + (if src then 32 else 64) else 0)
       (busy → ends i 4 2) ∧ (¬ busy → ¬ ok → ends i 4 4) ∧
       (¬ busy → ok → ack = true → avrathOk own → ∃ t, exec i s = .next t ∧ done t 4 1 ∧ inMode t (avrathMode own true) 0 ∧ out 0 4 0x3A7D [own] ∈ t.out ∧
         only t { v with peerVdo := peer } ∧ muxed t status) ∧
       (¬ busy → ok → ack = false ∨ ¬ avrathOk own → ∃ t, exec i s = .next t ∧ done t 4 3 ∧ s.Logged t 0x50 8 2 none p ∧ only t { v with peerVdo := peer } ∧
         s.Keeps t [.cbl, .out, .btn] (ofInst status p))) ∧
     (∀ (pin : Nat) (src ack : Bool),
       let i := Instr.enterDp p pin src ack
       let ok : Prop := dfp ∧ flag .CBL_PORT_CFG_DP_EN = true ∧ (pin = 1 ∨ pin = 2)
       (busy → ends i 5 2) ∧ (¬ busy → ¬ ok → ends i 5 4) ∧
       (¬ busy → ok → ack = true → ∃ t, exec i s = .next t ∧ done t 5 1 ∧ inMode t (if src then 3 else 2) pin ∧ out 0 4 0xFF01 [pin, src.toNat] ∈ t.out ∧ only t v ∧ muxed t status) ∧
       (¬ busy → ok → ack = false → ∃ t, exec i s = .next t ∧ done t 5 3 ∧ s.Logged t 0x50 8 2 none p ∧ s.Keeps t [.out, .btn] (ofInst status p))) ∧
     (busy → ends (.exitMode p) 6 2) ∧ (¬ busy → cur = 0 ∨ flag .CBL_PORT_STATUS_CONTRACT = false → ends (.exitMode p) 6 4) ∧
     (¬ busy → cur ≠ 0 → flag .CBL_PORT_STATUS_CONTRACT = true → ∃ t, exec (.exitMode p) s = .next t ∧ done t 6 1 ∧ outOfMode t ∧ only t { v with peerDp := 0 } ∧ muxed t status)) ∧
    (∀ state, state < 8 →
      let ok : Prop := flag .CBL_PORT_CFG_MUX_POLICY = true ∧ state = muxOf cur (s.raw .CBL_PORT_STATUS_PIN p)
      (ok → ∃ t, exec (.cblMuxWrite p state) s = .next t ∧ t.raw .CBL_MUX_STATE p = state ∧ t.raw .CBL_PORT_STATUS_MODE p = cur ∧ only t v ∧ muxed t []) ∧
      (¬ ok → ∃ t, exec (.cblMuxWrite p state) s = .next t ∧ t.raw .BLK_STATUS_BUSY_REFUSED 0x50 = 1 ∧ s.Keeps t [] (ofInst [.BLK_STATUS_BUSY_REFUSED] 0x50))) ∧
    (∀ mv ma peer, s.isSink p = true → v.nego = some (mv, ma) → v.gsnk = true → s.dev.vin = true → mv < 2 ^ 16 → ma < 2 ^ 16 → flag .CBL_PORT_STATUS_DATA_ROLE = true →
      flag .CBL_PORT_CFG_MUX_POLICY = false → cur = 0 → s.flag .CBL_IMG_STATUS_ROM = false →
      let av : Prop := avrathOk (s.ownVdo p &&& 0xFFFFFF8F)
      let first : Bool := flag .CBL_PORT_CFG_DP_FIRST
      let after (offers mode pin : Nat) : Prop := ∃ t, exec (.pdPsRdy p offers peer) s = .next t ∧ t.raw .CBL_PORT_STATUS_CONTRACT p = 1 ∧ inMode t mode pin ∧
        (t.cblPort p).offers = offers ∧ (t.cblPort p).peerVdo = peer ∧ muxed t [.CBL_PORT_STATUS_CONTRACT, .CBL_CONTRACT_MV, .CBL_CONTRACT_MA]
      (av → flag .CBL_PORT_CFG_DP_EN = true → after 3 (if first then 3 else 1) (if first then 1 else 0)) ∧ (av → after 1 1 0) ∧
      (flag .CBL_PORT_CFG_DP_EN = true → after 2 3 1)) ∧
    (∀ (slot : Nat) (image sig : List Byte),
      let ready : Prop := policyOk image = true ∧ ∀ q, q < 6 → (s.cblPort q).ams = 0 ∧ (s.cblPort q).req = none
      let load := fieldOf image 40 4
      let start := load + 4 * fieldOf image (fieldOf image 8 4 + 8) 4
      let new : Bool := Config.sha384 image != s.cbl.confirmed
      ∃ t, exec (.policyHandover slot image sig) s = .next t ∧ (¬ ready → t = s) ∧
        (ready → if s.signatureOk 2 image sig then
          t.raw .CBL_IMG_STATUS_SLOT = slot % 2 ∧ t.raw .CBL_IMG_STATUS_TRIAL = new.toNat ∧ t.raw .CBL_IMG_STATUS_ROM = 0 ∧
          t.raw .CBL_IMG_STATUS_SVN = fieldOf image 36 4 % 2 ^ 16 ∧ (t.core 8).pc = start ∧ (t.core 8).halted = false ∧ (∀ q, t.cblPort q = s.cblPort q) ∧
          (∀ i, i < image.length → t.mem.read (aonBase + load + i) = image.getD i 0) ∧
          (∀ a, a < aonBase + load ∨ aonBase + load + image.length ≤ a → t.mem.read a = s.mem.read a) ∧
          s.Keeps t [.cbl, .mem, .grn] (anyOf [.CBL_IMG_STATUS_SLOT, .CBL_IMG_STATUS_TRIAL, .CBL_IMG_STATUS_ROM, .CBL_IMG_STATUS_SVN])
        else t = s)) ∧
    (let trial := s.flag .CBL_IMG_STATUS_TRIAL
     let reverts (i : Instr) : Prop := ∃ t, exec i s = .next t ∧ t.raw .CBL_IMG_STATUS_TRIAL = 0 ∧ t.raw .CBL_IMG_STATUS_SLOT = 1 - s.raw .CBL_IMG_STATUS_SLOT ∧
       t.cbl = { s.cbl with trialAt := none, waiting := some (1 - s.raw .CBL_IMG_STATUS_SLOT) } ∧ s.Logged t 0x50 6 2 none 0xFF ∧
       s.Keeps t [.cbl, .btn] (anyOf [.CBL_IMG_STATUS_TRIAL, .CBL_IMG_STATUS_SLOT])
     (trial = false → exec .policyConfirm s = .next s ∧ exec .imgRevert s = .next s ∧ exec .trialTimeout s = .next s) ∧
     (trial = true →
       (∃ t, exec .policyConfirm s = .next t ∧ t.raw .CBL_IMG_STATUS_TRIAL = 0 ∧ t.cbl = { s.cbl with trialAt := none, confirmed := s.cbl.hash } ∧
         t.key.floors.getD 1 0 = max (s.key.floors.getD 1 0) s.cbl.svn ∧ t.key.anchor = s.key.anchor + (if s.key.floors.getD 1 0 < s.cbl.svn then 1 else 0) ∧
         s.Keeps t [.cbl, .key, .btn] (anyOf [.CBL_IMG_STATUS_TRIAL])) ∧
       reverts .imgRevert ∧
       (∀ at_, s.cbl.trialAt = some at_ → (at_ + 5 * sec ≤ s.clock → reverts .trialTimeout) ∧ (s.clock < at_ + 5 * sec → exec .trialTimeout s = .next s))) ∧
     (s.cbl.restartAt = none → exec .cableCoreRestart s = .next s) ∧
     (∀ at_, s.cbl.restartAt = some at_ → trial = false → (∀ q, q < 6 → q ≠ p → (s.cblPort q).req = none) → ∃ t, exec .cableCoreRestart s = .next t ∧
       (t.core 8).pc = s.cbl.start ∧ (t.core 8).halted = false ∧ t.cbl.restartAt = none ∧ s.Logged t 0x50 5 3 none 0xFF ∧
       (v.req = none → t.out = s.out ∧ only t v ∧ s.Keeps t [.cbl, .grn, .btn] noReg) ∧
       (∀ r, v.req = some r → t.out = ⟨.pd, [p, 13], []⟩ :: s.out ∧ only t { v with req := none, ams := 0 } ∧ (r.own = true → t.raw .CBL_CMD_STATUS_RESULT p = 6) ∧
         s.Keeps t [.cbl, .grn, .btn, .out] (ofInst [.CBL_CMD_STATUS_RESULT] p))))

/-- R451, R454 to R462, R467. The operands of a service stand in its command (log entry 48); what the cryptographic functions give is open (log entry 2). -/
def Obligations.EpmasServices : Prop :=
  ∀ (s : State) (a : Nat), s.Inv → s.coreAlive = true → s.boot.epmas = true → s.key.calls = [a] → s.key.invalidating = none → s.canLog → s.inDram a 64 = true →
    s.flag .BRG_VEC_MAP_EN 0 0x58 = false → s.chans = [] →
    let stored (t : State) (code : Nat) (rsp : List Byte) : Prop :=
      t.mem.reads (a + 16) 4 = leBytes 4 (code + (if s.approved then 2 ^ 8 else 0) + 2 ^ 31) ∧ t.mem.reads (a + 20) 4 = leBytes 4 rsp.length ∧
      (s.inDram (a + 64) rsp.length = true → t.mem.reads (a + 64) rsp.length = rsp) ∧
      ∀ x, x < a + 16 ∨ (a + 24 ≤ x ∧ x < a + 64) ∨ a + 64 + rsp.length ≤ x → t.mem.read x = s.mem.read x
    let answered (t : State) (code : Nat) (rsp : List Byte) : Prop := stored t code rsp ∧ t.key.calls = [] ∧
      t.raw .KEY_CALL_STATUS_DONE_COUNT = (s.raw .KEY_CALL_STATUS_DONE_COUNT + 1) % 2 ^ RegId.KEY_CALL_STATUS_DONE_COUNT.info.width ∧
      t.grn.ipend.testBit 0x58 = true ∧ t.grn = { s.grn with ipend := t.grn.ipend } ∧
      (s.reqAuthAt a ≠ 0 → s.drawn < t.drawn) ∧ (s.reqAuthAt a = 0 → t.raw .KEY_NONCE_NONCE = s.raw .KEY_NONCE_NONCE)
    let kept (t : State) (gs : List Grp) (l : List RegId) : Prop :=
      s.Keeps t ([.mem, .key, .grn, .btn, .drawn] ++ gs) (anyOf (.KEY_CALL_STATUS_DONE_COUNT :: .KEY_NONCE_NONCE :: l))
    let k0 : KeyPart := { s.key with calls := [] }
    let serves (i : Instr) (v : Service) (n own : Nat) (eff : State → List Byte → Prop) : Prop := s.reqField a 4 2 = v.code →
      let r := if s.refuses v a n ≠ 0 then s.refuses v a n else own
      ∃ t rsp, exec i s = .next t ∧ answered t r rsp ∧ (r = 0 → eff t rsp) ∧
        (r ≠ 0 → rsp = [] ∧ t.key = k0 ∧ kept t [] [] ∧ (r = 4 ∨ r = 5 → s.Logged t 0x58 6 2 none (keyDetail 0 0 (s.reqField a 12 4))))
    let ledger (t : State) (k : KeyPart) : Prop := t.key = { k with calls := [], anchor := s.key.anchor + 1, lowWritten := t.key.lowWritten }
    let newNode (t : State) (n : Nat) (x : Node) : Prop := t.node n = x ∧ ∀ m, m ≠ n → t.node m = s.node m
    let filled (n node : Nat) (key : List Byte) : KeyPart := { k0 with
      slots := s.key.slots.put n ⟨key, node, (s.node node).depth, (s.node node).epoch, kcvOf key, none, s.key.useCount, false⟩
      useCount := s.key.useCount + 1 }
    let pd := [2, 3]
    let all := [0, 1, 2, 3, 4, 5]
    let simple (t : State) (rsp b : List Byte) : Prop := rsp = b ∧ t.key = k0 ∧ kept t [] []
    let floors := (s.key.floors.map (leBytes 4)).flatten
    serves .status ⟨0x01, all, 0, false, false, true⟩ s.statusBytes.length 0 (fun t rsp =>
      simple t rsp (leBytes 4 s.key.lifecycle ++ leBytes 4 s.key.anchor ++ floors ++ Config.deviceId)) ∧
    (∀ n, serves (.random n) ⟨0x02, [1, 2, 3, 4], 1, false, false, false⟩ n (if n = 0 ∨ 4096 < n then 6 else 0) fun t rsp => rsp.length = n ∧ t.key = k0 ∧ kept t [] []) ∧
    (∀ parent usage, serves (.nodeAlloc parent usage) ⟨0x10, pd, 2, true, true, false⟩ 2
      (if s.mayParent parent = false ∨ 8 ≤ usage then 6 else if (List.range 1016).all fun n => (s.node (n + 8)).inUse then 11 else 0) fun t rsp =>
        ∃ n, 8 ≤ n ∧ n < 1024 ∧ (s.node n).inUse = false ∧ rsp = leBytes 2 n ∧ newNode t n ⟨parent, (s.node parent).depth + 1, true, usage, (s.node n).epoch⟩ ∧
          ledger t { s.key with nodes := t.key.nodes } ∧ kept t [] []) ∧
    (∀ node, serves (.nodeFree node) ⟨0x12, pd, 2, true, true, false⟩ 0
      (if 8 ≤ node ∧ (s.node node).inUse = true ∧ (∀ e ∈ s.key.nodes, e.2.inUse = true → e.1 ≠ node → e.2.parent ≠ node) then 0 else 6) fun t rsp =>
        rsp = [] ∧ newNode t node { s.node node with inUse := false, epoch := ((s.node node).epoch + 1) % 2 ^ 16 } ∧ ledger t { s.key with nodes := t.key.nodes } ∧ kept t [] []) ∧
    (∀ node slot, serves (.keyGenerate node slot) ⟨0x20, pd, 1, false, true, false⟩ 96 (s.placeStatus node slot) fun t rsp =>
      ∃ key, key.length = 32 ∧ t.key = filled slot node key ∧ s.makeBlob node key = some rsp ∧ s.drawn < t.drawn ∧ kept t [] []) ∧
    (∀ blob slot, serves (.keyLoad blob slot) ⟨0x21, pd, 1, false, true, false⟩ 0 (if slot < 8 ∨ 128 ≤ slot then 6 else (s.openBlob blob (s.slot slot).isSome).1) fun t rsp =>
      rsp = [] ∧ t.key = filled slot (fieldOf blob 6 2) (s.openBlob blob false).2 ∧ kept t [] []) ∧
    (∀ slot, serves (.keyDrop slot) ⟨0x22, pd, 1, false, true, false⟩ 0 (if slot < 8 ∨ 256 ≤ slot then 6 else 0) fun t rsp =>
      rsp = [] ∧ t.key = { k0 with slots := s.key.slots.del slot } ∧ t.slot slot = none ∧ kept t [] []) ∧
    (∀ slot peer, serves (.keyExport slot peer) ⟨0x23, pd, 1, false, true, false⟩ 1257
      (if s.slot slot = none then 1 else if s.slotOrphaned slot then 3 else if bit (s.node (s.slotNode slot)).usage 1 = false then 5
        else if Config.verify 0 (peer.drop 20) (peer.drop 20) then 0 else 4) fun t rsp =>
      rsp.length = 1257 ∧ (rsp.drop 1185).take 32 = s.blobHead (s.slotNode slot) ∧ t.key = k0 ∧ kept t [] []) ∧
    (∀ record sender node slot, serves (.keyImport record sender node slot) ⟨0x24, pd, 1, false, true, false⟩ 96
      (if s.placeStatus node slot ≠ 0 then s.placeStatus node slot else if bit (s.node node).usage 0 = false then 5 else if importKey record sender = none then 4 else 0) fun t rsp =>
      ∃ key, importKey record sender = some key ∧ t.key = filled slot node key ∧ s.makeBlob node key = some rsp ∧ kept t [] []) ∧
    (∀ nonce : List Byte, serves (.attest nonce) ⟨0x30, pd, 1, false, true, false⟩ (s.quote nonce ++ sized 3405 (Config.sign (s.quote nonce))).length (if nonce.length = 32 then 0 else 6) fun t rsp =>
      let q := nonce ++ leBytes 8 s.moment ++ leBytes 4 s.key.lifecycle ++ leBytes 4 s.key.anchor ++ floors ++ s.key.kernel ++ s.key.firmware ++ s.cbl.hash ++
        leBytes 4 (s.raw .KEY_ORPHANS_SLOTS)
      simple t rsp (q ++ sized 3405 (Config.sign q))) ∧
    (∀ slot (data : List Byte),
      let st (n : Nat) := if s.slot slot = none then 1 else if s.slotOrphaned slot then 3 else if s.below (s.slotNode slot) 3 = false ∨ 65472 < n then 6 else 0
      serves (.dataSeal slot data) ⟨0x31, pd, 1, false, true, false⟩ (data.length + 28) (st data.length) (fun t rsp => ∃ iv, iv.length = 12 ∧
        (let r := Config.gcmSeal (s.slotKey slot) iv [] data
         rsp = iv ++ sized data.length r.1 ++ sized 16 r.2) ∧ t.key = k0 ∧ s.drawn < t.drawn ∧ kept t [] []) ∧
      serves (.dataOpen slot data) ⟨0x32, pd, 1, false, true, false⟩ (data.length - 28)
        (if st (data.length - 28) ≠ 0 then st (data.length - 28) else if data.length < 28 then 6 else if s.openData slot data = none then 4 else 0)
        fun t rsp => ∃ d, s.openData slot data = some d ∧ simple t rsp (sized (data.length - 28) d)) ∧
    (∀ image, s.reqField a 4 2 = 0x40 →
      let r := s.refuses ⟨0x40, [0, 1, 2, 3, 4], 1, false, false, false⟩ a 0
      ∃ t, exec (.imageAuth image) s = .next t ∧ answered t (if r ≠ 0 then r else s.imageStatus image) [] ∧ t.key = k0 ∧ kept t [] [] ∧
        (r = 0 → s.imageStatus image = 10 → s.Logged t 0x58 7 2 none 0)) ∧
    serves .svnCommit ⟨0x41, pd, 1, true, true, false⟩ 0 (if s.key.firmwareSvn < s.key.floors.getD 0 0 then 10 else 0) (fun t rsp => rsp = [] ∧
      ledger t { s.key with floors := [s.key.firmwareSvn, s.key.floors.getD 1 0, s.key.floors.getD 2 0] } ∧ kept t [] []) ∧
    (∀ port v1 v2 v3 v4, (∀ q, q < 6 → s.flag .CBL_PORT_STATUS_ATTACHED q = false ∧ s.flag .CBL_PORT_STATUS_CONTRACT q = false) →
      serves (.ceilingSet port v1 v2 v3 v4) ⟨0x50, pd, 2, false, false, false⟩ 0 (if 6 ≤ port ∨ 65536 ≤ v1 ∨ 65536 ≤ v2 ∨ 65536 ≤ v3 ∨ 65536 ≤ v4 then 6 else 0) fun t rsp =>
        rsp = [] ∧ t.key = k0 ∧ t.raw .CBL_CEILING_SRC_MV port = v1 ∧ t.raw .CBL_CEILING_SRC_MA port = v2 ∧ t.raw .CBL_CEILING_SNK_MV port = v3 ∧
        t.raw .CBL_CEILING_SNK_MA port = v4 ∧ (∀ r, ∀ q, q < 6 → q ≠ port → r ∈ [RegId.CBL_CEILING_SRC_MV, .CBL_CEILING_SRC_MA, .CBL_CEILING_SNK_MV, .CBL_CEILING_SNK_MA] →
          t.raw r q = s.raw r q) ∧
        kept t [] [.CBL_CEILING_SRC_MV, .CBL_CEILING_SRC_MA, .CBL_CEILING_SNK_MV, .CBL_CEILING_SNK_MA, .CBL_SRC_USE_WATTS]) ∧
    (∀ interval retry kinds, serves (.selftestCfg interval retry kinds) ⟨0x51, pd, 2, false, false, false⟩ 0
      (if kinds &&& 0x388 ≠ 0x388 ∨ RegId.SLT_SCHED_INTERVAL_S.legal interval = false ∨ RegId.SLT_SCHED_RETRY_MS.legal retry = false ∨ RegId.SLT_KINDS_ENABLE.legal kinds = false
        then 6 else 0) fun t rsp => rsp = [] ∧ t.key = k0 ∧ t.raw .SLT_SCHED_INTERVAL_S = interval ∧ t.raw .SLT_SCHED_RETRY_MS = retry ∧ t.raw .SLT_KINDS_ENABLE = kinds ∧
          kept t [] [.SLT_SCHED_INTERVAL_S, .SLT_SCHED_RETRY_MS, .SLT_KINDS_ENABLE]) ∧
    (let pending (i : Instr) (v : Service) (n own : Nat) (ns : List Nat) (ref : Option (List Byte)) : Prop := s.reqField a 4 2 = v.code →
       let r := if s.refuses v a n ≠ 0 then s.refuses v a n else own
       (r ≠ 0 → ∃ t, exec i s = .next t ∧ answered t r [] ∧ t.key = k0 ∧ kept t [] []) ∧
       (r = 0 → ∃ t, exec i s = .next t ∧ t.key = { s.key with invalidating := some ⟨ns, a, ref, none⟩, written := t.key.written } ∧ s.Keeps t [.key] noReg ∧
         ∃ m, t.key.written = some m ∧ ∀ n, (m.get? n).getD blankNode = if n ∈ ns then { s.node n with epoch := ((s.node n).epoch + 1) % 2 ^ 16 } else s.node n)
     (∀ node, pending (.nodeInvalidate node) ⟨0x11, pd, 2, false, true, false⟩ 2
       (if s.mayInvalidate node = false then 6 else if (s.node node).epoch = 65535 ∨ 8192 ≤ s.key.anchor then 8 else 0) [node] none) ∧
     (∀ ref : List Byte, pending (.returnPrepare ref) ⟨0x71, pd, 2, false, true, false⟩ 3504
       (if ref.length ≠ 16 then 6 else if ([2, 3, 5].any fun n => (s.node n).epoch == 65535) ∨ 8192 ≤ s.key.anchor then 8 else 0) [2, 3, 5] (some ref))) ∧
    (∀ record, serves (.ownerSet record) ⟨0x72, [2], 3, false, false, false⟩ 0
      (if s.key.owner.isSome = true then 5 else if s.reqAuthAt a ≠ 0 ∧ s.load (a + s.reqAuthAt a) 2 = 1 ∧
        Config.verify 2 (record ++ s.authMessage a) (s.mem.reads (a + s.reqAuthAt a + 8) 3405) = true then 0 else 4) fun t rsp =>
        rsp = [] ∧ t.key = { k0 with owner := some (Config.sha384 record) } ∧ t.out = ⟨.flash, [0x30000], record⟩ :: s.out ∧ kept t [.out] []) ∧
    serves .testEnter ⟨0x73, [4], 3, false, false, false⟩ 0 (if s.dev.st ≠ .run then 5 else if s.tokenAuth a 4 = true then 0 else 4) (fun t rsp =>
      rsp = [] ∧ t.key = k0 ∧ t.dev.st = .test ∧ kept t [.dev, .out] [.SYS_POWER_PACE_RAISE, .SYS_POWER_TRANSIT]) ∧
    serves .zeroise ⟨0x7F, all, 0, false, false, true⟩ 0 0 (fun t rsp => rsp = [] ∧ (∀ n, t.slot n = none) ∧ t.key = { k0 with slots := [] } ∧ t.raw .KEY_STATUS_ZEROISED = 1 ∧
      s.Logged t 0x58 8 3 none (keyDetail 0 0 (s.reqField a 12 4)) ∧ kept t [] [.KEY_STATUS_ZEROISED, .KEY_ORPHANS_SLOTS]) ∧
    (let granted (v : Service) (own : Nat) : Prop := s.reqField a 4 2 = v.code ∧ s.refuses v a 0 = 0 ∧ own = 0
     let turned (i : Instr) (v : Service) (own : Nat) : Prop := s.reqField a 4 2 = v.code → s.refuses v a 0 = 0 → own ≠ 0 →
       ∃ t, exec i s = .next t ∧ answered t own [] ∧ t.key = k0 ∧ kept t [] []
     turned .safeEnter ⟨0x60, [0, 1, 2, 3, 4], 1, false, false, true⟩ (if s.flowing then 0 else 5) ∧
     (granted ⟨0x60, [0, 1, 2, 3, 4], 1, false, false, true⟩ (if s.flowing then 0 else 5) → ∃ t, exec .safeEnter s = .next t ∧ t.dev.st = .safe ∧ t.dev.safeLatch = true ∧
       t.dev.latchCause = 3 ∧ t.raw .SYS_STATE_SAFE_CAUSE = 3 ∧ t.key.calls = []) ∧
     turned .safeRelease ⟨0x61, pd, 2, false, false, true⟩ (if s.dev.st = .safe then 0 else 5) ∧
     (s.reqField a 4 2 = 0x61 → ∃ t, exec .safeRelease s = .next t ∧ (granted ⟨0x61, pd, 2, false, false, true⟩ (if s.dev.st = .safe then 0 else 5) →
       stored t 0 [] ∧ t.dev.safeLatch = false ∧ t.dev.latchCause = 0 ∧ t.dev.st = .boot ∧ t.raw .SYS_RESET_CAUSE_CAUSE = 4)) ∧
     (∀ target, turned (.lcTransition target) ⟨0x70, [0, 1, 2, 3, 4], 3, false, false, false⟩ (s.lcStatus a target) ∧
       (s.reqField a 4 2 = 0x70 → ∃ t, exec (.lcTransition target) s = .next t ∧ (granted ⟨0x70, [0, 1, 2, 3, 4], 3, false, false, false⟩ (s.lcStatus a target) →
         stored t 0 [] ∧ t.key.lifecycle = max s.key.lifecycle target ∧ t.dev.st = .boot ∧ t.raw .SYS_RESET_CAUSE_CAUSE = 2))))

/-- R434, R446, R449, R451 to R454, R456, R457, R465, R466. -/
def Obligations.VaultEvents : Prop :=
  ∀ (s : State), s.Inv → s.coreAlive = true → s.canLog → s.btn.last = [] → s.flag .BRG_VEC_MAP_EN 0 0x58 = false →
    let more (t : State) (r : RegId) (n : Nat) : Prop := t.raw r = (s.raw r + n) % 2 ^ r.info.width
    (∀ (v : Service) (a rsp : Nat),
      let failed : Prop := s.key.failed = true ∧ v.code ≠ 1 ∧ v.code ≠ 0x7F
      let zero (n : Nat) : Prop := s.reqField a n 8 = 0
      let body := s.reqBodyLen a
      let at_ := s.reqAuthAt a
      let block : Prop := s.authLen a ≠ 0 ∧ 64 ≤ at_ ∧ at_ + s.authLen a ≤ 64 + body ∧ s.load (a + at_ + 2) 6 = 0
      let good : Prop := s.reqField a 0 4 = 0x45505131 ∧ s.reqField a 6 2 = 0 ∧ body ≤ 65536 ∧ zero 32 ∧ zero 40 ∧ zero 48 ∧ zero 56 ∧
        (at_ = 0 ∨ block) ∧ (v.bare = true → body = if at_ = 0 then 0 else s.authLen a)
      (failed → s.refuses v a rsp = 9) ∧ (¬ failed → ¬ good → s.refuses v a rsp = 7) ∧
      (¬ failed → good → s.key.lifecycle ∉ v.states → s.refuses v a rsp = 5) ∧
      (¬ failed → good → s.key.lifecycle ∈ v.states →
        (v.role = 1 → s.key.firmware = [] → s.refuses v a rsp = 5) ∧ (v.keys = true → s.flag .KEY_STATUS_ZEROISED = true → s.refuses v a rsp = 5) ∧
        ((v.role = 1 → s.key.firmware ≠ []) →
          (v.keys = true → s.flag .KEY_STATUS_ZEROISED = false → s.key.lost = true → s.refuses v a rsp = 13) ∧
          (v.keys = false ∨ s.flag .KEY_STATUS_ZEROISED = false ∧ s.key.lost = false →
            (v.role = 2 → s.ownerAuth a = false → s.refuses v a rsp = 4) ∧
            ((v.role = 2 → s.ownerAuth a = true) →
              (v.ledger = true → 8192 < s.key.anchor + 64 → s.refuses v a rsp = 8) ∧
              ((v.ledger = true → s.key.anchor + 64 ≤ 8192) → s.refuses v a rsp = if s.reqField a 24 4 < rsp then 12 else 0)))))) ∧
    (∀ (addr : Nat) (m : Master),
      let a := bits addr 47 6 * 64
      let core : Prop := ∃ n, m = .core n
      (¬ core ∨ s.inDram a 64 = false → ∃ t, exec (.keyCall m addr) s = .next t ∧ s.Logged t 0x58 6 2 none 0 ∧ s.Keeps t [.btn] noReg) ∧
      (core → s.inDram a 64 = true → 8 ≤ s.key.calls.length → ∃ t, exec (.keyCall m addr) s = .next t ∧ t.raw .KEY_CALL_STATUS_FULL = 1 ∧ s.Keeps t [] (anyOf [.KEY_CALL_STATUS_FULL])) ∧
      (core → s.inDram a 64 = true → s.key.calls = [] → s.key.invalidating = none →
        (serviceCodes.contains (s.reqField a 4 2) = true → ∃ t, exec (.keyCall m addr) s = .next t ∧ t.key = { s.key with calls := [a] } ∧ s.Keeps t [.key] noReg) ∧
        (serviceCodes.contains (s.reqField a 4 2) = false → ∃ t, exec (.keyCall m addr) s = .next t ∧ t.key = s.key ∧
          t.mem.reads (a + 16) 8 = leBytes 4 (7 + (if s.approved then 2 ^ 8 else 0) + 2 ^ 31) ++ leBytes 4 0 ∧ more t .KEY_CALL_STATUS_DONE_COUNT 1 ∧
          (∀ x, x < a + 16 ∨ a + 24 ≤ x → t.mem.read x = s.mem.read x) ∧
          s.Keeps t [.mem, .grn, .drawn] (anyOf [.KEY_CALL_STATUS_DONE_COUNT, .KEY_NONCE_NONCE])))) ∧
    (∀ (ns : List Nat) (a : Nat) (ref : Option (List Byte)) (m : NMap Node), s.key.invalidating = some ⟨ns, a, ref, none⟩ → s.key.written = some m →
      let hit (e : Nat × VaultSlot) : Bool := ns.any fun n => s.below e.2.node n
      (∃ e ∈ s.key.slots, hit e = true) → ∃ t, exec .invalidationPoint s = .next t ∧ t.key = { s.key with
        nodes := m, written := none, invalidating := some ⟨ns, a, ref, some s.moment⟩, anchor := s.key.anchor + 1, lowWritten := t.key.lowWritten
        slots := s.key.slots.map fun e => if hit e then (e.1, { e.2 with doomed := true }) else e } ∧ s.Keeps t [.key, .btn] noReg) ∧
    (s.key.invalidating = none → exec .invalidationPoint s = .next s) ∧
    (∀ (slot : Nat),
      (s.slot slot = none → exec (.slotZeroise slot) s = .next s ∧ exec (.keyVaultEcc slot) s = .next s) ∧
      (∀ v : VaultSlot, s.slot slot = some v →
        let gone (t : State) (code sev : Nat) : Prop := t.key = { s.key with slots := s.key.slots.del slot } ∧ t.slot slot = none ∧ more t .KEY_ORPHANS_SLOTS 1 ∧
          s.Logged t 0x58 code sev none (keyDetail v.node slot 0)
        (v.doomed = false → exec (.slotZeroise slot) s = .next s) ∧
        (s.chans = [] →
          (∃ t, exec (.keyVaultEcc slot) s = .next t ∧ gone t 10 3 ∧ s.Keeps t [.key, .btn] (anyOf [.KEY_ORPHANS_SLOTS])) ∧
          (v.doomed = true → (∃ e ∈ s.key.slots, e.1 ≠ slot ∧ e.2.doomed = true) → ∃ t, exec (.slotZeroise slot) s = .next t ∧ gone t 1 3 ∧
            s.Keeps t [.key, .btn] (anyOf [.KEY_ORPHANS_SLOTS])) ∧
          (∀ n a p, v.doomed = true → (∀ e ∈ s.key.slots, e.1 ≠ slot → e.2.doomed = false) → s.key.invalidating = some ⟨[n], a, none, some p⟩ → s.inDram a 66 = true →
            s.key.calls = [a] → ∃ t, exec (.slotZeroise slot) s = .next t ∧ t.slot slot = none ∧ t.key.invalidating = none ∧ t.key.calls = [] ∧
              t.mem.reads (a + 64) 2 = leBytes 2 (s.node n).epoch ∧ t.mem.reads (a + 16) 4 = leBytes 4 ((if s.approved then 2 ^ 8 else 0) + 2 ^ 31) ∧
              s.Logged t 0x58 1 3 none (keyDetail v.node slot 0))) ∧
        (∀ c, s.chans = [c] → s.hostLoc = false → c < 2 ^ 17 → s.inDram (s.area + 64 * c) 64 = true → eSealed (s.entry c) = true → eKeyKind (s.entry c) = 0 →
          eKeyRef (s.entry c) % 256 = slot → v.blob = none → (s.chanState c = csLive ∨ s.chanState c = csHeld) → ∃ t, exec (.keyVaultEcc slot) s = .next t ∧
            t.slot slot = none ∧ t.chanState c = csSealed ∧ (∀ x, x < s.area + 64 * c ∨ s.area + 64 * c + 64 ≤ x → t.mem.read x = s.mem.read x)))) ∧
    (∀ c, s.key.poolWaits = [] → exec (.poolLoad c) s = .next s ∧ exec (.poolBusyTimeout c) s = .next s) ∧
    (∀ c blob since, s.key.poolWaits = [(c, blob, since)] →
      let b := s.mem.reads blob 96
      let r := if s.key.lost = true ∨ s.flag .KEY_STATUS_ZEROISED = true then 5 else (s.openBlob b false).1
      ∃ t, exec (.poolLoad c) s = .next t ∧ t.key.poolWaits = [] ∧
        (r = 0 → ∃ n key, 128 ≤ n ∧ (∀ k, k ≠ n → t.slot k = s.slot k) ∧ key = (s.openBlob b false).2 ∧ (t.slot n).isSome = true ∧ t.slotKey n = key ∧
          t.slotNode n = fieldOf b 6 2 ∧ s.Keeps t [.key] noReg) ∧
        (r ≠ 0 → (∀ k, t.slot k = s.slot k) ∧ s.Logged t 0x58 (if r = 3 then 1 else 12) (if r = 3 then 3 else 2) (some c) (keyDetail (fieldOf b 6 2) 0xFF c) ∧
          (s.chanState c ≠ csLive → s.chanState c ≠ csHeld → s.Keeps t [.key, .btn] noReg))) ∧
    (∀ c blob since, s.key.poolWaits = [(c, blob, since)] →
      (s.clock < since + 100 * us → exec (.poolBusyTimeout c) s = .next s) ∧
      (since + 100 * us ≤ s.clock → s.sal.queues = [] → (∀ p, p < 6 → (s.link p).inbox = []) → ∃ t, exec (.poolBusyTimeout c) s = .next t ∧
        t.key = { s.key with poolWaits := [] } ∧ s.Logged t 0x58 11 2 (some c) (keyDetail 0 0xFF c) ∧ s.Keeps t [.key, .btn] noReg)) ∧
    (exec (.entropySample true) s = .next s) ∧ (s.key.failed = true → ∀ h, exec (.entropySample h) s = .next s) ∧
    (s.key.failed = false → ∃ t, exec (.entropySample false) s = .next t ∧ t.raw .KEY_STATUS_ENTROPY_OK = 0 ∧ t.raw .KEY_STATUS_ERROR = 1 ∧ t.key = { s.key with failed := true } ∧
      s.Logged t 0x58 3 4 none 0 ∧ s.Keeps t [.key, .btn] (anyOf [.KEY_STATUS_ENTROPY_OK, .KEY_STATUS_ERROR]))

/-- R473. -/
def Obligations.GaugeSample : Prop :=
  ∀ (s : State) (g : Nat), g < 256 →
    let a := s.gauge g
    let base := sgn 64 (s.raw .GAU_BASE_BASE 0 g)
    let width : Int := s.raw .GAU_WIDTH_WIDTH 0 g
    let bin (x : GauAcc) (k : Nat) : Nat := (x.bins.get? k).getD 0
    let inBin (v : Int) (k : Nat) : Prop :=
      if s.flag .GAU_CFG_LOG2 0 g then (v - base < 1 ∧ k = 0) ∨ ∃ e : Nat, (2 : Int) ^ e ≤ v - base ∧ v - base < 2 ^ (e + 1) ∧ k = min 31 (1 + e)
      else (v < base ∧ k = 0) ∨ (base ≤ v ∧ ∃ q : Nat, (q : Int) * width ≤ v - base ∧ v - base < (q + 1) * width ∧ k = min 31 q)
    let took (t : State) (v : Int) : Prop :=
      let b := t.gauge g
      b.count = min (a.count + 1) (2 ^ 64 - 1) ∧
      b.sum = (if 2 ^ 63 - 1 < a.sum + v then 2 ^ 63 - 1 else if a.sum + v < -(2 ^ 63) then -(2 ^ 63) else a.sum + v) ∧
      b.low = (if v < a.low then v else a.low) ∧ b.high = (if a.high < v then v else a.high) ∧
      (s.flag .GAU_CFG_LOG2 0 g = true ∨ 0 < width → ∃ k, inBin v k ∧ bin b k = min (bin a k + 1) (2 ^ 32 - 1) ∧ ∀ j, j ≠ k → bin b j = bin a j) ∧
      ∀ h, h ≠ g → t.gauge h = s.gauge h
    (∀ v, took ((sample g v).run s) v) ∧
    (s.coreAlive = true →
      (∀ value v, s.raw .GAU_CFG_PERIOD_US 0 g ≠ 0 → s.moment % (s.raw .GAU_CFG_PERIOD_US 0 g * 4000) = 0 → s.periodic g value = some v →
        ∃ t, exec (.periodicSample g value) s = .next t ∧ took t v) ∧
      ∃ t u, exec (.clear g false) s = .next t ∧ exec (.snapshot g false) t = .next u ∧ u.raw .GAU_COUNT_COUNT 0 g = 0 ∧ u.raw .GAU_SUM_SUM 0 g = 0 ∧
        u.raw .GAU_MIN_VALUE 0 g = 0x7FFFFFFFFFFFFFFF ∧ u.raw .GAU_MAX_VALUE 0 g = 0x8000000000000000 ∧ (∀ k, k < 32 → u.raw .GAU_BIN_COUNT 0 (32 * g + k) = 0) ∧
        s.Keeps t [.gau] noReg)

/-- R474 to R479, R486 to R490, R492, R493. Target numbers of lanes, eyes, PLLs and monitors are the model's (log entry 57); what an open test-engine window reads is open (log entry 66). -/
def Obligations.GaugesAndTests : Prop :=
  ∀ (s : State), s.Inv → s.coreAlive = true → s.btn.discards = 0 → s.btn.staged.length + 8 < stagingCap → s.btn.last = [] → s.flag .BRG_VEC_MAP_EN 0 0x60 = false → s.flag .BRG_VEC_MAP_EN 0 0x61 = false →
    let more (t : State) (r : RegId) (i j n : Nat) : Prop := t.raw r i j = (s.raw r i j + n) % 2 ^ r.info.width
    let quietI (i : Instr) : Prop := exec i s = .next s
    let gau := [RegId.GAU_COUNT_COUNT, .GAU_SUM_SUM, .GAU_MIN_VALUE, .GAU_MAX_VALUE, .GAU_SNAP_MOMENT_MOMENT, .GAU_BIN_COUNT]
    let shown (t : State) (g : Nat) : Prop :=
      let a := s.gauge g
      a.count < 2 ^ 64 → t.raw .GAU_COUNT_COUNT 0 g = a.count ∧ t.raw .GAU_SUM_SUM 0 g = enc 64 a.sum ∧ t.raw .GAU_MIN_VALUE 0 g = enc 64 a.low ∧
        t.raw .GAU_MAX_VALUE 0 g = enc 64 a.high ∧ t.raw .GAU_SNAP_MOMENT_MOMENT 0 g = s.moment ∧
        ∀ k, k < 32 → (a.bins.get? k).getD 0 < 2 ^ 32 → t.raw .GAU_BIN_COUNT 0 (32 * g + k) = (a.bins.get? k).getD 0
    let blank (t : State) (g : Nat) : Prop := t.gauge g = ⟨0, 0, 2 ^ 63 - 1, -(2 ^ 63), []⟩
    (∀ g, g < 256 →
      (∃ t, exec (.snapshot g false) s = .next t ∧ shown t g ∧ s.Keeps t [] fun r _ j => gau.contains r && (j == g || r == .GAU_BIN_COUNT && j / 32 == g)) ∧
      (∃ t, exec (.clear g false) s = .next t ∧ blank t g ∧ (∀ h, h ≠ g → t.gauge h = s.gauge h) ∧ s.Keeps t [.gau] noReg) ∧
      (∃ t, exec (.snapshotClear g false) s = .next t ∧ shown t g ∧ blank t g ∧ (∀ h, h ≠ g → t.gauge h = s.gauge h) ∧
        s.Keeps t [.gau] fun r _ j => gau.contains r && (j == g || r == .GAU_BIN_COUNT && j / 32 == g)) ∧
      (∀ value, s.raw .GAU_CFG_PERIOD_US 0 g = 0 ∨ s.moment % (s.raw .GAU_CFG_PERIOD_US 0 g * us) ≠ 0 ∨ s.periodic g value = none → quietI (.periodicSample g value)) ∧
      (∀ value v, s.raw .GAU_CFG_PERIOD_US 0 g ≠ 0 → s.moment % (s.raw .GAU_CFG_PERIOD_US 0 g * us) = 0 → s.periodic g value = some v →
        let high : Bool := s.flag .GAU_CFG_HIGH_EN 0 g && decide (sgn 64 (s.raw .GAU_HIGH_HIGH 0 g) < v)
        ∃ t, exec (.periodicSample g value) s = .next t ∧ (high = false → s.Keeps t [.gau] noReg) ∧
          (high = true → s.Logged t 0x60 1 2 none (g + enc 64 v * 2 ^ 32) ∧ t.grn.ipend.testBit 0x60 = true ∧ s.Keeps t [.gau, .btn, .grn] noReg))) ∧
    (∀ g, (∃ t, exec (.snapshot g true) s = .next t ∧ (∀ h, h < 256 → shown t h) ∧ s.Keeps t [] (anyOf gau)) ∧
      (∃ t, exec (.clear g true) s = .next t ∧ (∀ h, h < 256 → blank t h) ∧ s.Keeps t [.gau] noReg) ∧
      ∃ t, exec (.snapshotClear g true) s = .next t ∧ (∀ h, h < 256 → shown t h ∧ blank t h) ∧ s.Keeps t [.gau] (anyOf gau)) ∧
    (let on := s.flag .BTN_RING_CFG_ENABLE && s.boot.trained
     let cap := s.btnCap
     let head := s.raw .BTN_HEAD_HEAD
     let at_ := s.raw .BTN_RING_BASE_BASE * 2 ^ 16 + 32 * head
     let regs := [RegId.BTN_HEAD_HEAD, .BTN_TAIL_TAIL, .BTN_LOST_RECORDS, .BTN_STATUS_WRAPPED]
     let moved (t : State) (r : Rec) (rest : List Rec) : Prop := t.btn = { s.btn with staged := rest } ∧ t.raw .BTN_HEAD_HEAD = (head + 1) % cap ∧
       (s.inDram at_ 32 = true → t.mem.reads at_ 32 = leBytes 8 r.moment ++ leBytes 4 (r.seq + r.pos * 2 ^ 20) ++ leBytes 1 r.blk ++ leBytes 1 r.sev ++ leBytes 2 r.code ++
         leBytes 4 (match r.chan with | some c => c % 2 ^ 17 + 2 ^ 31 | none => 0xFFFFFFFF) ++ leBytes 12 r.detail) ∧
       (∀ x, x < at_ ∨ at_ + 32 ≤ x → t.mem.read x = s.mem.read x) ∧ (s.raw .BTN_RING_CFG_IRQ_SEV ≤ r.sev → t.grn.ipend.testBit 0x61 = true) ∧
       t.grn = { s.grn with ipend := t.grn.ipend } ∧ t.bus = { s.bus with full := t.bus.full } ∧
       t.ringFull 0 = (s.ringFull 0 || (head + 1) % cap == t.raw .BTN_TAIL_TAIL) ∧ s.Keeps t [.mem, .btn, .grn, .bus] (anyOf regs)
     (on = false ∨ s.btn.staged = [] → quietI .ringWrite) ∧
     (∀ r rest, on = true → s.btn.staged = r :: rest → head < cap → s.raw .BTN_TAIL_TAIL < cap → cap ≤ 2 ^ 21 →
       (s.btnFill < cap → ∃ t, exec .ringWrite s = .next t ∧ moved t r rest ∧ t.raw .BTN_TAIL_TAIL = s.raw .BTN_TAIL_TAIL ∧ t.raw .BTN_LOST_RECORDS = s.raw .BTN_LOST_RECORDS) ∧
       (cap ≤ s.btnFill → s.raw .BTN_RING_CFG_MODE = 0 → ∃ t, exec .ringWrite s = .next t ∧ moved t r rest ∧
         t.raw .BTN_TAIL_TAIL = (s.raw .BTN_TAIL_TAIL + 1) % cap ∧ more t .BTN_LOST_RECORDS 0 0 1 ∧ t.raw .BTN_STATUS_WRAPPED = 1) ∧
       (cap ≤ s.btnFill → s.raw .BTN_RING_CFG_MODE ≠ 0 → quietI .ringWrite)) ∧
     (s.flag .BTN_RING_CFG_ENABLE = true ∨ s.btn.staged = [] → quietI .btnPop) ∧
     (∀ r rest, s.flag .BTN_RING_CFG_ENABLE = false → s.btn.staged = r :: rest → ∃ t, exec .btnPop s = .next t ∧ t.btn = { s.btn with staged := rest } ∧ s.Keeps t [.btn] noReg)) ∧
    ((s.message 0x61 = none → quietI .log) ∧
     ∀ x, s.message 0x61 = some x →
       let w := msgWord x 0
       let ok : Prop := x.body.length = 24 ∧ bits w 7 0 = 1 ∧ within (bits w 31 0) (ones 8 0 + ones 2 8 + ones 12 16) = true ∧ fieldOf x.body 20 4 = 0
       (ok → ∃ t, exec .log s = .next t ∧ t.grn = { s.grn with msgs := s.grn.msgs.erase x } ∧
         s.Logged t 0x61 (0x8000 + bits w 27 16) (bits w 9 8) x.chan (fieldOf x.body 8 12) ∧ s.Keeps t [.grn, .btn] noReg) ∧
       (¬ ok → ∃ t, exec .log s = .next t ∧ t.grn = { s.grn with msgs := s.grn.msgs.erase x } ∧ more t .BTN_MSG_REFUSED_MESSAGES 0 0 1 ∧
         s.Keeps t [.grn] (anyOf [.BTN_MSG_REFUSED_MESSAGES]))) ∧
    (∀ kind tgt : Nat, kind < 11 → tgt < 128 →
      let x := s.sltSet kind tgt
      let detail (sig : Nat) := kind + tgt * 2 ^ 8 + sig % 2 ^ 64 * 2 ^ 32
      let may : Prop := s.quiet 0x68 = false ∧ s.slt.running = none ∧ tgt < sltTargets kind ∧ s.sltMayRun kind = true ∧ s.sltReady kind tgt = true
      let starts (i : Instr) : Prop := ∃ t, exec i s = .next t ∧ t.slt.running = some ⟨kind, tgt, s.clock, x.forced⟩ ∧ t.raw .SLT_STATUS_RUNNING = 1 ∧
        t.raw .SLT_STATUS_KIND = kind ∧ t.raw .SLT_STATUS_TARGET = tgt ∧ (t.sltSet kind tgt).retryAt = 0 ∧
        (kind = 0 → (t.sltSet kind tgt).out = true) ∧ (kind = 1 → t.grn.closed.contains tgt = true) ∧ (kind = 2 → s.berthState tgt = 0 → t.berthState tgt = 3) ∧
        (kind = 8 → t.key.pipesOut.contains tgt = true) ∧
        s.Keeps t [.slt, .grn, .key, .btn] (anyOf [.SLT_STATUS_RUNNING, .SLT_STATUS_KIND, .SLT_STATUS_TARGET, .SAL_BERTH_STATE_STATE, .SAL_STATUS_PANS_ONLINE])
      (may → x.retryAt = 0 → starts (.sliceStart kind tgt) ∧ quietI (.sliceRetry kind tgt)) ∧
      (may → 0 < x.retryAt → quietI (.sliceStart kind tgt) ∧ (x.retryAt ≤ s.clock → starts (.sliceRetry kind tgt)) ∧ (s.clock < x.retryAt → quietI (.sliceRetry kind tgt))) ∧
      (¬ may → quietI (.sliceStart kind tgt) ∧ quietI (.sliceRetry kind tgt)) ∧
      (∀ forced : Bool, ∀ at_ : Nat, s.slt.running = some ⟨kind, tgt, at_, forced⟩ → tgt < sltTargets kind →
        let idle : Prop := kind = 1 → ∀ h ∈ s.grn.threads, h.2.busy = true → h.1 / 16 ≠ tgt
        let ended (t : State) : Prop := t.slt.running = none ∧ t.raw .SLT_STATUS_RUNNING = 0 ∧ more t .SLT_STATUS_SLICES 0 0 1
        let whole (last : Bool) : Prop := if kind = 9 then last = true else s.slicesPerSet kind ≤ x.done + 1
        (¬ idle → ∀ pass last worse sig, quietI (.sliceEnd pass last worse sig)) ∧
        (idle → ∀ (last worse : Bool) (sig : Nat),
          (whole last → ∃ t, exec (.sliceEnd true last worse sig) s = .next t ∧ ended t ∧ (t.sltSet kind tgt).failed = false ∧ (t.sltSet kind tgt).done = 0 ∧
            (t.sltSet kind tgt).lastAt = s.clock ∧ (t.sltSet kind tgt).out = false ∧ (x.failed = true → ∃ r ∈ t.btn.staged, r.blk = 0x68 ∧ r.code = 4 ∧ r.sev = 1 ∧ r.detail = detail 0) ∧
            (kind = 1 → t.grn.closed.contains tgt = false) ∧ (kind = 8 → t.key.pipesOut.contains tgt = false) ∧
            s.Keeps t [.slt, .grn, .key, .sal, .btn] fun r _ _ => r.owner 0 == 0x68 || r == .SAL_BERTH_STATE_STATE || r == .SAL_STATUS_PANS_ONLINE) ∧
          (¬ whole last → ∃ t, exec (.sliceEnd true last worse sig) s = .next t ∧ ended t ∧ (t.sltSet kind tgt).done = x.done + 1 ∧
            (t.sltSet kind tgt).retryAt = (if x.forced then s.clock + s.raw .SLT_SCHED_RETRY_MS * ms else 0)) ∧
          (let out : Bool := kind != 5 && !(kind == 10 && !worse)
           ∃ t, exec (.sliceEnd false last worse sig) s = .next t ∧ ended t ∧
             (out = true → more t .SLT_FAILS_COUNT 0 0 1 ∧ (t.sltSet kind tgt).failed = true ∧ (t.sltSet kind tgt).retryAt = s.clock + s.raw .SLT_SCHED_RETRY_MS * ms ∧
               (t.btn.staged.drop s.btn.staged.length).head? = some ⟨s.moment, s.btn.logSeq % 2 ^ 20, s.raw .SYS_STATE_CHAIN_POS, 0x68, 3, 1, none, detail sig⟩) ∧
             (out = false → (t.sltSet kind tgt).failed = x.failed ∧ (t.sltSet kind tgt).lastAt = s.clock) ∧
             (kind = 5 → s.Logged t 0x68 5 2 none (detail 0) ∧ s.Keeps t [.slt, .btn] fun r _ _ => r.owner 0 == 0x68) ∧
             (kind = 3 → t.dev.st = .safe ∧ t.raw .SYS_STATE_SAFE_CAUSE = 1) ∧
             (kind = 7 → (tgt < 8 ∨ tgt = 16 ∨ worse = true) → t.dev.st = .safe ∧ t.raw .SYS_STATE_SAFE_CAUSE = 1) ∧
             (kind = 7 → ¬ (tgt < 8 ∨ tgt = 16 ∨ worse = true) → s.Keeps t [.slt, .btn] fun r _ _ => r.owner 0 == 0x68) ∧
             (kind = 4 → tgt < 24 → t.laneState (tgt / 4) (tgt % 4) = lnFail) ∧ (kind = 9 → t.raw .KEY_STATUS_ERROR = 1 ∧ t.key.failed = true) ∧
             (kind = 1 → t.grn.closed = s.grn.closed) ∧ (kind = 8 → t.key.pipesOut = s.key.pipesOut) ∧ (kind = 2 → s.berthState tgt ≠ 2 → t.berthState tgt = 1))) ∧
        (let may : Prop := (kind ≤ 4 ∨ kind = 8 ∨ kind = 9) ∧ forced = false
         (may → kind ≠ 0 → ∃ t, exec .sliceAbort s = .next t ∧ t.slt.running = none ∧ t.raw .SLT_STATUS_RUNNING = 0 ∧ more t .SLT_ABORTS_COUNT 0 0 1 ∧
           (t.sltSet kind tgt).retryAt = s.clock + s.raw .SLT_SCHED_RETRY_MS * ms ∧ s.Logged t 0x68 2 0 none (detail 0) ∧
           s.Keeps t [.slt, .grn, .key, .btn] (anyOf [.SLT_STATUS_RUNNING, .SLT_ABORTS_COUNT, .SAL_BERTH_STATE_STATE])) ∧ 
         (may → kind = 0 → ∃ t, exec .sliceAbort s = .next t ∧ t.slt.running = none ∧ t.raw .SLT_STATUS_RUNNING = 0 ∧ more t .SLT_ABORTS_COUNT 0 0 1 ∧
           (x.failed = false → (t.sltSet 0 tgt).out = false) ∧ (t.sltSet 0 tgt).retryAt = s.clock + s.raw .SLT_SCHED_RETRY_MS * ms ∧
           s.Keeps t [.slt, .btn] (anyOf [.SLT_STATUS_RUNNING, .SLT_ABORTS_COUNT, .SAL_STATUS_PANS_ONLINE])) ∧ (¬ may → quietI .sliceAbort))) ∧
      (let due : Prop := tgt < sltTargets kind ∧ s.flowing = true ∧ bit (s.raw .SLT_KINDS_ENABLE) kind = true ∧ x.forced = false ∧ s.gated kind tgt = false ∧
         x.lastAt + s.raw .SLT_SCHED_INTERVAL_S * sec ≤ s.clock
       (due → ∃ t, exec (.sltForced kind tgt) s = .next t ∧ t.sltSet kind tgt = { x with forced := true } ∧ more t .SLT_FORCED_COUNT 0 0 1 ∧ s.Logged t 0x68 3 2 none (detail 0) ∧
         s.Keeps t [.slt, .btn] (anyOf [.SLT_FORCED_COUNT])) ∧ (¬ due → quietI (.sltForced kind tgt)))) ∧
    (s.slt.running = none → (∀ pass last worse sig, quietI (.sliceEnd pass last worse sig)) ∧ quietI .sliceAbort) ∧
    (let decodes (i : Instr) (code : Nat) : Prop := ∃ t, exec i s = .next t ∧ t.out = ⟨.tap, [code], []⟩ :: s.out ∧ s.Keeps t [.out] noReg
     let ext : Prop := s.dev.st = .safe ∨ s.dev.st = .test ∨ (s.dev.st = .boot ∧ s.raw .SYS_STATE_BOOT_FAIL = 1)
     let closed (i : Instr) : Prop := ∃ t, exec i s = .next t ∧ t.out = ⟨.tap, [0], []⟩ :: s.out ∧ s.Logged t 0x68 8 2 none 0 ∧ s.Keeps t [.out, .btn] noReg
     decodes .bypass 0 ∧ decodes .idcode 1 ∧ decodes .samplePreload 2 ∧ decodes .usercode 3 ∧
     (ext → decodes .extest 4 ∧ decodes .extestPulse 5 ∧ decodes .extestTrain 6) ∧ (¬ ext → closed .extest ∧ closed .extestPulse ∧ closed .extestTrain) ∧
     ∀ off v,
       let window : Prop := s.key.lifecycle = 1 ∨ s.key.lifecycle = 4
       (window → (∃ t, exec (.testEngineAccess true off v) s = .next t ∧ t.out = ⟨.tap, [off, v], []⟩ :: s.out ∧ s.Keeps t [.out] noReg) ∧
         ∃ t x, exec (.testEngineAccess false off v) s = .next t ∧ x < 2 ^ 64 ∧ t.out = ⟨.bus, [x], []⟩ :: s.out ∧ s.Keeps t [.out, .drawn] noReg) ∧
       (¬ window → ∀ w : Bool, ∃ t, exec (.testEngineAccess w off v) s = .next t ∧ t.out = (if w then s.out else ⟨.bus, [0], []⟩ :: s.out) ∧ s.Logged t 0x68 8 2 none 0 ∧
         s.Keeps t [.out, .btn] noReg))

/-- R42, R43, R413, R513 to R518, R520 to R526, R528, R529, R532, R536, R545, R556. Images, their hashes and board records are operands; the part's grade is open (log entry 2). -/
def Obligations.PowerAndBoot : Prop :=
  ∀ (s : State), s.Inv → s.canLog →
    let quietI (i : Instr) : Prop := exec i s = .next s
    let st := s.dev.st
    let rails (n : Nat) : Out := ⟨.rails, [n], []⟩
    let cleared (t : State) : Prop := t.moment = 0 ∧ (∀ x, x < 2 ^ 48 → t.mem.read x = 0) ∧ t.shadows.legalAll = true ∧ t.key.slots = [] ∧ t.key.calls = [] ∧ t.key.lifecycle = s.key.lifecycle ∧
      t.key.anchor = s.key.anchor ∧ t.key.nodes = s.key.nodes ∧ t.key.owner = s.key.owner ∧ t.sal = SalPart.reset ∧ t.lnk = [] ∧ t.gau = []
    let removed (t : State) (standby : Bool) : Prop := t.dev.st = .aon ∧ t.boot.groups = 0 ∧ t.boot.epmas = false ∧ t.boot.trained = false ∧ t.boot.tested = false ∧
      t.boot.standby = standby ∧ t.raw .TMB_STATUS_REF_LOCK = 0 ∧ cleared t ∧ t.cbl = s.cbl ∧ t.dev.safeLatch = s.dev.safeLatch ∧ t.dev.latchCause = s.dev.latchCause ∧
      (t.core 8) = s.core 8 ∧ (∀ r i j, r.info.blk = .cbl → spotFits i j = true → t.raw r i j = s.raw r i j) ∧ t.out = rails 0 :: s.out
    let offAt (t : State) (cause : Nat) : Prop := t.dev.st = .off ∧ t.dev.safeLatch = false ∧ t.boot.groups = 0 ∧ t.boot.gib = s.boot.gib ∧ t.cbl = CblPart.reset ∧ cleared t ∧
      t.raw .SYS_RESET_CAUSE_CAUSE = cause ∧ (∀ x, t.mem.read x ≠ 0 → 2 ^ 51 ≤ x) ∧
      ∀ r i j, r ≠ .SYS_RESET_CAUSE_CAUSE → spotFits i j = true → t.raw r i j = State.reset.raw r i j
    let group1 (t : State) : Prop := t.boot.groups = 1 ∧ t.boot.railAt = s.clock ∧ t.boot.standby = false
    let canRails : Prop := st = .aon ∧ s.boot.groups = 0 ∧ s.boot.faults < 3
    let only (t : State) : Prop := s.Keeps t [.boot, .out] noReg
    (∀ sensor reading : Nat,
      let limit := if Config.grade = 1 then 110 else 130
      let hot : Prop := s.flowing = true ∧ s.boot.epmas = true ∧ sensor < 8 ∧ 16 * limit ≤ reading
      (¬ hot → quietI (.thermalHigh sensor reading)) ∧
      (hot → ∃ t, exec (.thermalHigh sensor reading) s = .next t ∧ t.dev.st = .safe ∧ t.dev.safeLatch = true ∧ t.dev.latchCause = 3 ∧ t.raw .SYS_STATE_SAFE_CAUSE = 3 ∧
        (t.btn.staged.drop s.btn.staged.length).head? = some ⟨s.moment, s.btn.logSeq % 2 ^ 20, s.raw .SYS_STATE_CHAIN_POS, 1, 4, 10, none, sensor + reading % 2 ^ 16 * 2 ^ 32⟩)) ∧
    (∀ temp : Int,
      (st = .off ∨ temp < 140 → quietI (.thermalTrip temp)) ∧
      (st ≠ .off → 140 ≤ temp → ∃ t, exec (.thermalTrip temp) s = .next t ∧ offAt t 1 ∧ t.dev.thermalHold = true) ∧
      (s.dev.thermalHold = false ∨ 100 ≤ temp → quietI (.thermalRelease temp)) ∧
      (s.dev.thermalHold = true → temp < 100 → st = .off → ∃ t, exec (.thermalRelease temp) s = .next t ∧ t.dev.thermalHold = false ∧
        (s.dev.vin = false → s.dev.vbus = 0 → t.dev.st = .off) ∧ (s.dev.vin = true ∨ s.dev.vbus ≠ 0 → t.dev.st = .aon ∧ t.core 8 = Core.reset ∧ t.raw .CBL_IMG_STATUS_ROM = 1))) ∧
    (st = .off → s.dev.thermalHold = false → s.boot.groups = 0 → s.boot.faults = 0 → s.boot.standby = false → ∃ t, exec .powerUp s = .next t ∧ t.dev = { s.dev with st := .aon, vin := true } ∧
      t.core 8 = Core.reset ∧ t.raw .CBL_IMG_STATUS_ROM = 1 ∧ group1 t ∧ t.out = rails 1 :: s.out ∧ s.Keeps t [.dev, .boot, .grn, .out] (anyOf [.CBL_IMG_STATUS_ROM])) ∧
    (st = .off → s.dev.thermalHold = true → ∃ t, exec .powerUp s = .next t ∧ t.dev = { s.dev with vin := true } ∧ s.Keeps t [.dev] noReg) ∧
    (canRails → s.boot.standby = false → ∃ t, exec .powerUp s = .next t ∧ t.dev = { s.dev with vin := true } ∧ group1 t ∧ t.out = rails 1 :: s.out ∧ s.Keeps t [.dev, .boot, .out] noReg) ∧
    (∀ p, p < 6 → st = .off → s.dev.thermalHold = false → s.dev.vbus = 0 → ∃ t, exec (.vbusRise p) s = .next t ∧ t.dev = { s.dev with st := .aon, vbus := 2 ^ p } ∧ t.core 8 = Core.reset ∧
      t.raw .CBL_PORT_STATUS_ATTACHED p = 1 ∧ t.raw .CBL_PORT_STATUS_POWER_ROLE p = 0 ∧ t.raw .CBL_PORT_STATUS_DATA_ROLE p = 0 ∧ (t.cblPort p).gsnk = true ∧ (t.cblPort p).gsrc = false ∧
      (t.cblPort p).discharge = false ∧ s.Keeps t [.dev, .boot, .grn, .cbl, .out] (anyOf [.CBL_IMG_STATUS_ROM, .CBL_PORT_STATUS_ATTACHED, .CBL_PORT_STATUS_POWER_ROLE, .CBL_PORT_STATUS_DATA_ROLE])) ∧
    (let due : Prop := st = .aon ∧ 1 ≤ s.boot.groups ∧ s.boot.groups < 4 ∧ s.boot.railAt + ms / 2 ≤ s.clock
     (¬ due → quietI .railGroupEnable) ∧
     (due → ∃ t, exec .railGroupEnable s = .next t ∧ t.boot = { s.boot with groups := s.boot.groups + 1, railAt := s.clock } ∧ t.out = rails (s.boot.groups + 1) :: s.out ∧ only t)) ∧
    (∀ readback : Bool,
      let bad : Prop := if readback then st = .boot else st = .aon ∧ 1 ≤ s.boot.groups ∧ s.boot.railAt + 5 * ms ≤ s.clock
      (¬ bad → quietI (.railFault readback)) ∧
      (bad → ∃ t, exec (.railFault readback) s = .next t ∧ removed t false ∧ t.raw .SYS_BOOT_INFO_RAIL_FAULT = 1 ∧ t.boot.faults = s.boot.faults + 1 ∧ t.boot.railFaultAt = some s.clock ∧
        t.boot.railGroup = some (if readback then 2 else s.boot.groups))) ∧
    (∀ at_, s.boot.railFaultAt = some at_ → canRails → (s.clock < at_ + sec → quietI .railRetry) ∧
      (at_ + sec ≤ s.clock → ∃ t, exec .railRetry s = .next t ∧ group1 t ∧ t.boot.railFaultAt = none ∧ t.out = rails 1 :: s.out ∧ only t)) ∧
    (s.boot.railFaultAt = none ∨ 3 ≤ s.boot.faults → quietI .railRetry) ∧
    (∀ balls, st = .aon → s.boot.groups = 4 → ∃ t, exec (.pgoodRise balls) s = .next t ∧ t.dev.st = .boot ∧ t.boot.pgoodAt = s.clock ∧ t.boot.refAt = s.clock ∧ t.boot.faults = 0 ∧
      t.boot.railGroup = none ∧ t.raw .TMB_CFG_REF_SRC = bits balls 7 7 ∧ t.raw .BRG_CFG_BOND = (if bits balls 2 0 < 5 then bits balls 2 0 else 0) ∧
      (bits balls 2 0 = 0 → ∀ n, n < 4 → t.raw .PCI_CFG_ROLE n = bits balls (3 + n) (3 + n)) ∧ (∀ g, s.boot.railGroup = some g → s.Logged t 1 7 3 none g) ∧
      (s.boot.railGroup = none → t.btn = s.btn) ∧
      s.Keeps t [.dev, .boot, .btn, .out] (anyOf [.TMB_CFG_REF_SRC, .BRG_CFG_BOND, .PCI_CFG_ROLE, .SYS_POWER_PACE_RAISE, .SYS_POWER_TRANSIT])) ∧
    (∀ balls, st ≠ .aon ∨ s.boot.groups ≠ 4 → quietI (.pgoodRise balls)) ∧
    (s.coreAlive = true → (∃ t, exec .pgoodFall s = .next t ∧ removed t false) ∧ (∃ t, exec (.standbyEnter 0xB7A3) s = .next t ∧ removed t true) ∧
      ∀ key, key ≠ 0xB7A3 → ∃ t, exec (.standbyEnter key) s = .next t ∧ s.Logged t 1 6 2 none 0 ∧ s.Keeps t [.btn] noReg) ∧
    (s.coreAlive = false → quietI .pgoodFall ∧ ∀ key, quietI (.standbyEnter key)) ∧
    (st = .aon → s.boot.groups = 0 → ∃ t, exec .wakeNFall s = .next t ∧ group1 t ∧ t.boot.faults = 0 ∧ t.out = rails 1 :: s.out ∧ only t) ∧
    (st ≠ .aon → ∃ t, exec .wakeNFall s = .next t ∧ t.boot = { s.boot with faults := 0 } ∧ s.Keeps t [.boot] noReg) ∧
    (∃ t, exec .porn s = .next t ∧ offAt t 1 ∧ t.dev.thermalHold = s.dev.thermalHold ∧ t.dev.vin = s.dev.vin ∧ t.dev.vbus = s.dev.vbus) ∧
    (∃ t, exec .powerLoss s = .next t ∧ offAt t 5 ∧ t.dev.thermalHold = false ∧ t.dev.vin = false ∧ t.dev.vbus = 0) ∧
    (s.dev.vin = true → s.dev.vbus ≠ 0 → s.coreAlive = true → ∃ t, exec .vinLoss s = .next t ∧
      (if (List.range 6).any s.enoughPower then t.dev = { s.dev with vin := false } ∧ s.Keeps t [.dev] noReg else removed t false ∧ t.dev.vin = false)) ∧
    (s.dev.vin = false ∨ s.dev.vbus = 0 → quietI .vinLoss) ∧
    (let clocks : RegId → Nat → Nat → Bool := fun r i _ => r.owner i == 0x02 || inRange (r.owner i) 0x10 0x15
     (s.coreAlive = true → s.raw .TMB_STATUS_REF_LOCK = 0 → ∃ t, exec .refLock s = .next t ∧ t.raw .TMB_STATUS_REF_LOCK = 1 ∧
       s.Keeps t [.tmb, .lnk, .out, .btn] clocks) ∧
     (s.coreAlive = false ∨ s.raw .TMB_STATUS_REF_LOCK ≠ 0 → quietI .refLock) ∧
     (s.coreAlive = true → s.raw .TMB_STATUS_REF_LOCK = 1 → ∃ t, exec .refLost s = .next t ∧ t.raw .TMB_STATUS_REF_LOCK = 0 ∧ (∀ p, p < 6 → t.raw .LNK_STATUS_UP p = 0) ∧
       (∀ n, n < 10 → t.raw .ETH_STATUS_LINK n = 0) ∧ (∀ h, h < 4 → t.raw .DSP_LINK_STATUS_UP h = 0) ∧
       (t.btn.staged.drop s.btn.staged.length).head? = some ⟨s.moment, s.btn.logSeq % 2 ^ 20, s.raw .SYS_STATE_CHAIN_POS, 2, 3, 2, none, 0⟩)) ∧
    (let wait := if s.raw .SYS_BOOT_INFO_REF_FAULT = 1 then 100 * ms else 2 * ms
     let late : Prop := st = .boot ∧ s.raw .TMB_STATUS_REF_LOCK = 0 ∧ s.boot.refAt + wait ≤ s.clock
     (late → ∃ t, exec .refFault s = .next t ∧ t.raw .SYS_BOOT_INFO_REF_FAULT = 1 ∧ t.boot = { s.boot with refAt := s.clock } ∧ s.Keeps t [.boot] (anyOf [.SYS_BOOT_INFO_REF_FAULT])) ∧
     (¬ late → quietI .refFault)) ∧
    (let master : Prop := s.coreAlive = true ∧ s.raw .TMB_CFG_REF_SRC = 1 ∧ s.raw .TMB_STATUS_REF_LOCK = 1 ∧ s.tmb.slave = none
     let phase := phaseOf (s.asTime s.moment)
     (¬ master → quietI .ppsPulse) ∧
     (master → ∃ t, exec .ppsPulse s = .next t ∧ t.tmb.acquired = true ∧
       (s.tmb.acquired = false → phase < 0 → t.moment = (s.moment + phase.natAbs) % 2 ^ 64 ∧ t.raw .TMB_STATUS_STEPPED = 1 ∧ s.Logged t 2 1 1 none phase.natAbs) ∧
       (0 ≤ phase → t.moment = s.moment) ∧
       s.Keeps t [.tmb, .moment, .btn] (anyOf [.TMB_STATUS_STEPPED, .TMB_SYNC_OFFSET_OFFSET, .TMB_RATE_RATE_PPB]))) ∧
    (∀ ok slot fallback d8 kernel board ledger,
      let i := Instr.epmasAuthenticated ok slot fallback d8 kernel board ledger
      (st ≠ .boot ∨ s.boot.epmas = true → quietI i) ∧
      (st = .boot → s.boot.epmas = false →
        (ok = false → ∃ t, exec i s = .next t ∧ t.raw .SYS_STATE_BOOT_FAIL = 1 ∧ s.Keeps t [] (anyOf [.SYS_STATE_BOOT_FAIL])) ∧
        (ok = true →
          let done (t : State) : Prop := t.boot.epmas = true ∧ t.key.kernel = kernel ∧ t.raw .SYS_BOOT_INFO_EPMAS_SLOT = slot % 2 ∧ t.raw .SYS_BOOT_INFO_FLASH_8D = d8.toNat ∧
            (fallback = true → t.raw .SYS_BOOT_INFO_FALLBACK = 1) ∧ t.raw .SYS_BOOT_INFO_BOARD_OK = (boardOk board).toNat ∧
            t.raw .GPIO_SAFE_EN_EN = (if boardOk board then fieldOf board 4 6 else 0) ∧ t.raw .GPIO_SAFE_LEVEL_LEVEL = (if boardOk board then fieldOf board 10 6 else 0) ∧
            (boardOk board = false → t.boot.linkAuto = 0 ∧ t.boot.boardRate = 0)
          (s.dev.safeLatch = true → ∃ t, exec i s = .next t ∧ done t ∧ t.dev.st = .safe ∧ (s.dev.latchCause < 4 → t.raw .SYS_STATE_SAFE_CAUSE = s.dev.latchCause)) ∧
          (s.dev.safeLatch = false → ∃ t, exec i s = .next t ∧ done t ∧ t.dev.st = .boot ∧ t.raw .KEY_STATUS_CEILINGS_LOCKED = 1 ∧ t.raw .KEY_STATUS_ENTROPY_OK = 1 ∧
            (s.customer = true → ∀ n, n < 6 → (t.slot n).map (·.node) = some n) ∧
            (s.customer = true → ledger ≠ 1 → ledger ≠ 2 → t.key.nodes = s.key.nodes ∧ t.key.lost = s.key.lost) ∧
            (s.customer = true → ledger = 2 → t.key.lost = true ∧ t.raw .KEY_STATUS_ERROR = 1))))) ∧
    (∀ ok gib,
      let due : Prop := st = .boot ∧ s.boot.epmas = true ∧ s.boot.trained = false ∧ s.raw .TMB_STATUS_REF_LOCK = 1
      (¬ due → quietI (.dramTrained ok gib)) ∧
      (due → ok = false → ∃ t, exec (.dramTrained ok gib) s = .next t ∧ t.raw .SYS_BOOT_INFO_DDR_FAULT = 1 ∧ s.Keeps t [] (anyOf [.SYS_BOOT_INFO_DDR_FAULT])) ∧
      (due → ok = true → 1 ≤ gib → gib ≤ 64 → ∃ t, exec (.dramTrained ok gib) s = .next t ∧ t.raw .DDR_STATUS_TRAINED = 1 ∧ t.raw .DDR_STATUS_GIB = gib ∧
        t.boot = { s.boot with trained := true, gib := gib } ∧ (s.boot.rateWritten = true → t.raw .DDR_STATUS_RATE_ACTIVE = s.raw .DDR_CFG_RATE) ∧
        s.Keeps t [.boot] (anyOf [.DDR_STATUS_TRAINED, .DDR_STATUS_GIB, .DDR_STATUS_RATE_ACTIVE, .DDR_CFG_RATE]))) ∧
    (let due : Prop := st = .boot ∧ s.boot.epmas = true ∧ s.boot.tested = false
     (¬ due → ∀ l, quietI (.startupSelftestDone l)) ∧
     (due → ∃ t, exec (.startupSelftestDone []) s = .next t ∧ t.boot = { s.boot with tested := true } ∧ s.Keeps t [.boot] noReg) ∧
     (due → ∀ n, n < 24 → ∃ t, exec (.startupSelftestDone [(3, n, false)]) s = .next t ∧ t.dev.st = .safe ∧ t.raw .SYS_STATE_SAFE_CAUSE = 1 ∧ t.boot.tested = true ∧
       (t.sltSet 3 n).failed = true) ∧
     (due → ∀ e, e < 96 → ∃ t, exec (.startupSelftestDone [(1, e, false)]) s = .next t ∧ t.dev = s.dev ∧ t.grn.closed.contains e = true ∧ (t.sltSet 1 e).failed = true)) ∧
    (∀ ok slot fallback hash svn start,
      let i := Instr.firmwareAuthenticated ok slot fallback hash svn start
      let due : Prop := st = .boot ∧ s.boot.epmas = true ∧ s.boot.trained = true
      (¬ due → quietI i) ∧
      (due → ok = false ∨ s.key.lifecycle = 5 → ∃ t, exec i s = .next t ∧ t.raw .SYS_STATE_BOOT_FAIL = 1 ∧ s.Keeps t [] (anyOf [.SYS_STATE_BOOT_FAIL])) ∧
      (due → ok = true → s.key.lifecycle ≠ 5 → s.boot.tested = false → quietI i) ∧
      (due → ok = true → s.key.lifecycle ≠ 5 → s.boot.tested = true → ∃ t, exec i s = .next t ∧ t.dev.st = .run ∧ t.key = { s.key with firmware := hash, firmwareSvn := svn } ∧
        t.boot.fwStart = start ∧ (∀ n, n < 4 → t.core n = { Core.reset with pc := start }) ∧ t.raw .SYS_BOOT_INFO_FW_SLOT = slot % 2 ∧
        t.raw .SYS_BOOT_INFO_BOOT_MS = min 65535 ((s.clock - s.boot.pgoodAt) / ms) ∧ (∀ p, p < 6 → bit s.boot.linkAuto p = true → t.raw .LNK_CFG_ENABLE p = 1) ∧
        (fallback = true → s.Logged t 1 8 2 none (1 + (1 - slot % 2) * 2 ^ 8)))) ∧
    (s.coreAlive = true →
      let a := s.raw .XSPI_ADDR_ADDR
      let buf := s.raw .XSPI_BUF_ADDR
      let runs (i : Instr) (op at_ n : Nat) : Prop := ∃ t, exec i s = .next t ∧ t.raw .XSPI_STATUS_BUSY = 1 ∧ t.raw .XSPI_STATUS_RESULT = 0 ∧ t.boot = { s.boot with xspi := some (op, at_, buf, n) } ∧
        t.out = ⟨.flash, [op, at_, n], if op = 2 then s.mem.reads buf n else []⟩ :: s.out ∧ s.Keeps t [.boot, .out] (anyOf [.XSPI_STATUS_BUSY, .XSPI_STATUS_RESULT])
      let refused (i : Instr) : Prop := ∃ t, exec i s = .next t ∧ t.raw .XSPI_STATUS_RESULT = 2 ∧ s.Logged t 0x78 1 2 none a ∧ s.Keeps t [.btn] (anyOf [.XSPI_STATUS_RESULT])
      (∀ m len, len < 2 ^ 24 →
        (s.raw .XSPI_STATUS_BUSY ≠ 0 → quietI (.xspiRead m len) ∧ quietI (.xspiProgram m len) ∧ quietI (.xspiErase m)) ∧
        (s.raw .XSPI_STATUS_BUSY = 0 → runs (.xspiRead m len) 1 a len ∧
          (flashAllowed m a len = true → runs (.xspiProgram m len) 2 a len) ∧ (flashAllowed m a len = false → refused (.xspiProgram m len)) ∧
          (flashAllowed m (a / 65536 * 65536) 65536 = true → runs (.xspiErase m) 3 (a / 65536 * 65536) 65536) ∧
          (flashAllowed m (a / 65536 * 65536) 65536 = false → refused (.xspiErase m)))) ∧
      (s.boot.xspi = none → ∀ d e, quietI (.xspiComplete d e)) ∧
      (∀ op at_ b n d (e : Bool), s.boot.xspi = some (op, at_, b, n) → ∃ t, exec (.xspiComplete d e) s = .next t ∧ t.raw .XSPI_STATUS_BUSY = 0 ∧
        t.raw .XSPI_STATUS_RESULT = (if e then 3 else 1) ∧ t.boot = { s.boot with xspi := none } ∧
        (op = 1 → e = false → s.inDram b (d.take n).length = true → t.mem.reads b (d.take n).length = d.take n ∧
          ∀ x, x < b ∨ b + (d.take n).length ≤ x → t.mem.read x = s.mem.read x) ∧
        (op ≠ 1 ∨ e = true → s.Keeps t [.boot] (anyOf [.XSPI_STATUS_BUSY, .XSPI_STATUS_RESULT])) ∧ s.Keeps t [.boot, .mem] (anyOf [.XSPI_STATUS_BUSY, .XSPI_STATUS_RESULT]))) ∧
    (let cores := [(0x1FFF, true), (0x2000, false), (0x10000, false), (0x3FFFF, false), (0x40000, true), (0x4FFFF, true), (0x7FFFF, false), (0x80000, true), (0xFFFFF, true), (0x100000, false),
       (0x2FFFFF, false), (0x400000, true), (0x3BFFFFF, true), (0x3C00000, true)]
     ∀ x ∈ cores, ∀ n, flashAllowed (.core n) x.1 1 = x.2)
end

