-- ==== Sys2Proof/Laws/Maps.lean ====
section
/-! SUPPORT. Laws of the sparse maps, of memory and of the register files. -/
namespace Sys2Proof.Machine

theorem NMap.get?_put_self {α : Type} (m : NMap α) (x : Nat) (a : α) : (m.put x a).get? x = some a := by
  induction m with
  | nil => simp [NMap.put, NMap.get?]
  | cons e t ih =>
    obtain ⟨k, v⟩ := e
    simp only [NMap.put]
    split
    · simp [NMap.get?]
    · split
      · simp [NMap.get?]
      · rename_i h
        simp [NMap.get?, Ne.symm h, ih]

theorem NMap.get?_put_ne {α : Type} (m : NMap α) {x y : Nat} (a : α) (h : y ≠ x) : (m.put x a).get? y = m.get? y := by
  induction m with
  | nil => simp [NMap.put, NMap.get?, Ne.symm h]
  | cons e t ih =>
    obtain ⟨k, v⟩ := e
    simp only [NMap.put]
    split
    · simp [NMap.get?, Ne.symm h]
    · split
      · rename_i hk
        subst hk
        simp [NMap.get?, Ne.symm h]
      · simp [NMap.get?, ih]

theorem NMap.get?_del_ne {α : Type} (m : NMap α) {x y : Nat} (h : y ≠ x) : (m.del x).get? y = m.get? y := by
  induction m with
  | nil => rfl
  | cons e t ih =>
    obtain ⟨k, v⟩ := e
    simp only [NMap.del]
    split
    · rename_i hk
      subst hk
      simp [NMap.get?, Ne.symm h, ih]
    · simp [NMap.get?, ih]

/-- Every key of the map is greater than `x`. -/
def NMap.above {α : Type} (m : NMap α) (x : Nat) : Prop := ∀ e ∈ m, x < e.1

theorem NMap.rising_cons {α : Type} (k : Nat) (v : α) (t : NMap α) :
    NMap.rising ((k, v) :: t) = true ↔ NMap.above t k ∧ NMap.rising t = true := by
  induction t generalizing k v with
  | nil => simp [NMap.rising, NMap.above]
  | cons e u ih =>
    obtain ⟨k', v'⟩ := e
    simp only [NMap.rising, Bool.and_eq_true, decide_eq_true_eq]
    constructor
    · rintro ⟨h, hr⟩
      refine ⟨?_, hr⟩
      intro e he
      rcases List.mem_cons.1 he with rfl | he
      · exact h
      · exact Nat.lt_trans h (((ih k' v').1 hr).1 e he)
    · rintro ⟨h, hr⟩
      exact ⟨h _ (List.mem_cons_self ..), hr⟩

theorem NMap.get?_above {α : Type} (m : NMap α) {x y : Nat} (h : m.above x) (hy : y ≤ x) : m.get? y = none := by
  induction m with
  | nil => rfl
  | cons e t ih =>
    obtain ⟨k, v⟩ := e
    have hk : x < k := h _ (List.mem_cons_self ..)
    have ht : NMap.above t x := fun e he => h e (List.mem_cons_of_mem _ he)
    have : k ≠ y := by omega
    simp [NMap.get?, this, ih ht]

theorem NMap.get?_del_self {α : Type} (m : NMap α) (x : Nat) : (m.del x).get? x = none := by
  induction m with
  | nil => rfl
  | cons e t ih =>
    obtain ⟨k, v⟩ := e
    simp only [NMap.del]
    split
    · exact ih
    · rename_i hk
      simp [NMap.get?, hk, ih]

theorem NMap.mem_put {α : Type} (m : NMap α) (x : Nat) (a : α) : ∀ e ∈ m.put x a, e = (x, a) ∨ e ∈ m := by
  induction m with
  | nil => simp [NMap.put]
  | cons e t ih =>
    obtain ⟨k, v⟩ := e
    simp only [NMap.put]
    split
    · intro e he
      rcases List.mem_cons.1 he with h | h
      · exact .inl h
      · exact .inr h
    · split
      · intro e he
        rcases List.mem_cons.1 he with h | h
        · exact .inl h
        · exact .inr (List.mem_cons_of_mem _ h)
      · intro e he
        rcases List.mem_cons.1 he with h | h
        · exact .inr (h ▸ List.mem_cons_self ..)
        · rcases ih e h with h | h
          · exact .inl h
          · exact .inr (List.mem_cons_of_mem _ h)

theorem NMap.mem_del {α : Type} (m : NMap α) (x : Nat) : ∀ e ∈ m.del x, e ∈ m := by
  induction m with
  | nil => simp [NMap.del]
  | cons e t ih =>
    obtain ⟨k, v⟩ := e
    simp only [NMap.del]
    split
    · intro e he
      exact List.mem_cons_of_mem _ (ih e he)
    · intro e he
      rcases List.mem_cons.1 he with h | h
      · exact h ▸ List.mem_cons_self ..
      · exact List.mem_cons_of_mem _ (ih e h)

theorem NMap.rising_put {α : Type} (m : NMap α) (x : Nat) (a : α) (h : m.rising = true) : (m.put x a).rising = true := by
  induction m with
  | nil => rfl
  | cons e t ih =>
    obtain ⟨k, v⟩ := e
    have hr := (NMap.rising_cons k v t).1 h
    simp only [NMap.put]
    split
    · rename_i hx
      refine (NMap.rising_cons ..).2 ⟨?_, h⟩
      intro e he
      rcases List.mem_cons.1 he with rfl | he
      · exact hx
      · exact Nat.lt_trans hx (hr.1 e he)
    · split
      · rename_i hx
        subst hx
        exact (NMap.rising_cons ..).2 hr
      · refine (NMap.rising_cons ..).2 ⟨?_, ih hr.2⟩
        intro e he
        rcases NMap.mem_put t x a e he with rfl | he
        · show k < x
          omega
        · exact hr.1 e he

theorem NMap.rising_del {α : Type} (m : NMap α) (x : Nat) (h : m.rising = true) : (m.del x).rising = true := by
  induction m with
  | nil => rfl
  | cons e t ih =>
    obtain ⟨k, v⟩ := e
    have hr := (NMap.rising_cons k v t).1 h
    simp only [NMap.del]
    split
    · exact ih hr.2
    · exact (NMap.rising_cons ..).2 ⟨fun e he => hr.1 e (NMap.mem_del t x e he), ih hr.2⟩

theorem NMap.rising_filter {α : Type} (m : NMap α) (p : Nat × α → Bool) (h : m.rising = true) : NMap.rising (m.filter p) = true := by
  induction m with
  | nil => rfl
  | cons e t ih =>
    obtain ⟨k, v⟩ := e
    have hr := (NMap.rising_cons k v t).1 h
    rw [List.filter_cons]
    split
    · exact (NMap.rising_cons ..).2 ⟨fun e he => hr.1 e (List.mem_filter.1 he).1, ih hr.2⟩
    · exact ih hr.2

/-! ### Memory -/

theorem Memory.wf_iff (m : Memory) : m.wf = true ↔ NMap.rising m = true ∧ ∀ c ∈ m, c.2 ≠ Memory.blank := by
  simp [Memory.wf]

theorem Memory.wf_write (m : Memory) (a : Nat) (b : Byte) (h : m.wf = true) : (m.write a b).wf = true := by
  obtain ⟨hr, hb⟩ := (Memory.wf_iff m).1 h
  unfold Memory.write
  split
  · exact (Memory.wf_iff _).2 ⟨NMap.rising_del _ _ hr, fun c hc => hb c (NMap.mem_del _ _ c hc)⟩
  · rename_i hne
    refine (Memory.wf_iff _).2 ⟨NMap.rising_put _ _ _ hr, fun c hc => ?_⟩
    rcases NMap.mem_put m a b c hc with rfl | hc
    · exact hne
    · exact hb c hc

theorem Memory.wf_writes (m : Memory) (a : Nat) (bs : List Byte) (h : m.wf = true) : (m.writes a bs).wf = true := by
  induction bs generalizing m a with
  | nil => exact h
  | cons b t ih => exact ih _ _ (Memory.wf_write m a b h)

theorem Memory.wf_clear (m : Memory) (lo hi : Nat) (h : m.wf = true) : (m.clear lo hi).wf = true := by
  obtain ⟨hr, hb⟩ := (Memory.wf_iff m).1 h
  exact (Memory.wf_iff _).2 ⟨NMap.rising_filter _ _ hr, fun c hc => hb c (List.mem_filter.1 hc).1⟩

theorem Memory.read_write_ne (m : Memory) {a x : Nat} (b : Byte) (h : x ≠ a) : (m.write a b).read x = m.read x := by
  unfold Memory.write Memory.read
  split
  · rw [NMap.get?_del_ne m h]
  · rw [NMap.get?_put_ne m b h]

theorem Memory.read_write_self (m : Memory) (a : Nat) (b : Byte) : (m.write a b).read a = b := by
  unfold Memory.write Memory.read
  split
  · rename_i hb
    rw [NMap.get?_del_self, hb]
    rfl
  · rw [NMap.get?_put_self]
    rfl

/-- Bytes outside the written range read as before. -/
theorem Memory.read_writes_out (m : Memory) (a : Nat) (bs : List Byte) (x : Nat) (h : x < a ∨ a + bs.length ≤ x) :
    (m.writes a bs).read x = m.read x := by
  induction bs generalizing m a with
  | nil => rfl
  | cons b t ih =>
    simp only [List.length_cons] at h
    show ((m.write a b).writes (a + 1) t).read x = _
    rw [ih _ _ (by omega), Memory.read_write_ne m b (by omega)]

/-- A byte of the written range reads as it was written. -/
theorem Memory.read_writes_in (m : Memory) (a : Nat) (bs : List Byte) (i : Nat) (hi : i < bs.length) :
    (m.writes a bs).read (a + i) = bs.getD i 0 := by
  induction bs generalizing m a i with
  | nil => simp at hi
  | cons b t ih =>
    show ((m.write a b).writes (a + 1) t).read (a + i) = _
    cases i with
    | zero =>
      rw [Memory.read_writes_out _ _ _ _ (by omega)]
      simpa using Memory.read_write_self m a b
    | succ j =>
      have := ih (m.write a b) (a + 1) j (by simpa using hi)
      simpa [Nat.add_assoc, Nat.add_comm 1 j] using this

/-! ### Register files -/

theorem RegFile.wf_iff (f : RegFile) :
    f.wf = true ↔ NMap.rising f = true ∧ ∀ e ∈ f, e.2.reg.legal e.2.val = true ∧ e.2.val ≠ e.2.reg.info.reset := by
  simp [RegFile.wf]

/-- An entry is of a field with a shadow, holds a legal value and stands at its field's position. -/
def RegFile.entryOk (e : Nat × RegVal) : Prop := e.2.reg.isShadowed = true ∧ e.2.reg.legal e.2.val = true ∧ e.1 = regKey e.2.reg (keyInst e.1) (keyIdx e.1)

theorem RegFile.legalAll_iff (f : RegFile) : f.legalAll = true ↔ NMap.rising f = true ∧ ∀ e ∈ f, RegFile.entryOk e := by
  simp [RegFile.legalAll, RegFile.entryOk, and_assoc]

theorem keyInst_regKey (r : RegId) {i j : Nat} (hp : spotFits i j = true) : keyInst (regKey r i j) = i := by
  simp only [spotFits, Bool.and_eq_true, decide_eq_true_eq] at hp
  simp only [keyInst, regKey]
  omega

theorem keyIdx_regKey (r : RegId) {i j : Nat} (hp : spotFits i j = true) : keyIdx (regKey r i j) = j := by
  simp only [spotFits, Bool.and_eq_true, decide_eq_true_eq] at hp
  simp only [keyIdx, regKey]
  omega

theorem RegFile.wf_write (f : RegFile) (r : RegId) (i j v : Nat) (h : f.wf = true) : (f.write r i j v).wf = true := by
  obtain ⟨hr, hl⟩ := (RegFile.wf_iff f).1 h
  unfold RegFile.write
  split
  · split
    · exact (RegFile.wf_iff _).2 ⟨NMap.rising_del _ _ hr, fun e he => hl e (NMap.mem_del _ _ e he)⟩
    · rename_i hv hne
      refine (RegFile.wf_iff _).2 ⟨NMap.rising_put _ _ _ hr, fun e he => ?_⟩
      rcases NMap.mem_put f _ _ e he with rfl | he
      · exact ⟨(Bool.and_eq_true_iff.1 hv).1, hne⟩
      · exact hl e he
  · exact h

theorem RegFile.wf_chosen (f : RegFile) (p : RegId → Nat → Nat → Bool) (h : f.wf = true) : (f.chosen p).wf = true := by
  obtain ⟨hr, hl⟩ := (RegFile.wf_iff f).1 h
  exact (RegFile.wf_iff _).2 ⟨NMap.rising_filter _ _ hr, fun e he => hl e (List.mem_filter.1 he).1⟩

theorem RegFile.legalAll_filter (f : RegFile) (p : Nat × RegVal → Bool) (h : f.legalAll = true) : RegFile.legalAll (f.filter p) = true := by
  obtain ⟨hr, hl⟩ := (RegFile.legalAll_iff f).1 h
  exact (RegFile.legalAll_iff _).2 ⟨NMap.rising_filter _ _ hr, fun e he => hl e (List.mem_filter.1 he).1⟩

theorem RegFile.legalAll_put (f : RegFile) (k : Nat) (e : RegVal) (h : f.legalAll = true) (he : RegFile.entryOk (k, e)) :
    RegFile.legalAll (NMap.put f k e) = true := by
  obtain ⟨hr, hl⟩ := (RegFile.legalAll_iff f).1 h
  refine (RegFile.legalAll_iff _).2 ⟨NMap.rising_put _ _ _ hr, fun x hx => ?_⟩
  rcases NMap.mem_put f k e x hx with rfl | hx
  · exact he
  · exact hl x hx

theorem RegFile.legalAll_merge (g : List (Nat × RegVal)) (f : RegFile) (h : f.legalAll = true)
    (hg : ∀ e ∈ g, RegFile.entryOk e) : RegFile.legalAll (g.foldl (fun m e => NMap.put m e.1 e.2) f) = true := by
  induction g generalizing f with
  | nil => exact h
  | cons e t ih =>
    exact ih _ (RegFile.legalAll_put f e.1 e.2 h (hg e (List.mem_cons_self ..))) fun x hx => hg x (List.mem_cons_of_mem _ hx)

/-- What a field reads as after a legal write. -/
theorem RegFile.read_write_self (f : RegFile) (r : RegId) (i j v : Nat) (hv : r.legal v = true) (hp : spotFits i j = true) :
    (f.write r i j v).read r i j = v := by
  by_cases h : v = r.info.reset
  · simp [RegFile.write, RegFile.read, RegFile.look, hp, hv, ← h, NMap.get?_del_self f]
  · simp [RegFile.write, RegFile.read, RegFile.look, hp, hv, h, NMap.get?_put_self]

/-- A write the field cannot hold changes nothing (R10). -/
theorem RegFile.write_illegal (f : RegFile) (r : RegId) (i j v : Nat) (hv : r.legal v = false) : f.write r i j v = f := by
  simp [RegFile.write, hv]

theorem RegId.ctorIdx_inj {r r' : RegId} (h : r.ctorIdx = r'.ctorIdx) : r = r' := by
  have e : ∀ x : RegId, RegId.ofNat x.ctorIdx = x := fun x => by cases x <;> rfl
  rw [← e r, h, e r']

/-- Positions of different fields, instances or indices differ. -/
theorem regKey_inj {r r' : RegId} {i j i' j' : Nat} (hp : spotFits i j = true) (hp' : spotFits i' j' = true)
    (h : regKey r i j = regKey r' i' j') : r = r' ∧ i = i' ∧ j = j' := by
  simp only [spotFits, Bool.and_eq_true, decide_eq_true_eq] at hp hp'
  simp only [regKey] at h
  have h1 : r.ctorIdx = r'.ctorIdx := by omega
  refine ⟨RegId.ctorIdx_inj h1, by omega, by omega⟩

/-- A write leaves every other field, instance and index as it was. -/
theorem RegFile.read_write_ne (f : RegFile) (r r' : RegId) (i j i' j' v : Nat) (hp' : spotFits i' j' = true)
    (h : ¬ (r' = r ∧ i' = i ∧ j' = j)) : (f.write r i j v).read r' i' j' = f.read r' i' j' := by
  by_cases hv : (r.legal v && spotFits i j) = true
  · have hk : regKey r' i' j' ≠ regKey r i j := fun e => h (regKey_inj hp' (Bool.and_eq_true_iff.1 hv).2 e)
    by_cases hr : v = r.info.reset
    · subst hr
      simp only [RegFile.write, RegFile.read, RegFile.look, hv, if_true, NMap.get?_del_ne f hk]
    · simp only [RegFile.write, RegFile.read, RegFile.look, hv, hr, if_true, if_false, NMap.get?_put_ne f _ hk]
  · rw [Bool.not_eq_true] at hv
    simp [RegFile.write, hv]

end Sys2Proof.Machine
end

