-- ==== Sys2Proof/Laws/State.lean ====
section
/-! SUPPORT. One lemma per effect: what it changes and every field it leaves alone; the rules by which programs of effects run. -/
namespace Sys2Proof.Machine

@[simp] theorem State.apply_reg (s : State) (r : RegId) (i j v : Nat) :
    (s.apply (.reg r i j v)).pending = s.pending ∧ (s.apply (.reg r i j v)).clock = s.clock ∧
    (s.apply (.reg r i j v)).moment = s.moment ∧ (s.apply (.reg r i j v)).regs = s.regs.write r i j v ∧
    (s.apply (.reg r i j v)).shadows = s.shadows ∧ (s.apply (.reg r i j v)).taken = s.taken ∧
    (s.apply (.reg r i j v)).mem = s.mem ∧ (s.apply (.reg r i j v)).bus = s.bus ∧ (s.apply (.reg r i j v)).btn = s.btn ∧
    (s.apply (.reg r i j v)).dev = s.dev ∧ (s.apply (.reg r i j v)).boot = s.boot ∧
    (s.apply (.reg r i j v)).tmb = s.tmb ∧ (s.apply (.reg r i j v)).chn = s.chn ∧ (s.apply (.reg r i j v)).grn = s.grn ∧
    (s.apply (.reg r i j v)).sal = s.sal ∧ (s.apply (.reg r i j v)).rak = s.rak ∧ (s.apply (.reg r i j v)).lnk = s.lnk ∧
    (s.apply (.reg r i j v)).tun = s.tun ∧ (s.apply (.reg r i j v)).eth = s.eth ∧ (s.apply (.reg r i j v)).brg = s.brg ∧
    (s.apply (.reg r i j v)).sig = s.sig ∧ (s.apply (.reg r i j v)).can = s.can ∧ (s.apply (.reg r i j v)).dsp = s.dsp ∧
    (s.apply (.reg r i j v)).cbl = s.cbl ∧ (s.apply (.reg r i j v)).key = s.key ∧ (s.apply (.reg r i j v)).gau = s.gau ∧
    (s.apply (.reg r i j v)).slt = s.slt ∧ (s.apply (.reg r i j v)).drawn = s.drawn ∧ (s.apply (.reg r i j v)).out = s.out := by
  refine ⟨?_, ?_, ?_, ?_, ?_, ?_, ?_, ?_, ?_, ?_, ?_, ?_, ?_, ?_, ?_, ?_, ?_, ?_, ?_, ?_, ?_, ?_, ?_, ?_, ?_, ?_, ?_, ?_, ?_⟩ <;> rfl

@[simp] theorem State.apply_keepRegs (s : State) (p : RegId → Nat → Nat → Bool) :
    (s.apply (.keepRegs p)).pending = s.pending ∧ (s.apply (.keepRegs p)).clock = s.clock ∧
    (s.apply (.keepRegs p)).moment = s.moment ∧ (s.apply (.keepRegs p)).regs = s.regs.chosen p ∧
    (s.apply (.keepRegs p)).shadows = s.shadows ∧ (s.apply (.keepRegs p)).taken = s.taken ∧
    (s.apply (.keepRegs p)).mem = s.mem ∧ (s.apply (.keepRegs p)).bus = s.bus ∧ (s.apply (.keepRegs p)).btn = s.btn ∧
    (s.apply (.keepRegs p)).dev = s.dev ∧ (s.apply (.keepRegs p)).boot = s.boot ∧ (s.apply (.keepRegs p)).tmb = s.tmb ∧
    (s.apply (.keepRegs p)).chn = s.chn ∧ (s.apply (.keepRegs p)).grn = s.grn ∧ (s.apply (.keepRegs p)).sal = s.sal ∧
    (s.apply (.keepRegs p)).rak = s.rak ∧ (s.apply (.keepRegs p)).lnk = s.lnk ∧ (s.apply (.keepRegs p)).tun = s.tun ∧
    (s.apply (.keepRegs p)).eth = s.eth ∧ (s.apply (.keepRegs p)).brg = s.brg ∧ (s.apply (.keepRegs p)).sig = s.sig ∧
    (s.apply (.keepRegs p)).can = s.can ∧ (s.apply (.keepRegs p)).dsp = s.dsp ∧ (s.apply (.keepRegs p)).cbl = s.cbl ∧
    (s.apply (.keepRegs p)).key = s.key ∧ (s.apply (.keepRegs p)).gau = s.gau ∧ (s.apply (.keepRegs p)).slt = s.slt ∧
    (s.apply (.keepRegs p)).drawn = s.drawn ∧ (s.apply (.keepRegs p)).out = s.out := by
  refine ⟨?_, ?_, ?_, ?_, ?_, ?_, ?_, ?_, ?_, ?_, ?_, ?_, ?_, ?_, ?_, ?_, ?_, ?_, ?_, ?_, ?_, ?_, ?_, ?_, ?_, ?_, ?_, ?_, ?_⟩ <;> rfl

@[simp] theorem State.apply_keepShadows (s : State) (p : RegId → Nat → Nat → Bool) :
    (s.apply (.keepShadows p)).pending = s.pending ∧ (s.apply (.keepShadows p)).clock = s.clock ∧
    (s.apply (.keepShadows p)).moment = s.moment ∧ (s.apply (.keepShadows p)).regs = s.regs ∧
    (s.apply (.keepShadows p)).shadows = s.shadows.chosen p ∧ (s.apply (.keepShadows p)).taken = s.taken ∧
    (s.apply (.keepShadows p)).mem = s.mem ∧ (s.apply (.keepShadows p)).bus = s.bus ∧
    (s.apply (.keepShadows p)).btn = s.btn ∧ (s.apply (.keepShadows p)).dev = s.dev ∧
    (s.apply (.keepShadows p)).boot = s.boot ∧ (s.apply (.keepShadows p)).tmb = s.tmb ∧
    (s.apply (.keepShadows p)).chn = s.chn ∧ (s.apply (.keepShadows p)).grn = s.grn ∧
    (s.apply (.keepShadows p)).sal = s.sal ∧ (s.apply (.keepShadows p)).rak = s.rak ∧
    (s.apply (.keepShadows p)).lnk = s.lnk ∧ (s.apply (.keepShadows p)).tun = s.tun ∧
    (s.apply (.keepShadows p)).eth = s.eth ∧ (s.apply (.keepShadows p)).brg = s.brg ∧
    (s.apply (.keepShadows p)).sig = s.sig ∧ (s.apply (.keepShadows p)).can = s.can ∧
    (s.apply (.keepShadows p)).dsp = s.dsp ∧ (s.apply (.keepShadows p)).cbl = s.cbl ∧
    (s.apply (.keepShadows p)).key = s.key ∧ (s.apply (.keepShadows p)).gau = s.gau ∧
    (s.apply (.keepShadows p)).slt = s.slt ∧ (s.apply (.keepShadows p)).drawn = s.drawn ∧
    (s.apply (.keepShadows p)).out = s.out := by
  refine ⟨?_, ?_, ?_, ?_, ?_, ?_, ?_, ?_, ?_, ?_, ?_, ?_, ?_, ?_, ?_, ?_, ?_, ?_, ?_, ?_, ?_, ?_, ?_, ?_, ?_, ?_, ?_, ?_, ?_⟩ <;> rfl

@[simp] theorem State.apply_mem (s : State) (a : Nat) (bs : List Byte) :
    (s.apply (.mem a bs)).pending = s.pending ∧ (s.apply (.mem a bs)).clock = s.clock ∧
    (s.apply (.mem a bs)).moment = s.moment ∧ (s.apply (.mem a bs)).regs = s.regs ∧
    (s.apply (.mem a bs)).shadows = s.shadows ∧ (s.apply (.mem a bs)).taken = s.taken ∧
    (s.apply (.mem a bs)).mem = s.mem.writes a bs ∧ (s.apply (.mem a bs)).bus = s.bus ∧
    (s.apply (.mem a bs)).btn = s.btn ∧ (s.apply (.mem a bs)).dev = s.dev ∧ (s.apply (.mem a bs)).boot = s.boot ∧
    (s.apply (.mem a bs)).tmb = s.tmb ∧ (s.apply (.mem a bs)).chn = s.chn ∧ (s.apply (.mem a bs)).grn = s.grn ∧
    (s.apply (.mem a bs)).sal = s.sal ∧ (s.apply (.mem a bs)).rak = s.rak ∧ (s.apply (.mem a bs)).lnk = s.lnk ∧
    (s.apply (.mem a bs)).tun = s.tun ∧ (s.apply (.mem a bs)).eth = s.eth ∧ (s.apply (.mem a bs)).brg = s.brg ∧
    (s.apply (.mem a bs)).sig = s.sig ∧ (s.apply (.mem a bs)).can = s.can ∧ (s.apply (.mem a bs)).dsp = s.dsp ∧
    (s.apply (.mem a bs)).cbl = s.cbl ∧ (s.apply (.mem a bs)).key = s.key ∧ (s.apply (.mem a bs)).gau = s.gau ∧
    (s.apply (.mem a bs)).slt = s.slt ∧ (s.apply (.mem a bs)).drawn = s.drawn ∧ (s.apply (.mem a bs)).out = s.out := by
  refine ⟨?_, ?_, ?_, ?_, ?_, ?_, ?_, ?_, ?_, ?_, ?_, ?_, ?_, ?_, ?_, ?_, ?_, ?_, ?_, ?_, ?_, ?_, ?_, ?_, ?_, ?_, ?_, ?_, ?_⟩ <;> rfl

@[simp] theorem State.apply_memClear (s : State) (lo hi : Nat) :
    (s.apply (.memClear lo hi)).pending = s.pending ∧ (s.apply (.memClear lo hi)).clock = s.clock ∧
    (s.apply (.memClear lo hi)).moment = s.moment ∧ (s.apply (.memClear lo hi)).regs = s.regs ∧
    (s.apply (.memClear lo hi)).shadows = s.shadows ∧ (s.apply (.memClear lo hi)).taken = s.taken ∧
    (s.apply (.memClear lo hi)).mem = s.mem.clear lo hi ∧ (s.apply (.memClear lo hi)).bus = s.bus ∧
    (s.apply (.memClear lo hi)).btn = s.btn ∧ (s.apply (.memClear lo hi)).dev = s.dev ∧
    (s.apply (.memClear lo hi)).boot = s.boot ∧ (s.apply (.memClear lo hi)).tmb = s.tmb ∧
    (s.apply (.memClear lo hi)).chn = s.chn ∧ (s.apply (.memClear lo hi)).grn = s.grn ∧
    (s.apply (.memClear lo hi)).sal = s.sal ∧ (s.apply (.memClear lo hi)).rak = s.rak ∧
    (s.apply (.memClear lo hi)).lnk = s.lnk ∧ (s.apply (.memClear lo hi)).tun = s.tun ∧
    (s.apply (.memClear lo hi)).eth = s.eth ∧ (s.apply (.memClear lo hi)).brg = s.brg ∧
    (s.apply (.memClear lo hi)).sig = s.sig ∧ (s.apply (.memClear lo hi)).can = s.can ∧
    (s.apply (.memClear lo hi)).dsp = s.dsp ∧ (s.apply (.memClear lo hi)).cbl = s.cbl ∧
    (s.apply (.memClear lo hi)).key = s.key ∧ (s.apply (.memClear lo hi)).gau = s.gau ∧
    (s.apply (.memClear lo hi)).slt = s.slt ∧ (s.apply (.memClear lo hi)).drawn = s.drawn ∧
    (s.apply (.memClear lo hi)).out = s.out := by
  refine ⟨?_, ?_, ?_, ?_, ?_, ?_, ?_, ?_, ?_, ?_, ?_, ?_, ?_, ?_, ?_, ?_, ?_, ?_, ?_, ?_, ?_, ?_, ?_, ?_, ?_, ?_, ?_, ?_, ?_⟩ <;> rfl

@[simp] theorem State.apply_out (s : State) (o : Out) :
    (s.apply (.out o)).pending = s.pending ∧ (s.apply (.out o)).clock = s.clock ∧ (s.apply (.out o)).moment = s.moment ∧
    (s.apply (.out o)).regs = s.regs ∧ (s.apply (.out o)).shadows = s.shadows ∧ (s.apply (.out o)).taken = s.taken ∧
    (s.apply (.out o)).mem = s.mem ∧ (s.apply (.out o)).bus = s.bus ∧ (s.apply (.out o)).btn = s.btn ∧
    (s.apply (.out o)).dev = s.dev ∧ (s.apply (.out o)).boot = s.boot ∧ (s.apply (.out o)).tmb = s.tmb ∧
    (s.apply (.out o)).chn = s.chn ∧ (s.apply (.out o)).grn = s.grn ∧ (s.apply (.out o)).sal = s.sal ∧
    (s.apply (.out o)).rak = s.rak ∧ (s.apply (.out o)).lnk = s.lnk ∧ (s.apply (.out o)).tun = s.tun ∧
    (s.apply (.out o)).eth = s.eth ∧ (s.apply (.out o)).brg = s.brg ∧ (s.apply (.out o)).sig = s.sig ∧
    (s.apply (.out o)).can = s.can ∧ (s.apply (.out o)).dsp = s.dsp ∧ (s.apply (.out o)).cbl = s.cbl ∧
    (s.apply (.out o)).key = s.key ∧ (s.apply (.out o)).gau = s.gau ∧ (s.apply (.out o)).slt = s.slt ∧
    (s.apply (.out o)).drawn = s.drawn ∧ (s.apply (.out o)).out = o :: s.out := by
  refine ⟨?_, ?_, ?_, ?_, ?_, ?_, ?_, ?_, ?_, ?_, ?_, ?_, ?_, ?_, ?_, ?_, ?_, ?_, ?_, ?_, ?_, ?_, ?_, ?_, ?_, ?_, ?_, ?_, ?_⟩ <;> rfl

@[simp] theorem State.apply_moment (s : State) (v : Nat) :
    (s.apply (.moment v)).pending = s.pending ∧ (s.apply (.moment v)).clock = s.clock ∧
    (s.apply (.moment v)).moment = v % 2 ^ 64 ∧ (s.apply (.moment v)).regs = s.regs ∧
    (s.apply (.moment v)).shadows = s.shadows ∧ (s.apply (.moment v)).taken = s.taken ∧
    (s.apply (.moment v)).mem = s.mem ∧ (s.apply (.moment v)).bus = s.bus ∧ (s.apply (.moment v)).btn = s.btn ∧
    (s.apply (.moment v)).dev = s.dev ∧ (s.apply (.moment v)).boot = s.boot ∧ (s.apply (.moment v)).tmb = s.tmb ∧
    (s.apply (.moment v)).chn = s.chn ∧ (s.apply (.moment v)).grn = s.grn ∧ (s.apply (.moment v)).sal = s.sal ∧
    (s.apply (.moment v)).rak = s.rak ∧ (s.apply (.moment v)).lnk = s.lnk ∧ (s.apply (.moment v)).tun = s.tun ∧
    (s.apply (.moment v)).eth = s.eth ∧ (s.apply (.moment v)).brg = s.brg ∧ (s.apply (.moment v)).sig = s.sig ∧
    (s.apply (.moment v)).can = s.can ∧ (s.apply (.moment v)).dsp = s.dsp ∧ (s.apply (.moment v)).cbl = s.cbl ∧
    (s.apply (.moment v)).key = s.key ∧ (s.apply (.moment v)).gau = s.gau ∧ (s.apply (.moment v)).slt = s.slt ∧
    (s.apply (.moment v)).drawn = s.drawn ∧ (s.apply (.moment v)).out = s.out := by
  refine ⟨?_, ?_, ?_, ?_, ?_, ?_, ?_, ?_, ?_, ?_, ?_, ?_, ?_, ?_, ?_, ?_, ?_, ?_, ?_, ?_, ?_, ?_, ?_, ?_, ?_, ?_, ?_, ?_, ?_⟩ <;> rfl

@[simp] theorem State.apply_draw (s : State) :
    (s.apply .draw).pending = s.pending ∧ (s.apply .draw).clock = s.clock ∧ (s.apply .draw).moment = s.moment ∧
    (s.apply .draw).regs = s.regs ∧ (s.apply .draw).shadows = s.shadows ∧ (s.apply .draw).taken = s.taken ∧
    (s.apply .draw).mem = s.mem ∧ (s.apply .draw).bus = s.bus ∧ (s.apply .draw).btn = s.btn ∧
    (s.apply .draw).dev = s.dev ∧ (s.apply .draw).boot = s.boot ∧ (s.apply .draw).tmb = s.tmb ∧
    (s.apply .draw).chn = s.chn ∧ (s.apply .draw).grn = s.grn ∧ (s.apply .draw).sal = s.sal ∧
    (s.apply .draw).rak = s.rak ∧ (s.apply .draw).lnk = s.lnk ∧ (s.apply .draw).tun = s.tun ∧
    (s.apply .draw).eth = s.eth ∧ (s.apply .draw).brg = s.brg ∧ (s.apply .draw).sig = s.sig ∧
    (s.apply .draw).can = s.can ∧ (s.apply .draw).dsp = s.dsp ∧ (s.apply .draw).cbl = s.cbl ∧
    (s.apply .draw).key = s.key ∧ (s.apply .draw).gau = s.gau ∧ (s.apply .draw).slt = s.slt ∧
    (s.apply .draw).drawn = s.drawn + 1 ∧ (s.apply .draw).out = s.out := by
  refine ⟨?_, ?_, ?_, ?_, ?_, ?_, ?_, ?_, ?_, ?_, ?_, ?_, ?_, ?_, ?_, ?_, ?_, ?_, ?_, ?_, ?_, ?_, ?_, ?_, ?_, ?_, ?_, ?_, ?_⟩ <;> rfl

@[simp] theorem State.apply_take (s : State) (p : RegId → Nat → Nat → Bool) :
    (s.apply (.take p)).pending = s.pending ∧ (s.apply (.take p)).clock = s.clock ∧
    (s.apply (.take p)).moment = s.moment ∧ (s.apply (.take p)).regs = s.regs ∧ (s.apply (.take p)).shadows = s.shadows ∧
    (s.apply (.take p)).mem = s.mem ∧ (s.apply (.take p)).bus = s.bus ∧ (s.apply (.take p)).btn = s.btn ∧
    (s.apply (.take p)).dev = s.dev ∧ (s.apply (.take p)).boot = s.boot ∧ (s.apply (.take p)).tmb = s.tmb ∧
    (s.apply (.take p)).chn = s.chn ∧ (s.apply (.take p)).grn = s.grn ∧ (s.apply (.take p)).sal = s.sal ∧
    (s.apply (.take p)).rak = s.rak ∧ (s.apply (.take p)).lnk = s.lnk ∧ (s.apply (.take p)).tun = s.tun ∧
    (s.apply (.take p)).eth = s.eth ∧ (s.apply (.take p)).brg = s.brg ∧ (s.apply (.take p)).sig = s.sig ∧
    (s.apply (.take p)).can = s.can ∧ (s.apply (.take p)).dsp = s.dsp ∧ (s.apply (.take p)).cbl = s.cbl ∧
    (s.apply (.take p)).key = s.key ∧ (s.apply (.take p)).gau = s.gau ∧ (s.apply (.take p)).slt = s.slt ∧
    (s.apply (.take p)).drawn = s.drawn ∧ (s.apply (.take p)).out = s.out := by
  refine ⟨?_, ?_, ?_, ?_, ?_, ?_, ?_, ?_, ?_, ?_, ?_, ?_, ?_, ?_, ?_, ?_, ?_, ?_, ?_, ?_, ?_, ?_, ?_, ?_, ?_, ?_, ?_, ?_⟩ <;> rfl

@[simp] theorem State.apply_settle (s : State) (p : RegId → Nat → Nat → Bool) :
    (s.apply (.settle p)).pending = s.pending ∧ (s.apply (.settle p)).clock = s.clock ∧
    (s.apply (.settle p)).moment = s.moment ∧ (s.apply (.settle p)).regs = s.regs ∧ (s.apply (.settle p)).mem = s.mem ∧
    (s.apply (.settle p)).bus = s.bus ∧ (s.apply (.settle p)).btn = s.btn ∧ (s.apply (.settle p)).dev = s.dev ∧
    (s.apply (.settle p)).boot = s.boot ∧ (s.apply (.settle p)).tmb = s.tmb ∧ (s.apply (.settle p)).chn = s.chn ∧
    (s.apply (.settle p)).grn = s.grn ∧ (s.apply (.settle p)).sal = s.sal ∧ (s.apply (.settle p)).rak = s.rak ∧
    (s.apply (.settle p)).lnk = s.lnk ∧ (s.apply (.settle p)).tun = s.tun ∧ (s.apply (.settle p)).eth = s.eth ∧
    (s.apply (.settle p)).brg = s.brg ∧ (s.apply (.settle p)).sig = s.sig ∧ (s.apply (.settle p)).can = s.can ∧
    (s.apply (.settle p)).dsp = s.dsp ∧ (s.apply (.settle p)).cbl = s.cbl ∧ (s.apply (.settle p)).key = s.key ∧
    (s.apply (.settle p)).gau = s.gau ∧ (s.apply (.settle p)).slt = s.slt ∧ (s.apply (.settle p)).drawn = s.drawn ∧
    (s.apply (.settle p)).out = s.out := by
  refine ⟨?_, ?_, ?_, ?_, ?_, ?_, ?_, ?_, ?_, ?_, ?_, ?_, ?_, ?_, ?_, ?_, ?_, ?_, ?_, ?_, ?_, ?_, ?_, ?_, ?_, ?_, ?_⟩ <;> rfl

@[simp] theorem State.apply_untake (s : State) (p : RegId → Nat → Nat → Bool) :
    (s.apply (.untake p)).pending = s.pending ∧ (s.apply (.untake p)).clock = s.clock ∧
    (s.apply (.untake p)).moment = s.moment ∧ (s.apply (.untake p)).regs = s.regs ∧
    (s.apply (.untake p)).shadows = s.shadows ∧ (s.apply (.untake p)).taken = s.taken.chosen (fun r i j => !p r i j) ∧
    (s.apply (.untake p)).mem = s.mem ∧ (s.apply (.untake p)).bus = s.bus ∧ (s.apply (.untake p)).btn = s.btn ∧
    (s.apply (.untake p)).dev = s.dev ∧ (s.apply (.untake p)).boot = s.boot ∧ (s.apply (.untake p)).tmb = s.tmb ∧
    (s.apply (.untake p)).chn = s.chn ∧ (s.apply (.untake p)).grn = s.grn ∧ (s.apply (.untake p)).sal = s.sal ∧
    (s.apply (.untake p)).rak = s.rak ∧ (s.apply (.untake p)).lnk = s.lnk ∧ (s.apply (.untake p)).tun = s.tun ∧
    (s.apply (.untake p)).eth = s.eth ∧ (s.apply (.untake p)).brg = s.brg ∧ (s.apply (.untake p)).sig = s.sig ∧
    (s.apply (.untake p)).can = s.can ∧ (s.apply (.untake p)).dsp = s.dsp ∧ (s.apply (.untake p)).cbl = s.cbl ∧
    (s.apply (.untake p)).key = s.key ∧ (s.apply (.untake p)).gau = s.gau ∧ (s.apply (.untake p)).slt = s.slt ∧
    (s.apply (.untake p)).drawn = s.drawn ∧ (s.apply (.untake p)).out = s.out := by
  refine ⟨?_, ?_, ?_, ?_, ?_, ?_, ?_, ?_, ?_, ?_, ?_, ?_, ?_, ?_, ?_, ?_, ?_, ?_, ?_, ?_, ?_, ?_, ?_, ?_, ?_, ?_, ?_, ?_, ?_⟩ <;> rfl

@[simp] theorem State.apply_shadow (s : State) (r : RegId) (i j v : Nat) :
    (s.apply (.shadow r i j v)).pending = s.pending ∧ (s.apply (.shadow r i j v)).clock = s.clock ∧
    (s.apply (.shadow r i j v)).moment = s.moment ∧ (s.apply (.shadow r i j v)).regs = s.regs ∧
    (s.apply (.shadow r i j v)).taken = s.taken ∧ (s.apply (.shadow r i j v)).mem = s.mem ∧
    (s.apply (.shadow r i j v)).bus = s.bus ∧ (s.apply (.shadow r i j v)).btn = s.btn ∧
    (s.apply (.shadow r i j v)).dev = s.dev ∧ (s.apply (.shadow r i j v)).boot = s.boot ∧
    (s.apply (.shadow r i j v)).tmb = s.tmb ∧ (s.apply (.shadow r i j v)).chn = s.chn ∧
    (s.apply (.shadow r i j v)).grn = s.grn ∧ (s.apply (.shadow r i j v)).sal = s.sal ∧
    (s.apply (.shadow r i j v)).rak = s.rak ∧ (s.apply (.shadow r i j v)).lnk = s.lnk ∧
    (s.apply (.shadow r i j v)).tun = s.tun ∧ (s.apply (.shadow r i j v)).eth = s.eth ∧
    (s.apply (.shadow r i j v)).brg = s.brg ∧ (s.apply (.shadow r i j v)).sig = s.sig ∧
    (s.apply (.shadow r i j v)).can = s.can ∧ (s.apply (.shadow r i j v)).dsp = s.dsp ∧
    (s.apply (.shadow r i j v)).cbl = s.cbl ∧ (s.apply (.shadow r i j v)).key = s.key ∧
    (s.apply (.shadow r i j v)).gau = s.gau ∧ (s.apply (.shadow r i j v)).slt = s.slt ∧
    (s.apply (.shadow r i j v)).drawn = s.drawn ∧ (s.apply (.shadow r i j v)).out = s.out := by
  simp only [State.apply]
  split <;> simp

@[simp] theorem State.apply_stage (s : State) (r : Rec) :
    (s.apply (.stage r)).pending = s.pending ∧ (s.apply (.stage r)).clock = s.clock ∧
    (s.apply (.stage r)).moment = s.moment ∧ (s.apply (.stage r)).regs = s.regs ∧
    (s.apply (.stage r)).shadows = s.shadows ∧ (s.apply (.stage r)).taken = s.taken ∧ (s.apply (.stage r)).mem = s.mem ∧
    (s.apply (.stage r)).bus = s.bus ∧ (s.apply (.stage r)).dev = s.dev ∧ (s.apply (.stage r)).boot = s.boot ∧
    (s.apply (.stage r)).tmb = s.tmb ∧ (s.apply (.stage r)).chn = s.chn ∧ (s.apply (.stage r)).grn = s.grn ∧
    (s.apply (.stage r)).sal = s.sal ∧ (s.apply (.stage r)).rak = s.rak ∧ (s.apply (.stage r)).lnk = s.lnk ∧
    (s.apply (.stage r)).tun = s.tun ∧ (s.apply (.stage r)).eth = s.eth ∧ (s.apply (.stage r)).brg = s.brg ∧
    (s.apply (.stage r)).sig = s.sig ∧ (s.apply (.stage r)).can = s.can ∧ (s.apply (.stage r)).dsp = s.dsp ∧
    (s.apply (.stage r)).cbl = s.cbl ∧ (s.apply (.stage r)).key = s.key ∧ (s.apply (.stage r)).gau = s.gau ∧
    (s.apply (.stage r)).slt = s.slt ∧ (s.apply (.stage r)).drawn = s.drawn ∧ (s.apply (.stage r)).out = s.out := by
  simp only [State.apply]
  split <;> simp

@[simp] theorem State.apply_unstage (s : State) :
    (s.apply .unstage).pending = s.pending ∧ (s.apply .unstage).clock = s.clock ∧ (s.apply .unstage).moment = s.moment ∧
    (s.apply .unstage).regs = s.regs ∧ (s.apply .unstage).shadows = s.shadows ∧ (s.apply .unstage).taken = s.taken ∧
    (s.apply .unstage).mem = s.mem ∧ (s.apply .unstage).bus = s.bus ∧ (s.apply .unstage).dev = s.dev ∧
    (s.apply .unstage).boot = s.boot ∧ (s.apply .unstage).tmb = s.tmb ∧ (s.apply .unstage).chn = s.chn ∧
    (s.apply .unstage).grn = s.grn ∧ (s.apply .unstage).sal = s.sal ∧ (s.apply .unstage).rak = s.rak ∧
    (s.apply .unstage).lnk = s.lnk ∧ (s.apply .unstage).tun = s.tun ∧ (s.apply .unstage).eth = s.eth ∧
    (s.apply .unstage).brg = s.brg ∧ (s.apply .unstage).sig = s.sig ∧ (s.apply .unstage).can = s.can ∧
    (s.apply .unstage).dsp = s.dsp ∧ (s.apply .unstage).cbl = s.cbl ∧ (s.apply .unstage).key = s.key ∧
    (s.apply .unstage).gau = s.gau ∧ (s.apply .unstage).slt = s.slt ∧ (s.apply .unstage).drawn = s.drawn ∧
    (s.apply .unstage).out = s.out := by
  refine ⟨?_, ?_, ?_, ?_, ?_, ?_, ?_, ?_, ?_, ?_, ?_, ?_, ?_, ?_, ?_, ?_, ?_, ?_, ?_, ?_, ?_, ?_, ?_, ?_, ?_, ?_, ?_, ?_⟩ <;> rfl

@[simp] theorem State.apply_btn (s : State) (f : BtnPart → Nat × Nat × NMap Nat) :
    (s.apply (.btn f)).pending = s.pending ∧ (s.apply (.btn f)).clock = s.clock ∧ (s.apply (.btn f)).moment = s.moment ∧
    (s.apply (.btn f)).regs = s.regs ∧ (s.apply (.btn f)).shadows = s.shadows ∧ (s.apply (.btn f)).taken = s.taken ∧
    (s.apply (.btn f)).mem = s.mem ∧ (s.apply (.btn f)).bus = s.bus ∧ (s.apply (.btn f)).dev = s.dev ∧
    (s.apply (.btn f)).boot = s.boot ∧ (s.apply (.btn f)).tmb = s.tmb ∧ (s.apply (.btn f)).chn = s.chn ∧
    (s.apply (.btn f)).grn = s.grn ∧ (s.apply (.btn f)).sal = s.sal ∧ (s.apply (.btn f)).rak = s.rak ∧
    (s.apply (.btn f)).lnk = s.lnk ∧ (s.apply (.btn f)).tun = s.tun ∧ (s.apply (.btn f)).eth = s.eth ∧
    (s.apply (.btn f)).brg = s.brg ∧ (s.apply (.btn f)).sig = s.sig ∧ (s.apply (.btn f)).can = s.can ∧
    (s.apply (.btn f)).dsp = s.dsp ∧ (s.apply (.btn f)).cbl = s.cbl ∧ (s.apply (.btn f)).key = s.key ∧
    (s.apply (.btn f)).gau = s.gau ∧ (s.apply (.btn f)).slt = s.slt ∧ (s.apply (.btn f)).drawn = s.drawn ∧
    (s.apply (.btn f)).out = s.out := by
  refine ⟨?_, ?_, ?_, ?_, ?_, ?_, ?_, ?_, ?_, ?_, ?_, ?_, ?_, ?_, ?_, ?_, ?_, ?_, ?_, ?_, ?_, ?_, ?_, ?_, ?_, ?_, ?_, ?_⟩ <;> rfl

@[simp] theorem State.apply_bus (s : State) (f : BusPart → BusPart) :
    (s.apply (.bus f)).pending = s.pending ∧ (s.apply (.bus f)).clock = s.clock ∧ (s.apply (.bus f)).moment = s.moment ∧
    (s.apply (.bus f)).regs = s.regs ∧ (s.apply (.bus f)).shadows = s.shadows ∧ (s.apply (.bus f)).taken = s.taken ∧
    (s.apply (.bus f)).mem = s.mem ∧ (s.apply (.bus f)).bus = f s.bus ∧ (s.apply (.bus f)).btn = s.btn ∧
    (s.apply (.bus f)).dev = s.dev ∧ (s.apply (.bus f)).boot = s.boot ∧ (s.apply (.bus f)).tmb = s.tmb ∧
    (s.apply (.bus f)).chn = s.chn ∧ (s.apply (.bus f)).grn = s.grn ∧ (s.apply (.bus f)).sal = s.sal ∧
    (s.apply (.bus f)).rak = s.rak ∧ (s.apply (.bus f)).lnk = s.lnk ∧ (s.apply (.bus f)).tun = s.tun ∧
    (s.apply (.bus f)).eth = s.eth ∧ (s.apply (.bus f)).brg = s.brg ∧ (s.apply (.bus f)).sig = s.sig ∧
    (s.apply (.bus f)).can = s.can ∧ (s.apply (.bus f)).dsp = s.dsp ∧ (s.apply (.bus f)).cbl = s.cbl ∧
    (s.apply (.bus f)).key = s.key ∧ (s.apply (.bus f)).gau = s.gau ∧ (s.apply (.bus f)).slt = s.slt ∧
    (s.apply (.bus f)).drawn = s.drawn ∧ (s.apply (.bus f)).out = s.out := by
  refine ⟨?_, ?_, ?_, ?_, ?_, ?_, ?_, ?_, ?_, ?_, ?_, ?_, ?_, ?_, ?_, ?_, ?_, ?_, ?_, ?_, ?_, ?_, ?_, ?_, ?_, ?_, ?_, ?_, ?_⟩ <;> rfl

@[simp] theorem State.apply_dev (s : State) (f : DevPart → DevPart) :
    (s.apply (.dev f)).pending = s.pending ∧ (s.apply (.dev f)).clock = s.clock ∧ (s.apply (.dev f)).moment = s.moment ∧
    (s.apply (.dev f)).regs = s.regs ∧ (s.apply (.dev f)).shadows = s.shadows ∧ (s.apply (.dev f)).taken = s.taken ∧
    (s.apply (.dev f)).mem = s.mem ∧ (s.apply (.dev f)).bus = s.bus ∧ (s.apply (.dev f)).btn = s.btn ∧
    (s.apply (.dev f)).dev = f s.dev ∧ (s.apply (.dev f)).boot = s.boot ∧ (s.apply (.dev f)).tmb = s.tmb ∧
    (s.apply (.dev f)).chn = s.chn ∧ (s.apply (.dev f)).grn = s.grn ∧ (s.apply (.dev f)).sal = s.sal ∧
    (s.apply (.dev f)).rak = s.rak ∧ (s.apply (.dev f)).lnk = s.lnk ∧ (s.apply (.dev f)).tun = s.tun ∧
    (s.apply (.dev f)).eth = s.eth ∧ (s.apply (.dev f)).brg = s.brg ∧ (s.apply (.dev f)).sig = s.sig ∧
    (s.apply (.dev f)).can = s.can ∧ (s.apply (.dev f)).dsp = s.dsp ∧ (s.apply (.dev f)).cbl = s.cbl ∧
    (s.apply (.dev f)).key = s.key ∧ (s.apply (.dev f)).gau = s.gau ∧ (s.apply (.dev f)).slt = s.slt ∧
    (s.apply (.dev f)).drawn = s.drawn ∧ (s.apply (.dev f)).out = s.out := by
  refine ⟨?_, ?_, ?_, ?_, ?_, ?_, ?_, ?_, ?_, ?_, ?_, ?_, ?_, ?_, ?_, ?_, ?_, ?_, ?_, ?_, ?_, ?_, ?_, ?_, ?_, ?_, ?_, ?_, ?_⟩ <;> rfl

@[simp] theorem State.apply_boot (s : State) (f : BootPart → BootPart) :
    (s.apply (.boot f)).pending = s.pending ∧ (s.apply (.boot f)).clock = s.clock ∧
    (s.apply (.boot f)).moment = s.moment ∧ (s.apply (.boot f)).regs = s.regs ∧ (s.apply (.boot f)).shadows = s.shadows ∧
    (s.apply (.boot f)).taken = s.taken ∧ (s.apply (.boot f)).mem = s.mem ∧ (s.apply (.boot f)).bus = s.bus ∧
    (s.apply (.boot f)).btn = s.btn ∧ (s.apply (.boot f)).dev = s.dev ∧ (s.apply (.boot f)).boot = f s.boot ∧
    (s.apply (.boot f)).tmb = s.tmb ∧ (s.apply (.boot f)).chn = s.chn ∧ (s.apply (.boot f)).grn = s.grn ∧
    (s.apply (.boot f)).sal = s.sal ∧ (s.apply (.boot f)).rak = s.rak ∧ (s.apply (.boot f)).lnk = s.lnk ∧
    (s.apply (.boot f)).tun = s.tun ∧ (s.apply (.boot f)).eth = s.eth ∧ (s.apply (.boot f)).brg = s.brg ∧
    (s.apply (.boot f)).sig = s.sig ∧ (s.apply (.boot f)).can = s.can ∧ (s.apply (.boot f)).dsp = s.dsp ∧
    (s.apply (.boot f)).cbl = s.cbl ∧ (s.apply (.boot f)).key = s.key ∧ (s.apply (.boot f)).gau = s.gau ∧
    (s.apply (.boot f)).slt = s.slt ∧ (s.apply (.boot f)).drawn = s.drawn ∧ (s.apply (.boot f)).out = s.out := by
  refine ⟨?_, ?_, ?_, ?_, ?_, ?_, ?_, ?_, ?_, ?_, ?_, ?_, ?_, ?_, ?_, ?_, ?_, ?_, ?_, ?_, ?_, ?_, ?_, ?_, ?_, ?_, ?_, ?_, ?_⟩ <;> rfl

@[simp] theorem State.apply_tmb (s : State) (f : TmbPart → TmbPart) :
    (s.apply (.tmb f)).pending = s.pending ∧ (s.apply (.tmb f)).clock = s.clock ∧ (s.apply (.tmb f)).moment = s.moment ∧
    (s.apply (.tmb f)).regs = s.regs ∧ (s.apply (.tmb f)).shadows = s.shadows ∧ (s.apply (.tmb f)).taken = s.taken ∧
    (s.apply (.tmb f)).mem = s.mem ∧ (s.apply (.tmb f)).bus = s.bus ∧ (s.apply (.tmb f)).btn = s.btn ∧
    (s.apply (.tmb f)).dev = s.dev ∧ (s.apply (.tmb f)).boot = s.boot ∧ (s.apply (.tmb f)).tmb = f s.tmb ∧
    (s.apply (.tmb f)).chn = s.chn ∧ (s.apply (.tmb f)).grn = s.grn ∧ (s.apply (.tmb f)).sal = s.sal ∧
    (s.apply (.tmb f)).rak = s.rak ∧ (s.apply (.tmb f)).lnk = s.lnk ∧ (s.apply (.tmb f)).tun = s.tun ∧
    (s.apply (.tmb f)).eth = s.eth ∧ (s.apply (.tmb f)).brg = s.brg ∧ (s.apply (.tmb f)).sig = s.sig ∧
    (s.apply (.tmb f)).can = s.can ∧ (s.apply (.tmb f)).dsp = s.dsp ∧ (s.apply (.tmb f)).cbl = s.cbl ∧
    (s.apply (.tmb f)).key = s.key ∧ (s.apply (.tmb f)).gau = s.gau ∧ (s.apply (.tmb f)).slt = s.slt ∧
    (s.apply (.tmb f)).drawn = s.drawn ∧ (s.apply (.tmb f)).out = s.out := by
  refine ⟨?_, ?_, ?_, ?_, ?_, ?_, ?_, ?_, ?_, ?_, ?_, ?_, ?_, ?_, ?_, ?_, ?_, ?_, ?_, ?_, ?_, ?_, ?_, ?_, ?_, ?_, ?_, ?_, ?_⟩ <;> rfl

@[simp] theorem State.apply_chn (s : State) (f : ChnPart → ChnPart) :
    (s.apply (.chn f)).pending = s.pending ∧ (s.apply (.chn f)).clock = s.clock ∧ (s.apply (.chn f)).moment = s.moment ∧
    (s.apply (.chn f)).regs = s.regs ∧ (s.apply (.chn f)).shadows = s.shadows ∧ (s.apply (.chn f)).taken = s.taken ∧
    (s.apply (.chn f)).mem = s.mem ∧ (s.apply (.chn f)).bus = s.bus ∧ (s.apply (.chn f)).btn = s.btn ∧
    (s.apply (.chn f)).dev = s.dev ∧ (s.apply (.chn f)).boot = s.boot ∧ (s.apply (.chn f)).tmb = s.tmb ∧
    (s.apply (.chn f)).chn = f s.chn ∧ (s.apply (.chn f)).grn = s.grn ∧ (s.apply (.chn f)).sal = s.sal ∧
    (s.apply (.chn f)).rak = s.rak ∧ (s.apply (.chn f)).lnk = s.lnk ∧ (s.apply (.chn f)).tun = s.tun ∧
    (s.apply (.chn f)).eth = s.eth ∧ (s.apply (.chn f)).brg = s.brg ∧ (s.apply (.chn f)).sig = s.sig ∧
    (s.apply (.chn f)).can = s.can ∧ (s.apply (.chn f)).dsp = s.dsp ∧ (s.apply (.chn f)).cbl = s.cbl ∧
    (s.apply (.chn f)).key = s.key ∧ (s.apply (.chn f)).gau = s.gau ∧ (s.apply (.chn f)).slt = s.slt ∧
    (s.apply (.chn f)).drawn = s.drawn ∧ (s.apply (.chn f)).out = s.out := by
  refine ⟨?_, ?_, ?_, ?_, ?_, ?_, ?_, ?_, ?_, ?_, ?_, ?_, ?_, ?_, ?_, ?_, ?_, ?_, ?_, ?_, ?_, ?_, ?_, ?_, ?_, ?_, ?_, ?_, ?_⟩ <;> rfl

@[simp] theorem State.apply_grn (s : State) (f : GrnPart → GrnPart) :
    (s.apply (.grn f)).pending = s.pending ∧ (s.apply (.grn f)).clock = s.clock ∧ (s.apply (.grn f)).moment = s.moment ∧
    (s.apply (.grn f)).regs = s.regs ∧ (s.apply (.grn f)).shadows = s.shadows ∧ (s.apply (.grn f)).taken = s.taken ∧
    (s.apply (.grn f)).mem = s.mem ∧ (s.apply (.grn f)).bus = s.bus ∧ (s.apply (.grn f)).btn = s.btn ∧
    (s.apply (.grn f)).dev = s.dev ∧ (s.apply (.grn f)).boot = s.boot ∧ (s.apply (.grn f)).tmb = s.tmb ∧
    (s.apply (.grn f)).chn = s.chn ∧ (s.apply (.grn f)).grn = f s.grn ∧ (s.apply (.grn f)).sal = s.sal ∧
    (s.apply (.grn f)).rak = s.rak ∧ (s.apply (.grn f)).lnk = s.lnk ∧ (s.apply (.grn f)).tun = s.tun ∧
    (s.apply (.grn f)).eth = s.eth ∧ (s.apply (.grn f)).brg = s.brg ∧ (s.apply (.grn f)).sig = s.sig ∧
    (s.apply (.grn f)).can = s.can ∧ (s.apply (.grn f)).dsp = s.dsp ∧ (s.apply (.grn f)).cbl = s.cbl ∧
    (s.apply (.grn f)).key = s.key ∧ (s.apply (.grn f)).gau = s.gau ∧ (s.apply (.grn f)).slt = s.slt ∧
    (s.apply (.grn f)).drawn = s.drawn ∧ (s.apply (.grn f)).out = s.out := by
  refine ⟨?_, ?_, ?_, ?_, ?_, ?_, ?_, ?_, ?_, ?_, ?_, ?_, ?_, ?_, ?_, ?_, ?_, ?_, ?_, ?_, ?_, ?_, ?_, ?_, ?_, ?_, ?_, ?_, ?_⟩ <;> rfl

@[simp] theorem State.apply_sal (s : State) (f : SalPart → SalPart) :
    (s.apply (.sal f)).pending = s.pending ∧ (s.apply (.sal f)).clock = s.clock ∧ (s.apply (.sal f)).moment = s.moment ∧
    (s.apply (.sal f)).regs = s.regs ∧ (s.apply (.sal f)).shadows = s.shadows ∧ (s.apply (.sal f)).taken = s.taken ∧
    (s.apply (.sal f)).mem = s.mem ∧ (s.apply (.sal f)).bus = s.bus ∧ (s.apply (.sal f)).btn = s.btn ∧
    (s.apply (.sal f)).dev = s.dev ∧ (s.apply (.sal f)).boot = s.boot ∧ (s.apply (.sal f)).tmb = s.tmb ∧
    (s.apply (.sal f)).chn = s.chn ∧ (s.apply (.sal f)).grn = s.grn ∧ (s.apply (.sal f)).sal = f s.sal ∧
    (s.apply (.sal f)).rak = s.rak ∧ (s.apply (.sal f)).lnk = s.lnk ∧ (s.apply (.sal f)).tun = s.tun ∧
    (s.apply (.sal f)).eth = s.eth ∧ (s.apply (.sal f)).brg = s.brg ∧ (s.apply (.sal f)).sig = s.sig ∧
    (s.apply (.sal f)).can = s.can ∧ (s.apply (.sal f)).dsp = s.dsp ∧ (s.apply (.sal f)).cbl = s.cbl ∧
    (s.apply (.sal f)).key = s.key ∧ (s.apply (.sal f)).gau = s.gau ∧ (s.apply (.sal f)).slt = s.slt ∧
    (s.apply (.sal f)).drawn = s.drawn ∧ (s.apply (.sal f)).out = s.out := by
  refine ⟨?_, ?_, ?_, ?_, ?_, ?_, ?_, ?_, ?_, ?_, ?_, ?_, ?_, ?_, ?_, ?_, ?_, ?_, ?_, ?_, ?_, ?_, ?_, ?_, ?_, ?_, ?_, ?_, ?_⟩ <;> rfl

@[simp] theorem State.apply_rak (s : State) (f : RakPart → RakPart) :
    (s.apply (.rak f)).pending = s.pending ∧ (s.apply (.rak f)).clock = s.clock ∧ (s.apply (.rak f)).moment = s.moment ∧
    (s.apply (.rak f)).regs = s.regs ∧ (s.apply (.rak f)).shadows = s.shadows ∧ (s.apply (.rak f)).taken = s.taken ∧
    (s.apply (.rak f)).mem = s.mem ∧ (s.apply (.rak f)).bus = s.bus ∧ (s.apply (.rak f)).btn = s.btn ∧
    (s.apply (.rak f)).dev = s.dev ∧ (s.apply (.rak f)).boot = s.boot ∧ (s.apply (.rak f)).tmb = s.tmb ∧
    (s.apply (.rak f)).chn = s.chn ∧ (s.apply (.rak f)).grn = s.grn ∧ (s.apply (.rak f)).sal = s.sal ∧
    (s.apply (.rak f)).rak = f s.rak ∧ (s.apply (.rak f)).lnk = s.lnk ∧ (s.apply (.rak f)).tun = s.tun ∧
    (s.apply (.rak f)).eth = s.eth ∧ (s.apply (.rak f)).brg = s.brg ∧ (s.apply (.rak f)).sig = s.sig ∧
    (s.apply (.rak f)).can = s.can ∧ (s.apply (.rak f)).dsp = s.dsp ∧ (s.apply (.rak f)).cbl = s.cbl ∧
    (s.apply (.rak f)).key = s.key ∧ (s.apply (.rak f)).gau = s.gau ∧ (s.apply (.rak f)).slt = s.slt ∧
    (s.apply (.rak f)).drawn = s.drawn ∧ (s.apply (.rak f)).out = s.out := by
  refine ⟨?_, ?_, ?_, ?_, ?_, ?_, ?_, ?_, ?_, ?_, ?_, ?_, ?_, ?_, ?_, ?_, ?_, ?_, ?_, ?_, ?_, ?_, ?_, ?_, ?_, ?_, ?_, ?_, ?_⟩ <;> rfl

@[simp] theorem State.apply_lnk (s : State) (f : NMap LnkPort → NMap LnkPort) :
    (s.apply (.lnk f)).pending = s.pending ∧ (s.apply (.lnk f)).clock = s.clock ∧ (s.apply (.lnk f)).moment = s.moment ∧
    (s.apply (.lnk f)).regs = s.regs ∧ (s.apply (.lnk f)).shadows = s.shadows ∧ (s.apply (.lnk f)).taken = s.taken ∧
    (s.apply (.lnk f)).mem = s.mem ∧ (s.apply (.lnk f)).bus = s.bus ∧ (s.apply (.lnk f)).btn = s.btn ∧
    (s.apply (.lnk f)).dev = s.dev ∧ (s.apply (.lnk f)).boot = s.boot ∧ (s.apply (.lnk f)).tmb = s.tmb ∧
    (s.apply (.lnk f)).chn = s.chn ∧ (s.apply (.lnk f)).grn = s.grn ∧ (s.apply (.lnk f)).sal = s.sal ∧
    (s.apply (.lnk f)).rak = s.rak ∧ (s.apply (.lnk f)).lnk = f s.lnk ∧ (s.apply (.lnk f)).tun = s.tun ∧
    (s.apply (.lnk f)).eth = s.eth ∧ (s.apply (.lnk f)).brg = s.brg ∧ (s.apply (.lnk f)).sig = s.sig ∧
    (s.apply (.lnk f)).can = s.can ∧ (s.apply (.lnk f)).dsp = s.dsp ∧ (s.apply (.lnk f)).cbl = s.cbl ∧
    (s.apply (.lnk f)).key = s.key ∧ (s.apply (.lnk f)).gau = s.gau ∧ (s.apply (.lnk f)).slt = s.slt ∧
    (s.apply (.lnk f)).drawn = s.drawn ∧ (s.apply (.lnk f)).out = s.out := by
  refine ⟨?_, ?_, ?_, ?_, ?_, ?_, ?_, ?_, ?_, ?_, ?_, ?_, ?_, ?_, ?_, ?_, ?_, ?_, ?_, ?_, ?_, ?_, ?_, ?_, ?_, ?_, ?_, ?_, ?_⟩ <;> rfl

@[simp] theorem State.apply_tun (s : State) (f : TunPart → TunPart) :
    (s.apply (.tun f)).pending = s.pending ∧ (s.apply (.tun f)).clock = s.clock ∧ (s.apply (.tun f)).moment = s.moment ∧
    (s.apply (.tun f)).regs = s.regs ∧ (s.apply (.tun f)).shadows = s.shadows ∧ (s.apply (.tun f)).taken = s.taken ∧
    (s.apply (.tun f)).mem = s.mem ∧ (s.apply (.tun f)).bus = s.bus ∧ (s.apply (.tun f)).btn = s.btn ∧
    (s.apply (.tun f)).dev = s.dev ∧ (s.apply (.tun f)).boot = s.boot ∧ (s.apply (.tun f)).tmb = s.tmb ∧
    (s.apply (.tun f)).chn = s.chn ∧ (s.apply (.tun f)).grn = s.grn ∧ (s.apply (.tun f)).sal = s.sal ∧
    (s.apply (.tun f)).rak = s.rak ∧ (s.apply (.tun f)).lnk = s.lnk ∧ (s.apply (.tun f)).tun = f s.tun ∧
    (s.apply (.tun f)).eth = s.eth ∧ (s.apply (.tun f)).brg = s.brg ∧ (s.apply (.tun f)).sig = s.sig ∧
    (s.apply (.tun f)).can = s.can ∧ (s.apply (.tun f)).dsp = s.dsp ∧ (s.apply (.tun f)).cbl = s.cbl ∧
    (s.apply (.tun f)).key = s.key ∧ (s.apply (.tun f)).gau = s.gau ∧ (s.apply (.tun f)).slt = s.slt ∧
    (s.apply (.tun f)).drawn = s.drawn ∧ (s.apply (.tun f)).out = s.out := by
  refine ⟨?_, ?_, ?_, ?_, ?_, ?_, ?_, ?_, ?_, ?_, ?_, ?_, ?_, ?_, ?_, ?_, ?_, ?_, ?_, ?_, ?_, ?_, ?_, ?_, ?_, ?_, ?_, ?_, ?_⟩ <;> rfl

@[simp] theorem State.apply_eth (s : State) (f : NMap EthPort → NMap EthPort) :
    (s.apply (.eth f)).pending = s.pending ∧ (s.apply (.eth f)).clock = s.clock ∧ (s.apply (.eth f)).moment = s.moment ∧
    (s.apply (.eth f)).regs = s.regs ∧ (s.apply (.eth f)).shadows = s.shadows ∧ (s.apply (.eth f)).taken = s.taken ∧
    (s.apply (.eth f)).mem = s.mem ∧ (s.apply (.eth f)).bus = s.bus ∧ (s.apply (.eth f)).btn = s.btn ∧
    (s.apply (.eth f)).dev = s.dev ∧ (s.apply (.eth f)).boot = s.boot ∧ (s.apply (.eth f)).tmb = s.tmb ∧
    (s.apply (.eth f)).chn = s.chn ∧ (s.apply (.eth f)).grn = s.grn ∧ (s.apply (.eth f)).sal = s.sal ∧
    (s.apply (.eth f)).rak = s.rak ∧ (s.apply (.eth f)).lnk = s.lnk ∧ (s.apply (.eth f)).tun = s.tun ∧
    (s.apply (.eth f)).eth = f s.eth ∧ (s.apply (.eth f)).brg = s.brg ∧ (s.apply (.eth f)).sig = s.sig ∧
    (s.apply (.eth f)).can = s.can ∧ (s.apply (.eth f)).dsp = s.dsp ∧ (s.apply (.eth f)).cbl = s.cbl ∧
    (s.apply (.eth f)).key = s.key ∧ (s.apply (.eth f)).gau = s.gau ∧ (s.apply (.eth f)).slt = s.slt ∧
    (s.apply (.eth f)).drawn = s.drawn ∧ (s.apply (.eth f)).out = s.out := by
  refine ⟨?_, ?_, ?_, ?_, ?_, ?_, ?_, ?_, ?_, ?_, ?_, ?_, ?_, ?_, ?_, ?_, ?_, ?_, ?_, ?_, ?_, ?_, ?_, ?_, ?_, ?_, ?_, ?_, ?_⟩ <;> rfl

@[simp] theorem State.apply_brg (s : State) (f : BrgPart → BrgPart) :
    (s.apply (.brg f)).pending = s.pending ∧ (s.apply (.brg f)).clock = s.clock ∧ (s.apply (.brg f)).moment = s.moment ∧
    (s.apply (.brg f)).regs = s.regs ∧ (s.apply (.brg f)).shadows = s.shadows ∧ (s.apply (.brg f)).taken = s.taken ∧
    (s.apply (.brg f)).mem = s.mem ∧ (s.apply (.brg f)).bus = s.bus ∧ (s.apply (.brg f)).btn = s.btn ∧
    (s.apply (.brg f)).dev = s.dev ∧ (s.apply (.brg f)).boot = s.boot ∧ (s.apply (.brg f)).tmb = s.tmb ∧
    (s.apply (.brg f)).chn = s.chn ∧ (s.apply (.brg f)).grn = s.grn ∧ (s.apply (.brg f)).sal = s.sal ∧
    (s.apply (.brg f)).rak = s.rak ∧ (s.apply (.brg f)).lnk = s.lnk ∧ (s.apply (.brg f)).tun = s.tun ∧
    (s.apply (.brg f)).eth = s.eth ∧ (s.apply (.brg f)).brg = f s.brg ∧ (s.apply (.brg f)).sig = s.sig ∧
    (s.apply (.brg f)).can = s.can ∧ (s.apply (.brg f)).dsp = s.dsp ∧ (s.apply (.brg f)).cbl = s.cbl ∧
    (s.apply (.brg f)).key = s.key ∧ (s.apply (.brg f)).gau = s.gau ∧ (s.apply (.brg f)).slt = s.slt ∧
    (s.apply (.brg f)).drawn = s.drawn ∧ (s.apply (.brg f)).out = s.out := by
  refine ⟨?_, ?_, ?_, ?_, ?_, ?_, ?_, ?_, ?_, ?_, ?_, ?_, ?_, ?_, ?_, ?_, ?_, ?_, ?_, ?_, ?_, ?_, ?_, ?_, ?_, ?_, ?_, ?_, ?_⟩ <;> rfl

@[simp] theorem State.apply_sig (s : State) (f : SigPart → SigPart) :
    (s.apply (.sig f)).pending = s.pending ∧ (s.apply (.sig f)).clock = s.clock ∧ (s.apply (.sig f)).moment = s.moment ∧
    (s.apply (.sig f)).regs = s.regs ∧ (s.apply (.sig f)).shadows = s.shadows ∧ (s.apply (.sig f)).taken = s.taken ∧
    (s.apply (.sig f)).mem = s.mem ∧ (s.apply (.sig f)).bus = s.bus ∧ (s.apply (.sig f)).btn = s.btn ∧
    (s.apply (.sig f)).dev = s.dev ∧ (s.apply (.sig f)).boot = s.boot ∧ (s.apply (.sig f)).tmb = s.tmb ∧
    (s.apply (.sig f)).chn = s.chn ∧ (s.apply (.sig f)).grn = s.grn ∧ (s.apply (.sig f)).sal = s.sal ∧
    (s.apply (.sig f)).rak = s.rak ∧ (s.apply (.sig f)).lnk = s.lnk ∧ (s.apply (.sig f)).tun = s.tun ∧
    (s.apply (.sig f)).eth = s.eth ∧ (s.apply (.sig f)).brg = s.brg ∧ (s.apply (.sig f)).sig = f s.sig ∧
    (s.apply (.sig f)).can = s.can ∧ (s.apply (.sig f)).dsp = s.dsp ∧ (s.apply (.sig f)).cbl = s.cbl ∧
    (s.apply (.sig f)).key = s.key ∧ (s.apply (.sig f)).gau = s.gau ∧ (s.apply (.sig f)).slt = s.slt ∧
    (s.apply (.sig f)).drawn = s.drawn ∧ (s.apply (.sig f)).out = s.out := by
  refine ⟨?_, ?_, ?_, ?_, ?_, ?_, ?_, ?_, ?_, ?_, ?_, ?_, ?_, ?_, ?_, ?_, ?_, ?_, ?_, ?_, ?_, ?_, ?_, ?_, ?_, ?_, ?_, ?_, ?_⟩ <;> rfl

@[simp] theorem State.apply_can (s : State) (f : NMap CanPort → NMap CanPort) :
    (s.apply (.can f)).pending = s.pending ∧ (s.apply (.can f)).clock = s.clock ∧ (s.apply (.can f)).moment = s.moment ∧
    (s.apply (.can f)).regs = s.regs ∧ (s.apply (.can f)).shadows = s.shadows ∧ (s.apply (.can f)).taken = s.taken ∧
    (s.apply (.can f)).mem = s.mem ∧ (s.apply (.can f)).bus = s.bus ∧ (s.apply (.can f)).btn = s.btn ∧
    (s.apply (.can f)).dev = s.dev ∧ (s.apply (.can f)).boot = s.boot ∧ (s.apply (.can f)).tmb = s.tmb ∧
    (s.apply (.can f)).chn = s.chn ∧ (s.apply (.can f)).grn = s.grn ∧ (s.apply (.can f)).sal = s.sal ∧
    (s.apply (.can f)).rak = s.rak ∧ (s.apply (.can f)).lnk = s.lnk ∧ (s.apply (.can f)).tun = s.tun ∧
    (s.apply (.can f)).eth = s.eth ∧ (s.apply (.can f)).brg = s.brg ∧ (s.apply (.can f)).sig = s.sig ∧
    (s.apply (.can f)).can = f s.can ∧ (s.apply (.can f)).dsp = s.dsp ∧ (s.apply (.can f)).cbl = s.cbl ∧
    (s.apply (.can f)).key = s.key ∧ (s.apply (.can f)).gau = s.gau ∧ (s.apply (.can f)).slt = s.slt ∧
    (s.apply (.can f)).drawn = s.drawn ∧ (s.apply (.can f)).out = s.out := by
  refine ⟨?_, ?_, ?_, ?_, ?_, ?_, ?_, ?_, ?_, ?_, ?_, ?_, ?_, ?_, ?_, ?_, ?_, ?_, ?_, ?_, ?_, ?_, ?_, ?_, ?_, ?_, ?_, ?_, ?_⟩ <;> rfl

@[simp] theorem State.apply_dsp (s : State) (f : DspPart → DspPart) :
    (s.apply (.dsp f)).pending = s.pending ∧ (s.apply (.dsp f)).clock = s.clock ∧ (s.apply (.dsp f)).moment = s.moment ∧
    (s.apply (.dsp f)).regs = s.regs ∧ (s.apply (.dsp f)).shadows = s.shadows ∧ (s.apply (.dsp f)).taken = s.taken ∧
    (s.apply (.dsp f)).mem = s.mem ∧ (s.apply (.dsp f)).bus = s.bus ∧ (s.apply (.dsp f)).btn = s.btn ∧
    (s.apply (.dsp f)).dev = s.dev ∧ (s.apply (.dsp f)).boot = s.boot ∧ (s.apply (.dsp f)).tmb = s.tmb ∧
    (s.apply (.dsp f)).chn = s.chn ∧ (s.apply (.dsp f)).grn = s.grn ∧ (s.apply (.dsp f)).sal = s.sal ∧
    (s.apply (.dsp f)).rak = s.rak ∧ (s.apply (.dsp f)).lnk = s.lnk ∧ (s.apply (.dsp f)).tun = s.tun ∧
    (s.apply (.dsp f)).eth = s.eth ∧ (s.apply (.dsp f)).brg = s.brg ∧ (s.apply (.dsp f)).sig = s.sig ∧
    (s.apply (.dsp f)).can = s.can ∧ (s.apply (.dsp f)).dsp = f s.dsp ∧ (s.apply (.dsp f)).cbl = s.cbl ∧
    (s.apply (.dsp f)).key = s.key ∧ (s.apply (.dsp f)).gau = s.gau ∧ (s.apply (.dsp f)).slt = s.slt ∧
    (s.apply (.dsp f)).drawn = s.drawn ∧ (s.apply (.dsp f)).out = s.out := by
  refine ⟨?_, ?_, ?_, ?_, ?_, ?_, ?_, ?_, ?_, ?_, ?_, ?_, ?_, ?_, ?_, ?_, ?_, ?_, ?_, ?_, ?_, ?_, ?_, ?_, ?_, ?_, ?_, ?_, ?_⟩ <;> rfl

@[simp] theorem State.apply_cbl (s : State) (f : CblPart → CblPart) :
    (s.apply (.cbl f)).pending = s.pending ∧ (s.apply (.cbl f)).clock = s.clock ∧ (s.apply (.cbl f)).moment = s.moment ∧
    (s.apply (.cbl f)).regs = s.regs ∧ (s.apply (.cbl f)).shadows = s.shadows ∧ (s.apply (.cbl f)).taken = s.taken ∧
    (s.apply (.cbl f)).mem = s.mem ∧ (s.apply (.cbl f)).bus = s.bus ∧ (s.apply (.cbl f)).btn = s.btn ∧
    (s.apply (.cbl f)).dev = s.dev ∧ (s.apply (.cbl f)).boot = s.boot ∧ (s.apply (.cbl f)).tmb = s.tmb ∧
    (s.apply (.cbl f)).chn = s.chn ∧ (s.apply (.cbl f)).grn = s.grn ∧ (s.apply (.cbl f)).sal = s.sal ∧
    (s.apply (.cbl f)).rak = s.rak ∧ (s.apply (.cbl f)).lnk = s.lnk ∧ (s.apply (.cbl f)).tun = s.tun ∧
    (s.apply (.cbl f)).eth = s.eth ∧ (s.apply (.cbl f)).brg = s.brg ∧ (s.apply (.cbl f)).sig = s.sig ∧
    (s.apply (.cbl f)).can = s.can ∧ (s.apply (.cbl f)).dsp = s.dsp ∧ (s.apply (.cbl f)).cbl = f s.cbl ∧
    (s.apply (.cbl f)).key = s.key ∧ (s.apply (.cbl f)).gau = s.gau ∧ (s.apply (.cbl f)).slt = s.slt ∧
    (s.apply (.cbl f)).drawn = s.drawn ∧ (s.apply (.cbl f)).out = s.out := by
  refine ⟨?_, ?_, ?_, ?_, ?_, ?_, ?_, ?_, ?_, ?_, ?_, ?_, ?_, ?_, ?_, ?_, ?_, ?_, ?_, ?_, ?_, ?_, ?_, ?_, ?_, ?_, ?_, ?_, ?_⟩ <;> rfl

@[simp] theorem State.apply_key (s : State) (f : KeyPart → KeyPart) :
    (s.apply (.key f)).pending = s.pending ∧ (s.apply (.key f)).clock = s.clock ∧ (s.apply (.key f)).moment = s.moment ∧
    (s.apply (.key f)).regs = s.regs ∧ (s.apply (.key f)).shadows = s.shadows ∧ (s.apply (.key f)).taken = s.taken ∧
    (s.apply (.key f)).mem = s.mem ∧ (s.apply (.key f)).bus = s.bus ∧ (s.apply (.key f)).btn = s.btn ∧
    (s.apply (.key f)).dev = s.dev ∧ (s.apply (.key f)).boot = s.boot ∧ (s.apply (.key f)).tmb = s.tmb ∧
    (s.apply (.key f)).chn = s.chn ∧ (s.apply (.key f)).grn = s.grn ∧ (s.apply (.key f)).sal = s.sal ∧
    (s.apply (.key f)).rak = s.rak ∧ (s.apply (.key f)).lnk = s.lnk ∧ (s.apply (.key f)).tun = s.tun ∧
    (s.apply (.key f)).eth = s.eth ∧ (s.apply (.key f)).brg = s.brg ∧ (s.apply (.key f)).sig = s.sig ∧
    (s.apply (.key f)).can = s.can ∧ (s.apply (.key f)).dsp = s.dsp ∧ (s.apply (.key f)).cbl = s.cbl ∧
    (s.apply (.key f)).key = f s.key ∧ (s.apply (.key f)).gau = s.gau ∧ (s.apply (.key f)).slt = s.slt ∧
    (s.apply (.key f)).drawn = s.drawn ∧ (s.apply (.key f)).out = s.out := by
  refine ⟨?_, ?_, ?_, ?_, ?_, ?_, ?_, ?_, ?_, ?_, ?_, ?_, ?_, ?_, ?_, ?_, ?_, ?_, ?_, ?_, ?_, ?_, ?_, ?_, ?_, ?_, ?_, ?_, ?_⟩ <;> rfl

@[simp] theorem State.apply_gau (s : State) (f : NMap GauAcc → NMap GauAcc) :
    (s.apply (.gau f)).pending = s.pending ∧ (s.apply (.gau f)).clock = s.clock ∧ (s.apply (.gau f)).moment = s.moment ∧
    (s.apply (.gau f)).regs = s.regs ∧ (s.apply (.gau f)).shadows = s.shadows ∧ (s.apply (.gau f)).taken = s.taken ∧
    (s.apply (.gau f)).mem = s.mem ∧ (s.apply (.gau f)).bus = s.bus ∧ (s.apply (.gau f)).btn = s.btn ∧
    (s.apply (.gau f)).dev = s.dev ∧ (s.apply (.gau f)).boot = s.boot ∧ (s.apply (.gau f)).tmb = s.tmb ∧
    (s.apply (.gau f)).chn = s.chn ∧ (s.apply (.gau f)).grn = s.grn ∧ (s.apply (.gau f)).sal = s.sal ∧
    (s.apply (.gau f)).rak = s.rak ∧ (s.apply (.gau f)).lnk = s.lnk ∧ (s.apply (.gau f)).tun = s.tun ∧
    (s.apply (.gau f)).eth = s.eth ∧ (s.apply (.gau f)).brg = s.brg ∧ (s.apply (.gau f)).sig = s.sig ∧
    (s.apply (.gau f)).can = s.can ∧ (s.apply (.gau f)).dsp = s.dsp ∧ (s.apply (.gau f)).cbl = s.cbl ∧
    (s.apply (.gau f)).key = s.key ∧ (s.apply (.gau f)).gau = f s.gau ∧ (s.apply (.gau f)).slt = s.slt ∧
    (s.apply (.gau f)).drawn = s.drawn ∧ (s.apply (.gau f)).out = s.out := by
  refine ⟨?_, ?_, ?_, ?_, ?_, ?_, ?_, ?_, ?_, ?_, ?_, ?_, ?_, ?_, ?_, ?_, ?_, ?_, ?_, ?_, ?_, ?_, ?_, ?_, ?_, ?_, ?_, ?_, ?_⟩ <;> rfl

@[simp] theorem State.apply_slt (s : State) (f : SltPart → SltPart) :
    (s.apply (.slt f)).pending = s.pending ∧ (s.apply (.slt f)).clock = s.clock ∧ (s.apply (.slt f)).moment = s.moment ∧
    (s.apply (.slt f)).regs = s.regs ∧ (s.apply (.slt f)).shadows = s.shadows ∧ (s.apply (.slt f)).taken = s.taken ∧
    (s.apply (.slt f)).mem = s.mem ∧ (s.apply (.slt f)).bus = s.bus ∧ (s.apply (.slt f)).btn = s.btn ∧
    (s.apply (.slt f)).dev = s.dev ∧ (s.apply (.slt f)).boot = s.boot ∧ (s.apply (.slt f)).tmb = s.tmb ∧
    (s.apply (.slt f)).chn = s.chn ∧ (s.apply (.slt f)).grn = s.grn ∧ (s.apply (.slt f)).sal = s.sal ∧
    (s.apply (.slt f)).rak = s.rak ∧ (s.apply (.slt f)).lnk = s.lnk ∧ (s.apply (.slt f)).tun = s.tun ∧
    (s.apply (.slt f)).eth = s.eth ∧ (s.apply (.slt f)).brg = s.brg ∧ (s.apply (.slt f)).sig = s.sig ∧
    (s.apply (.slt f)).can = s.can ∧ (s.apply (.slt f)).dsp = s.dsp ∧ (s.apply (.slt f)).cbl = s.cbl ∧
    (s.apply (.slt f)).key = s.key ∧ (s.apply (.slt f)).gau = s.gau ∧ (s.apply (.slt f)).slt = f s.slt ∧
    (s.apply (.slt f)).drawn = s.drawn ∧ (s.apply (.slt f)).out = s.out := by
  refine ⟨?_, ?_, ?_, ?_, ?_, ?_, ?_, ?_, ?_, ?_, ?_, ?_, ?_, ?_, ?_, ?_, ?_, ?_, ?_, ?_, ?_, ?_, ?_, ?_, ?_, ?_, ?_, ?_, ?_⟩ <;> rfl

/-! ### Programs -/

@[simp] theorem Prog.run_skip (s : State) : Prog.skip.run s = s := rfl
@[simp] theorem Prog.run_act (e : Eff) (s : State) : (Prog.act e).run s = s.apply e := rfl
@[simp] theorem Prog.run_seq (p q : Prog) (s : State) : (Prog.seq p q).run s = q.run (p.run s) := rfl
@[simp] theorem Prog.run_get (k : State → Prog) (s : State) : (Prog.get k).run s = (k s).run s := rfl
@[simp] theorem Prog.run_all_nil (s : State) : (Prog.all []).run s = s := rfl
@[simp] theorem Prog.run_all_cons (p : Prog) (l : List Prog) (s : State) : (Prog.all (p :: l)).run s = (Prog.all l).run (p.run s) := rfl
@[simp] theorem Prog.run_on_true (p : Prog) (s : State) : (Prog.on true p).run s = p.run s := rfl
@[simp] theorem Prog.run_on_false (p : Prog) (s : State) : (Prog.on false p).run s = s := rfl

theorem Prog.run_on (b : Bool) (p : Prog) (s : State) : (Prog.on b p).run s = if b then p.run s else s := by
  cases b <;> rfl

@[simp] theorem Prog.run_each_nil {α : Type} (f : α → Prog) (s : State) : (Prog.each [] f).run s = s := rfl
@[simp] theorem Prog.run_each_cons {α : Type} (a : α) (l : List α) (f : α → Prog) (s : State) :
    (Prog.each (a :: l) f).run s = (Prog.each l f).run ((f a).run s) := rfl

/-- What every effect keeps, every program keeps. -/
theorem Prog.run_keeps (P : State → Prop) (h : ∀ s e, P s → P (s.apply e)) (p : Prog) (s : State) (hs : P s) : P (p.run s) := by
  induction p generalizing s with
  | skip => exact hs
  | act e => exact h s e hs
  | seq p q hp hq => exact hq _ (hp _ hs)
  | get k ih => exact ih s s hs

/-- A command that does a program of effects completes. -/
theorem State.does_eq (s : State) (p : Prog) : s.does p = .next (p.run s) := rfl

/-- No effect touches the queue of waiting commands or the model's clock. -/
theorem State.apply_queue (s : State) (e : Eff) : (s.apply e).pending = s.pending ∧ (s.apply e).clock = s.clock := by
  cases e <;> simp

theorem Prog.run_queue (p : Prog) (s : State) : (p.run s).pending = s.pending ∧ (p.run s).clock = s.clock :=
  p.run_keeps (fun t => t.pending = s.pending ∧ t.clock = s.clock)
    (fun t e h => ⟨(t.apply_queue e).1.trans h.1, (t.apply_queue e).2.trans h.2⟩) s ⟨rfl, rfl⟩

end Sys2Proof.Machine
end

