-- ==== Sys2Proof/Laws/Inv.lean ====
section
/-! SUPPORT. Every effect, so every command, keeps the invariant. -/
namespace Sys2Proof.Machine

theorem State.Inv.apply {s : State} (h : s.Inv) (e : Eff) : (s.apply e).Inv := by
  obtain ⟨hm, hr, hs, ht, hb, hl, hv⟩ := h
  cases e <;> (try (constructor <;> simpa using by assumption))
  case reg r i j v => exact ⟨hm, RegFile.wf_write _ _ _ _ _ hr, hs, ht, hb, hl, hv⟩
  case shadow r i j v =>
    by_cases hv' : (r.isShadowed && r.legal v && spotFits i j) = true
    · simp only [State.apply, hv', if_true]
      obtain ⟨hg, hp⟩ := Bool.and_eq_true_iff.1 hv'
      obtain ⟨hw, hg⟩ := Bool.and_eq_true_iff.1 hg
      refine ⟨hm, hr, RegFile.legalAll_put _ _ _ hs ⟨hw, hg, ?_⟩, ht, hb, hl, hv⟩
      simp only [keyInst_regKey r hp, keyIdx_regKey r hp]
    · simp only [State.apply, hv']
      exact ⟨hm, hr, hs, ht, hb, hl, hv⟩
  case keepRegs p => exact ⟨hm, RegFile.wf_chosen _ _ hr, hs, ht, hb, hl, hv⟩
  case keepShadows p => exact ⟨hm, hr, RegFile.legalAll_filter _ _ hs, ht, hb, hl, hv⟩
  case take p =>
    refine ⟨hm, hr, hs, ?_, hb, hl, hv⟩
    exact RegFile.legalAll_merge _ _ (RegFile.legalAll_filter _ _ ht) fun e he =>
      ((RegFile.legalAll_iff _).1 hs).2 e (List.mem_filter.1 he).1
  case settle p => exact ⟨hm, hr, RegFile.legalAll_filter _ _ hs, RegFile.legalAll_filter _ _ ht, hb, hl, hv⟩
  case untake p => exact ⟨hm, hr, hs, RegFile.legalAll_filter _ _ ht, hb, hl, hv⟩
  case mem a bs => exact ⟨Memory.wf_writes _ _ _ hm, hr, hs, ht, hb, hl, hv⟩
  case memClear lo hi => exact ⟨Memory.wf_clear _ _ _ hm, hr, hs, ht, hb, hl, hv⟩
  case stage r =>
    by_cases hc : s.btn.staged.length < stagingCap
    · simp only [State.apply, hc, if_true]
      refine ⟨hm, hr, hs, ht, ?_, hl, hv⟩
      simpa [Nat.succ_le_iff] using hc
    · simp only [State.apply, hc, if_false]
      exact ⟨hm, hr, hs, ht, hb, hl, hv⟩
  case moment v => exact ⟨hm, hr, hs, ht, hb, hl, Nat.mod_lt _ (by decide)⟩
  case btn f => exact ⟨hm, hr, hs, ht, hb, Nat.mod_lt _ (by decide), hv⟩
  case unstage =>
    refine ⟨hm, hr, hs, ht, ?_, hl, hv⟩
    show s.btn.staged.tail.length ≤ _
    rw [List.length_tail]
    omega

theorem Prog.run_inv (p : Prog) {s : State} (h : s.Inv) : (p.run s).Inv := p.run_keeps State.Inv (fun _ e h => h.apply e) s h

theorem State.Inv.tick {s : State} (h : s.Inv) : s.tick.Inv := by
  have := tickProg.run_inv h
  exact ⟨this.mem, this.regs, this.shadows, this.taken, this.staged, this.logSeq, this.moment⟩

end Sys2Proof.Machine
end

