-- ==== Sys2Proof/Laws/Engine.lean ====
section
/-! SUPPORT. What the shared operations of the grainer machines do: writing registers and the pc, issuing one instruction. -/
namespace Sys2Proof.Machine

theorem regGet_regPut (m : NMap Word) (r x : Nat) (v : Word) :
    regGet (regPut m r v) x = if x = 0 then 0 else if x = r then v else regGet m x := by
  by_cases hx : x = 0
  · simp [regGet, hx]
  · by_cases hr : r = 0
    · have : ¬ x = r := by omega
      simp [regGet, regPut, hr, hx]
    · by_cases hxr : x = r
      · subst hxr; simp [regGet, regPut, hx, NMap.get?_put_self]
      · simp [regGet, regPut, hx, hr, hxr, NMap.get?_put_ne _ _ hxr]

@[simp] theorem State.reg_zero (s : State) (m : Mach) : s.reg m 0 = 0 := by simp [State.reg, regGet]

/-- A thread looked up after threads changed. -/
theorem State.thread_put (g : NMap Thread) (k x : Nat) (h : Thread) :
    ((NMap.put g k h).get? x).getD blankThread = if x = k then h else (g.get? x).getD blankThread := by
  by_cases hx : x = k
  · subst hx; simp [NMap.get?_put_self]
  · simp [hx, NMap.get?_put_ne _ _ hx]

theorem State.core_put (g : NMap Core) (k x : Nat) (h : Core) :
    ((NMap.put g k h).get? x).getD Core.reset = if x = k then h else (g.get? x).getD Core.reset := by
  by_cases hx : x = k
  · subst hx; simp [NMap.get?_put_self]
  · simp [hx, NMap.get?_put_ne _ _ hx]

/-- A thread `k` takes the value `h`, and nothing else changes. -/
def State.putThread (s : State) (k : Nat) (h : Thread) : State := { s with grn := { s.grn with threads := s.grn.threads.put k h } }
def State.putCore (s : State) (k : Nat) (c : Core) : State := { s with grn := { s.grn with ctl := s.grn.ctl.put k c } }

theorem run_setThread (s : State) (k : Nat) (f : Thread → Thread) : (setThread k f).run s = s.putThread k (f (s.thread k)) := rfl
theorem run_setCore (s : State) (k : Nat) (f : Core → Core) : (setCore k f).run s = s.putCore k (f (s.core k)) := rfl

@[simp] theorem State.thread_putThread (s : State) (k x : Nat) (h : Thread) :
    (s.putThread k h).thread x = if x = k then h else s.thread x := State.thread_put _ _ _ _
@[simp] theorem State.core_putCore (s : State) (k x : Nat) (h : Core) :
    (s.putCore k h).core x = if x = k then h else s.core x := State.core_put _ _ _ _
@[simp] theorem State.core_putThread (s : State) (k x : Nat) (h : Thread) : (s.putThread k h).core x = s.core x := rfl
@[simp] theorem State.thread_putCore (s : State) (k x : Nat) (h : Core) : (s.putCore k h).thread x = s.thread x := rfl

theorem NMap.put_put {α : Type} (m : NMap α) (x : Nat) (a b : α) : (m.put x a).put x b = m.put x b := by
  induction m with
  | nil => simp [NMap.put]
  | cons e t ih =>
    obtain ⟨k, v⟩ := e
    simp only [NMap.put]
    split
    · simp [NMap.put]
    · split
      · simp [NMap.put]
      · rename_i h1 h2
        simp [NMap.put, h1, h2, ih]

@[simp] theorem State.putThread_putThread (s : State) (k : Nat) (a b : Thread) : (s.putThread k a).putThread k b = s.putThread k b := by
  simp [State.putThread, NMap.put_put]
@[simp] theorem State.putCore_putCore (s : State) (k : Nat) (a b : Core) : (s.putCore k a).putCore k b = s.putCore k b := by
  simp [State.putCore, NMap.put_put]

/-- The state in which the step of an instruction has been counted. -/
def State.issued (s : State) (m : Mach) (cost : Nat) : State :=
  match m with
  | .eng e t =>
    { s.putThread (threadKey e t) { s.thread (threadKey e t) with steps := (s.thread (threadKey e t)).steps + cost } with
      grn := { (s.putThread (threadKey e t) { s.thread (threadKey e t) with steps := (s.thread (threadKey e t)).steps + cost }).grn with
        yields := s.yieldsAfter m } }
  | _ => s.putCore (coreKey m)
      { s.core (coreKey m) with fresh := false, wait := .none, steps := ((s.core (coreKey m)).steps + 1) % 2 ^ 64 }

/-- An instruction that issues and whose checks find nothing runs its body in the state in which its step is counted. -/
theorem run_issue (s : State) (m : Mach) (i : Instr) (cost : Nat) (check : Check) (body : Prog) (h : s.Issues m i cost)
    (hc : check s = none) : (issue m i cost check body).run s = body.run (s.issued m cost) := by
  obtain ⟨hr, hl, hm⟩ := h
  cases m with
  | eng e t =>
    obtain ⟨h1, h2, h3⟩ := hm
    have e1 : ¬ ((s.thread (threadKey e t)).pc < (s.thread (threadKey e t)).lo ∨ (s.thread (threadKey e t)).hi ≤ (s.thread (threadKey e t)).pc) := by omega
    have e2 : ¬ (s.thread (threadKey e t)).budget < (s.thread (threadKey e t)).steps + cost := by omega
    simp only [issue, Prog.run_get, hr, Prog.run_on_true, issueData, e1, hl, if_false, Bool.not_true, Bool.false_eq_true, hc, e2,
      Prog.run_all_cons, Prog.run_all_nil]
    rfl
  | ctl n =>
    obtain ⟨h1, h2⟩ := hm
    simp only [issue, Prog.run_get, hr, Prog.run_on_true, issueCore, h1, h2, ne_eq, not_true, if_false, if_true, Prog.run_seq, hl, Bool.not_true,
      Bool.false_eq_true, run_setCore, hc, Prog.run_all_cons, Prog.run_all_nil, State.core_putCore, State.putCore_putCore]
    rfl
  | cable =>
    obtain ⟨h1, h2⟩ := hm
    simp only [issue, Prog.run_get, hr, Prog.run_on_true, issueCore, h1, h2, ne_eq, not_true, if_false, if_true, Prog.run_seq, hl, Bool.not_true,
      Bool.false_eq_true, run_setCore, hc, Prog.run_all_cons, Prog.run_all_nil, State.core_putCore, State.putCore_putCore]
    rfl
  | secure =>
    obtain ⟨h1, h2⟩ := hm
    simp only [issue, Prog.run_get, hr, Prog.run_on_true, issueCore, h1, h2, ne_eq, not_true, if_false, if_true, Prog.run_seq, hl, Bool.not_true,
      Bool.false_eq_true, run_setCore, hc, Prog.run_all_cons, Prog.run_all_nil, State.core_putCore, State.putCore_putCore]
    rfl

/-- The state of a machine as the body of its instruction sees it. -/
theorem State.reg_issued (s : State) (m : Mach) (cost : Nat) (r : Reg) : (s.issued m cost).reg m r = s.reg m r := by
  cases m <;> simp [State.issued, State.reg, State.thread, State.core, State.putThread, State.putCore, State.thread_put, State.core_put]
theorem State.pc_issued (s : State) (m : Mach) (cost : Nat) : (s.issued m cost).pc m = s.pc m := by
  cases m <;> simp [State.issued, State.pc, State.thread, State.core, State.putThread, State.putCore, State.thread_put, State.core_put]

/-- The thread as the body of its instruction leaves it: the thread has executed one instruction. -/
theorem executed_thread (s : State) (e n cost pc : Nat) (regs : Reg → Word) (own : Thread → Thread) (h : Thread)
    (hr : ∀ r : Reg, regGet h.regs r.toNat = if r = 0 then 0 else regs r) (hp : h.pc = pc)
    (hs : h.steps = (s.thread (threadKey e n)).steps + cost)
    (ho : h = { own (s.thread (threadKey e n)) with regs := h.regs, pc := h.pc, steps := h.steps }) :
    s.Executed ((s.issued (.eng e n) cost).putThread (threadKey e n) h) (.eng e n) cost pc regs own := by
  have ht : ∀ k, ((s.issued (.eng e n) cost).putThread (threadKey e n) h).thread k = if k = threadKey e n then h else s.thread k := by
    intro k
    rw [State.thread_putThread]
    split
    · rfl
    · rename_i hk
      show (s.putThread (threadKey e n) _).thread k = _
      rw [State.thread_putThread, if_neg hk]
  constructor
  · intro r; simp only [State.reg, ht, if_true]; exact hr r
  · simp only [State.pc, ht, if_true]; exact hp
  · simp only [State.stepsOf, State.stepsAfter, ht, if_true]; exact hs
  · intro e' n' he; cases he; rw [ht, if_pos rfl]; exact ho
  · intro hc; exact Bool.noConfusion hc
  · intro k hk; rw [ht, if_neg (hk e n rfl)]
  · intro k _; rfl
  · rfl

/-- The core as the body of its instruction leaves it: the core has executed one instruction. -/
theorem executed_core (s : State) (m : Mach) (hm : m.isData = false) (cost pc : Nat) (regs : Reg → Word) (own : Thread → Thread) (c : Core)
    (hr : ∀ r : Reg, regGet c.regs r.toNat = if r = 0 then 0 else regs r) (hp : c.pc = pc)
    (hs : c.steps = ((s.core (coreKey m)).steps + 1) % 2 ^ 64)
    (ho : c = { s.core (coreKey m) with regs := c.regs, pc := c.pc, steps := c.steps, fresh := false, wait := .none }) :
    s.Executed ((s.issued m cost).putCore (coreKey m) c) m cost pc regs own := by
  have ht : ∀ k, ((s.issued m cost).putCore (coreKey m) c).core k = if k = coreKey m then c else s.core k := by
    intro k
    rw [State.core_putCore]
    split
    · rfl
    · rename_i hk
      cases m with
      | eng e n => exact Bool.noConfusion hm
      | ctl n => exact (State.core_putCore _ _ _ _).trans (if_neg hk)
      | cable => exact (State.core_putCore _ _ _ _).trans (if_neg hk)
      | secure => exact (State.core_putCore _ _ _ _).trans (if_neg hk)
  have hth : ((s.issued m cost).putCore (coreKey m) c).grn.threads = s.grn.threads := by cases m <;> first | rfl | exact Bool.noConfusion hm
  constructor
  · intro r; cases m <;> first | exact Bool.noConfusion hm | (simp only [State.reg, ht, if_true]; exact hr r)
  · cases m <;> first | exact Bool.noConfusion hm | (simp only [State.pc, ht, if_true]; exact hp)
  · cases m <;> first | exact Bool.noConfusion hm | (simp only [State.stepsOf, State.stepsAfter, ht, if_true]; exact hs)
  · intro e' n' he; subst he; exact Bool.noConfusion hm
  · intro _; rw [ht, if_pos rfl]; exact ho
  · intro k _; simp only [State.thread, hth]
  · intro k hk
    rw [ht]
    rcases hk with hk | hk
    · rw [hm] at hk; exact Bool.noConfusion hk
    · rw [if_neg hk]
  · cases m <;> rfl

theorem regGet_self (s : State) (m : Mach) (r : Reg) (l : NMap Word) (h : ∀ x, regGet l x = regGet (match m with
    | .eng e t => (s.thread (threadKey e t)).regs
    | _ => (s.core (coreKey m)).regs) x) : regGet l r.toNat = if r = 0 then 0 else s.reg m r := by
  rw [h]
  by_cases hr : r = 0
  · simp [hr, regGet]
  · simp only [hr, if_false]
    cases m <;> rfl

theorem toNat_eq_zero (r : Reg) : r.toNat = 0 ↔ r = 0 := by rw [← BitVec.toNat_inj]; rfl

/-- `rd` written on a machine's registers. -/
theorem regGet_put (s : State) (m : Mach) (rd r : Reg) (v : Word) (l : NMap Word) (h : l = (match m with
    | .eng e t => (s.thread (threadKey e t)).regs
    | _ => (s.core (coreKey m)).regs)) : regGet (regPut l rd.toNat v) r.toNat = if r = 0 then 0 else s.regsWith m rd v r := by
  rw [regGet_regPut, h]
  simp only [toNat_eq_zero, BitVec.toNat_inj, State.regsWith]
  rfl

/-- The body of an instruction sees its own thread with the step counted, and nothing else changed. -/
theorem thread_issued (s : State) (e n cost : Nat) : (s.issued (.eng e n) cost).thread (threadKey e n) =
    { s.thread (threadKey e n) with steps := (s.thread (threadKey e n)).steps + cost } := by
  show (s.putThread (threadKey e n) _).thread (threadKey e n) = _
  simp

theorem core_issued (s : State) (m : Mach) (cost : Nat) (h : m.isData = false) : (s.issued m cost).core (coreKey m) =
    { s.core (coreKey m) with fresh := false, wait := .none, steps := ((s.core (coreKey m)).steps + 1) % 2 ^ 64 } := by
  cases m <;> first | exact Bool.noConfusion h | simp [State.issued]

/-- `m`'s registers and pc written after its step is counted: the machine has executed one instruction. -/
theorem executed_write (s : State) (m : Mach) (cost : Nat) (rd : Reg) (v : Word) (pc : Nat) (hpc : m.isData = false → pc < 2 ^ 48) :
    s.Executed ((Prog.seq (wr m rd v) (setPc m pc)).run (s.issued m cost)) m cost pc (s.regsWith m rd v) := by
  cases m with
  | eng e n =>
    simp only [Prog.run_seq, wr, writeReg, setPc, run_setThread, State.thread_putThread, if_true, State.putThread_putThread, thread_issued]
    exact executed_thread s e n cost pc _ id _ (fun r => regGet_put s _ rd r v _ rfl) rfl rfl rfl
  | ctl n =>
    simp only [Prog.run_seq, wr, writeReg, setPc, run_setCore, State.core_putCore, if_true, State.putCore_putCore, core_issued _ (.ctl n) _ rfl]
    exact executed_core s (.ctl n) rfl cost pc _ id _ (fun r => regGet_put s (.ctl n) rd r v _ rfl) (Nat.mod_eq_of_lt (hpc rfl)) rfl rfl
  | cable =>
    simp only [Prog.run_seq, wr, writeReg, setPc, run_setCore, State.core_putCore, if_true, State.putCore_putCore, core_issued _ .cable _ rfl]
    exact executed_core s .cable rfl cost pc _ id _ (fun r => regGet_put s .cable rd r v _ rfl) (Nat.mod_eq_of_lt (hpc rfl)) rfl rfl
  | secure =>
    simp only [Prog.run_seq, wr, writeReg, setPc, run_setCore, State.core_putCore, if_true, State.putCore_putCore, core_issued _ .secure _ rfl]
    exact executed_core s .secure rfl cost pc _ id _ (fun r => regGet_put s .secure rd r v _ rfl) (Nat.mod_eq_of_lt (hpc rfl)) rfl rfl

/-- The pc alone written: no register changes. -/
theorem executed_pc (s : State) (m : Mach) (cost pc : Nat) (hpc : m.isData = false → pc < 2 ^ 48) :
    s.Executed ((setPc m pc).run (s.issued m cost)) m cost pc (s.reg m) := by
  cases m with
  | eng e n =>
    simp only [setPc, run_setThread, thread_issued]
    exact executed_thread s e n cost pc _ id _ (fun r => regGet_self s (.eng e n) r _ fun _ => rfl) rfl rfl rfl
  | ctl n =>
    simp only [setPc, run_setCore, core_issued _ (.ctl n) _ rfl]
    exact executed_core s (.ctl n) rfl cost pc _ id _ (fun r => regGet_self s (.ctl n) r _ fun _ => rfl) (Nat.mod_eq_of_lt (hpc rfl)) rfl rfl
  | cable =>
    simp only [setPc, run_setCore, core_issued _ .cable _ rfl]
    exact executed_core s .cable rfl cost pc _ id _ (fun r => regGet_self s .cable r _ fun _ => rfl) (Nat.mod_eq_of_lt (hpc rfl)) rfl rfl
  | secure =>
    simp only [setPc, run_setCore, core_issued _ .secure _ rfl]
    exact executed_core s .secure rfl cost pc _ id _ (fun r => regGet_self s .secure r _ fun _ => rfl) (Nat.mod_eq_of_lt (hpc rfl)) rfl rfl

theorem run_stepPc (m : Mach) (x s : State) (h : x.pc m = s.pc m) : (stepPc m).run x = (setPc m (pcAfter m (s.pc m))).run x := by
  have hx : ∀ n : Nat, (fun c : Core => ({ c with pc := n % 2 ^ 48 } : Core)) = fun c => { c with pc := n % 2 ^ 48 % 2 ^ 48 } := by
    intro n; simp
  cases m with
  | eng e t => simp only [stepPc, Prog.run_get, h, pcAfter]
  | ctl n => simp only [stepPc, Prog.run_get, h, pcAfter, setPc]; rw [hx]
  | cable => simp only [stepPc, Prog.run_get, h, pcAfter, setPc]; rw [hx]
  | secure => simp only [stepPc, Prog.run_get, h, pcAfter, setPc]; rw [hx]

/-- An instruction that writes one register and goes on. -/
theorem run_issueReg (s : State) (m : Mach) (i : Instr) (cost : Nat) (rd : Reg) (f : State → Word) (h : s.Issues m i cost) (v : Word)
    (hf : f (s.issued m cost) = v) :
    ∃ t, s.does (issueReg m i cost rd f) = .next t ∧ s.Executed t m cost (pcAfter m (s.pc m)) (s.regsWith m rd v) := by
  refine ⟨_, rfl, ?_⟩
  rw [issueReg, run_issue s m i cost noCheck _ h rfl, Prog.run_get, hf]
  have hpc : ((wr m rd v).run (s.issued m cost)).pc m = s.pc m := by
    rw [← State.pc_issued s m cost]
    cases m <;> simp [wr, writeReg, run_setThread, run_setCore, State.pc]
  rw [Prog.run_seq, run_stepPc m _ s hpc, ← Prog.run_seq]
  exact executed_write s m cost rd v _ (by intro hm; cases m <;> simp [pcAfter, Mach.isData] at hm ⊢ <;> omega)

theorem run_alu (s : State) (m : Mach) (i : Instr) (cost : Nat) (rd rs1 rs2 : Reg) (f : Word → Word → Word) (h : s.Issues m i cost) :
    ∃ t, s.does (alu m i cost rd rs1 rs2 f) = .next t ∧
      s.Executed t m cost (pcAfter m (s.pc m)) (s.regsWith m rd (f (s.reg m rs1) (s.reg m rs2))) :=
  run_issueReg s m i cost rd _ h _ (by simp [State.reg_issued])

theorem run_unary (s : State) (m : Mach) (i : Instr) (cost : Nat) (rd rs1 : Reg) (f : Word → Word) (h : s.Issues m i cost) :
    ∃ t, s.does (unary m i cost rd rs1 f) = .next t ∧
      s.Executed t m cost (pcAfter m (s.pc m)) (s.regsWith m rd (f (s.reg m rs1))) :=
  run_issueReg s m i cost rd _ h _ (by simp [State.reg_issued])

end Sys2Proof.Machine
end

