-- ==== Sys2Proof/Laws/Frame.lean ====
section
/-! SUPPORT. Frames of programs of effects: from the groups and registers that each effect may change to those of the whole. -/
namespace Sys2Proof.Machine

theorem State.same_refl (s : State) (g : Grp) : s.same s g := by cases g <;> simp [State.same]

theorem State.same_trans {s t u : State} {g : Grp} (h : s.same t g) (h' : t.same u g) : s.same u g := by
  cases g <;> simp only [State.same] at h h' ⊢
  case mem => exact fun a => (h' a).trans (h a)
  all_goals exact h'.trans h

theorem State.Keeps.refl (s : State) (gs : List Grp) (may : RegId → Nat → Nat → Bool) : s.Keeps s gs may :=
  ⟨rfl, rfl, fun _ _ => s.same_refl _, fun _ _ _ _ _ => rfl⟩

theorem State.Keeps.trans {s t u : State} {gs : List Grp} {may : RegId → Nat → Nat → Bool} (h : s.Keeps t gs may)
    (h' : t.Keeps u gs may) : s.Keeps u gs may :=
  ⟨h'.queue.trans h.queue, h'.clock.trans h.clock, fun g hg => State.same_trans (h.groups g hg) (h'.groups g hg),
    fun r i j hm hp => (h'.regs r i j hm hp).trans (h.regs r i j hm hp)⟩

theorem State.Keeps.mono {s t : State} {gs gs' : List Grp} {may may' : RegId → Nat → Nat → Bool} (h : s.Keeps t gs may)
    (hg : ∀ g ∈ gs, g ∈ gs') (hm : ∀ r i j, may r i j = true → may' r i j = true) : s.Keeps t gs' may' :=
  ⟨h.queue, h.clock, fun g hn => h.groups g fun hi => hn (hg g hi), fun r i j hn hp => h.regs r i j (by
    cases hc : may r i j
    · rfl
    · rw [hm r i j hc] at hn
      exact Bool.noConfusion hn) hp⟩

/-- A program changes nothing outside the groups and fields named, whatever the state. -/
def Prog.Within (p : Prog) (gs : List Grp) (may : RegId → Nat → Nat → Bool) : Prop := ∀ s : State, s.Keeps (p.run s) gs may

variable {gs : List Grp} {may : RegId → Nat → Nat → Bool}

theorem Prog.within_skip : Prog.skip.Within gs may := fun s => State.Keeps.refl s gs may
theorem Prog.within_seq {p q : Prog} (hp : p.Within gs may) (hq : q.Within gs may) : (Prog.seq p q).Within gs may :=
  fun s => (hp s).trans (hq _)
theorem Prog.within_get {k : State → Prog} (h : ∀ s, (k s).Within gs may) : (Prog.get k).Within gs may := fun s => h s s
theorem Prog.within_on {b : Bool} {p : Prog} (h : b = true → p.Within gs may) : (Prog.on b p).Within gs may := by
  cases b
  · exact Prog.within_skip
  · exact h rfl
theorem Prog.within_all_nil : (Prog.all []).Within gs may := Prog.within_skip
theorem Prog.within_all_cons {p : Prog} {l : List Prog} (hp : p.Within gs may) (hl : (Prog.all l).Within gs may) :
    (Prog.all (p :: l)).Within gs may := Prog.within_seq hp hl
theorem Prog.within_each {α : Type} {f : α → Prog} (h : ∀ a, (f a).Within gs may) : ∀ l : List α, (Prog.each l f).Within gs may
  | [] => Prog.within_skip
  | a :: l => Prog.within_seq (h a) (Prog.within_each h l)
theorem Prog.within_ite {c : Prop} [Decidable c] {p q : Prog} (hp : c → p.Within gs may) (hq : ¬ c → q.Within gs may) :
    (if c then p else q).Within gs may := by
  by_cases h : c
  · simpa [h] using hp h
  · simpa [h] using hq h

theorem Prog.within_reg {r : RegId} {i j v : Nat} (h : may r i j = true) : (Prog.act (.reg r i j v)).Within gs may := by
  intro s
  refine ⟨rfl, rfl, fun g _ => by cases g <;> first | rfl | exact fun _ => rfl, fun r' i' j' hm hp => ?_⟩
  refine RegFile.read_write_ne _ _ _ _ _ _ _ _ hp fun he => ?_
  obtain ⟨rfl, rfl, rfl⟩ := he
  rw [h] at hm
  exact Bool.noConfusion hm

theorem within_setF {r : RegId} {v i j : Nat} (h : may r i j = true) : (setF r v i j).Within gs may := Prog.within_reg h
theorem within_setB {r : RegId} {b : Bool} {i j : Nat} (h : may r i j = true) : (setB r b i j).Within gs may := Prog.within_reg h
theorem within_bump {r : RegId} {i j n : Nat} (h : may r i j = true) : (bump r i j n).Within gs may :=
  Prog.within_get fun _ => Prog.within_reg h
theorem within_drop1 {r : RegId} {i j : Nat} (h : may r i j = true) : (drop1 r i j).Within gs may :=
  Prog.within_get fun _ => Prog.within_reg h

/-- Effects on a group: what each may change. -/
theorem Prog.within_eff {e : Eff} {g : Grp} (hg : g ∈ gs)
    (h : ∀ s : State, (s.apply e).regs = s.regs ∧ ∀ g', g' ≠ g → s.same (s.apply e) g') : (Prog.act e).Within gs may := by
  intro s
  refine ⟨(State.apply_queue s e).1, (State.apply_queue s e).2, fun g' hn => (h s).2 g' fun he => hn (he ▸ hg), fun r i j _ _ => ?_⟩
  show (s.apply e).regs.read r i j = s.regs.read r i j
  rw [(h s).1]

theorem within_dev {f} (h : Grp.dev ∈ gs) : (Prog.act (.dev f)).Within gs may :=
  Prog.within_eff h fun s => ⟨rfl, fun g hg => by cases g <;> first | rfl | exact fun _ => rfl | exact absurd rfl hg⟩
theorem within_boot {f} (h : Grp.boot ∈ gs) : (Prog.act (.boot f)).Within gs may :=
  Prog.within_eff h fun s => ⟨rfl, fun g hg => by cases g <;> first | rfl | exact fun _ => rfl | exact absurd rfl hg⟩
theorem within_tmb {f} (h : Grp.tmb ∈ gs) : (Prog.act (.tmb f)).Within gs may :=
  Prog.within_eff h fun s => ⟨rfl, fun g hg => by cases g <;> first | rfl | exact fun _ => rfl | exact absurd rfl hg⟩
theorem within_chn {f} (h : Grp.chn ∈ gs) : (Prog.act (.chn f)).Within gs may :=
  Prog.within_eff h fun s => ⟨rfl, fun g hg => by cases g <;> first | rfl | exact fun _ => rfl | exact absurd rfl hg⟩
theorem within_grn {f} (h : Grp.grn ∈ gs) : (Prog.act (.grn f)).Within gs may :=
  Prog.within_eff h fun s => ⟨rfl, fun g hg => by cases g <;> first | rfl | exact fun _ => rfl | exact absurd rfl hg⟩
theorem within_sal {f} (h : Grp.sal ∈ gs) : (Prog.act (.sal f)).Within gs may :=
  Prog.within_eff h fun s => ⟨rfl, fun g hg => by cases g <;> first | rfl | exact fun _ => rfl | exact absurd rfl hg⟩
theorem within_rak {f} (h : Grp.rak ∈ gs) : (Prog.act (.rak f)).Within gs may :=
  Prog.within_eff h fun s => ⟨rfl, fun g hg => by cases g <;> first | rfl | exact fun _ => rfl | exact absurd rfl hg⟩
theorem within_lnk {f} (h : Grp.lnk ∈ gs) : (Prog.act (.lnk f)).Within gs may :=
  Prog.within_eff h fun s => ⟨rfl, fun g hg => by cases g <;> first | rfl | exact fun _ => rfl | exact absurd rfl hg⟩
theorem within_tun {f} (h : Grp.tun ∈ gs) : (Prog.act (.tun f)).Within gs may :=
  Prog.within_eff h fun s => ⟨rfl, fun g hg => by cases g <;> first | rfl | exact fun _ => rfl | exact absurd rfl hg⟩
theorem within_eth {f} (h : Grp.eth ∈ gs) : (Prog.act (.eth f)).Within gs may :=
  Prog.within_eff h fun s => ⟨rfl, fun g hg => by cases g <;> first | rfl | exact fun _ => rfl | exact absurd rfl hg⟩
theorem within_brg {f} (h : Grp.brg ∈ gs) : (Prog.act (.brg f)).Within gs may :=
  Prog.within_eff h fun s => ⟨rfl, fun g hg => by cases g <;> first | rfl | exact fun _ => rfl | exact absurd rfl hg⟩
theorem within_sig {f} (h : Grp.sig ∈ gs) : (Prog.act (.sig f)).Within gs may :=
  Prog.within_eff h fun s => ⟨rfl, fun g hg => by cases g <;> first | rfl | exact fun _ => rfl | exact absurd rfl hg⟩
theorem within_can {f} (h : Grp.can ∈ gs) : (Prog.act (.can f)).Within gs may :=
  Prog.within_eff h fun s => ⟨rfl, fun g hg => by cases g <;> first | rfl | exact fun _ => rfl | exact absurd rfl hg⟩
theorem within_dsp {f} (h : Grp.dsp ∈ gs) : (Prog.act (.dsp f)).Within gs may :=
  Prog.within_eff h fun s => ⟨rfl, fun g hg => by cases g <;> first | rfl | exact fun _ => rfl | exact absurd rfl hg⟩
theorem within_cbl {f} (h : Grp.cbl ∈ gs) : (Prog.act (.cbl f)).Within gs may :=
  Prog.within_eff h fun s => ⟨rfl, fun g hg => by cases g <;> first | rfl | exact fun _ => rfl | exact absurd rfl hg⟩
theorem within_key {f} (h : Grp.key ∈ gs) : (Prog.act (.key f)).Within gs may :=
  Prog.within_eff h fun s => ⟨rfl, fun g hg => by cases g <;> first | rfl | exact fun _ => rfl | exact absurd rfl hg⟩
theorem within_gau {f} (h : Grp.gau ∈ gs) : (Prog.act (.gau f)).Within gs may :=
  Prog.within_eff h fun s => ⟨rfl, fun g hg => by cases g <;> first | rfl | exact fun _ => rfl | exact absurd rfl hg⟩
theorem within_slt {f} (h : Grp.slt ∈ gs) : (Prog.act (.slt f)).Within gs may :=
  Prog.within_eff h fun s => ⟨rfl, fun g hg => by cases g <;> first | rfl | exact fun _ => rfl | exact absurd rfl hg⟩
theorem within_bus {f} (h : Grp.bus ∈ gs) : (Prog.act (.bus f)).Within gs may :=
  Prog.within_eff h fun s => ⟨rfl, fun g hg => by cases g <;> first | rfl | exact fun _ => rfl | exact absurd rfl hg⟩
theorem within_btn {f} (h : Grp.btn ∈ gs) : (Prog.act (.btn f)).Within gs may :=
  Prog.within_eff h fun s => ⟨rfl, fun g hg => by cases g <;> first | rfl | exact fun _ => rfl | exact absurd rfl hg⟩
theorem within_out {o} (h : Grp.out ∈ gs) : (Prog.act (.out o)).Within gs may :=
  Prog.within_eff h fun s => ⟨rfl, fun g hg => by cases g <;> first | rfl | exact fun _ => rfl | exact absurd rfl hg⟩
theorem within_emitOut {k args bs} (h : Grp.out ∈ gs) : (emitOut k args bs).Within gs may := within_out h
theorem within_draw (h : Grp.drawn ∈ gs) : (Prog.act .draw).Within gs may :=
  Prog.within_eff h fun s => ⟨rfl, fun g hg => by cases g <;> first | rfl | exact fun _ => rfl | exact absurd rfl hg⟩
theorem within_mem {a bs} (h : Grp.mem ∈ gs) : (Prog.act (.mem a bs)).Within gs may :=
  Prog.within_eff h fun s => ⟨rfl, fun g hg => by cases g <;> first | rfl | exact fun _ => rfl | exact absurd rfl hg⟩
theorem within_stage {r} (h : Grp.btn ∈ gs) : (Prog.act (.stage r)).Within gs may :=
  Prog.within_eff h fun s => by
    simp only [State.apply]
    split
    · exact ⟨rfl, fun g hg => by cases g <;> first | rfl | exact fun _ => rfl | exact absurd rfl hg⟩
    · exact ⟨rfl, fun g _ => s.same_refl g⟩
theorem within_shadow {r i j v} (h : Grp.shadows ∈ gs) : (Prog.act (.shadow r i j v)).Within gs may :=
  Prog.within_eff h fun s => by
    simp only [State.apply]
    split
    · exact ⟨rfl, fun g hg => by cases g <;> first | rfl | exact fun _ => rfl | exact absurd rfl hg⟩
    · exact ⟨rfl, fun g _ => s.same_refl g⟩

/-- A record of the log changes the log, its two status fields and its counter. -/
theorem within_stageRec {blk code sev chan detail} (h : Grp.btn ∈ gs) (h1 : may .BTN_LOST_RECORDS 0 0 = true)
    (h2 : may .BTN_STATUS_OVERFLOW 0 0 = true) : (stageRec blk code sev chan detail).Within gs may := by
  refine Prog.within_get fun s => ?_
  dsimp only
  have a := @within_stage gs may
  split <;> split
  case isTrue.isTrue | isFalse.isTrue =>
    exact Prog.within_all_cons (within_btn h) (Prog.within_all_cons (within_bump h1) (Prog.within_all_cons (within_setF h2) Prog.within_all_nil))
  case isTrue.isFalse => exact Prog.within_all_cons (within_btn h) (Prog.within_all_cons (within_stage h) Prog.within_all_nil)
  case isFalse.isFalse =>
    split
    · exact Prog.within_all_cons (within_stage h) (Prog.within_all_cons (within_btn h) (Prog.within_all_cons (within_bump h1)
        (Prog.within_all_cons (within_setF h2) Prog.within_all_nil)))
    · exact Prog.within_all_cons (within_stage h) (Prog.within_all_cons (within_btn h) (Prog.within_all_cons (within_stage h) Prog.within_all_nil))

theorem within_logRec {blk code sev chan detail} (h : Grp.btn ∈ gs) (h1 : may .BTN_LOST_RECORDS 0 0 = true)
    (h2 : may .BTN_STATUS_OVERFLOW 0 0 = true) : (logRec blk code sev chan detail).Within gs may := within_stageRec h h1 h2

/-- A record that the log can take. -/
theorem run_logRec (s : State) (blk code sev : Nat) (chan : Option Nat) (detail : Nat) (h : s.canLog) :
    (logRec blk code sev chan detail).run s = { s with btn := { s.btn with
      staged := s.btn.staged ++ [⟨s.moment, s.btn.logSeq % 2 ^ 20, s.raw .SYS_STATE_CHAIN_POS, blk, sev, code, chan, detail⟩]
      logSeq := (s.btn.logSeq + 1) % 2 ^ 20 } } := by
  obtain ⟨h1, h2⟩ := h
  have h3 : stagingCap - s.btn.staged.length ≠ 0 := by omega
  simp only [logRec, stageRec, Prog.run_get, h1, if_true, h3, if_false, Prog.run_all_cons, Prog.run_act, Prog.run_all_nil, State.apply, h2]
  simp

end Sys2Proof.Machine
end

