-- ==== Sys2Proof/Laws/Exec.lean ====
section
/-! SUPPORT. Every command is a program of effects, so it completes. -/
namespace Sys2Proof.Machine

theorem exec_does (i : Instr) (s : State) : ∃ p : Prog, exec i s = s.does p := by cases i <;> exact ⟨_, rfl⟩

end Sys2Proof.Machine
end

