-- ==== Sys2Proof/WellFormed.lean ====
section
/-! DEFINITION. Well-formed commands: machines, masters, ports, controllers and table indices that exist, grainer instructions that a
decoder accepts, bus accesses of a legal size. -/
namespace Sys2Proof

/-- Engines are 0 to 95, threads 0 to 15, control cores 0 to 3 (R94, R96, R119). -/
def Mach.ok : Mach → Bool
  | .eng e t => decide (e < 96) && decide (t < 16)
  | .ctl n => decide (n < 4)
  | .cable | .secure => true

/-- Control cores and host links are 0 to 3, movers 0 to 15 (R119, R319, R342). -/
def Master.ok : Master → Bool
  | .core n | .host n => decide (n < 4)
  | .mover m => decide (m < 16)
  | .secure => true

/-- A bus access of 1, 2, 4 or 8 bytes, with a value that fits (R7, R11). -/
def busOk (size value : Nat) : Bool := [1, 2, 4, 8].contains size && decide (value < 2 ^ (8 * size))

/-- Machine, master and access of a command. -/
def Instr.partsOk (i : Instr) : Bool :=
  match i with
  | .registerWrite m _ size value => m.ok && busOk size value
  | .regUnmapped _ _ => true
  | .lowWordRead _ => true
  | .lowWordWrite _ _ => true
  | .highWordWrite _ _ => true
  | .commit _ => true
  | .abandon _ => true
  | .commitBoundary _ => true
  | .quiesce _ => true
  | .quiesceDone _ => true
  | .quiesceRelease _ => true
  | .paceUpdate _ => true
  | .paceBelowFloor => true
  | .paceSafeTimeout => true
  | .tbandChange _ => true
  | .setpointWrite _ => true
  | .regulatorCompletion => true
  | .avsTimeout => true
  | .paceMinClear _ => true
  | .warmReset _ => true
  | .coldReset _ => true
  | .holdTrigger => true
  | .tableEnable _ => true
  | .channelAreaWrite _ _ => true
  | .poolWrite _ _ => true
  | .unitIngress _ => true
  | .cacheMissComplete _ _ => true
  | .chnFetchFail _ _ => true
  | .unitDispatch _ => true
  | .arm _ => true
  | .go _ => true
  | .drain _ => true
  | .resume _ => true
  | .clearFault _ => true
  | .clearStats _ => true
  | .drainComplete _ => true
  | .commitPoint => true
  | .shadowRelease _ => true
  | .illegalInstruction m _ => m.ok
  | .add m _ _ _ => m.ok
  | .sub m _ _ _ => m.ok
  | .grnAnd m _ _ _ => m.ok
  | .grnOr m _ _ _ => m.ok
  | .grnXor m _ _ _ => m.ok
  | .andn m _ _ _ => m.ok
  | .sll m _ _ _ => m.ok
  | .srl m _ _ _ => m.ok
  | .sra m _ _ _ => m.ok
  | .ror m _ _ _ => m.ok
  | .mul m _ _ _ => m.ok
  | .mulhu m _ _ _ => m.ok
  | .mulh m _ _ _ => m.ok
  | .divu m _ _ _ => m.ok
  | .div m _ _ _ => m.ok
  | .remu m _ _ _ => m.ok
  | .rem m _ _ _ => m.ok
  | .min m _ _ _ => m.ok
  | .max m _ _ _ => m.ok
  | .minu m _ _ _ => m.ok
  | .maxu m _ _ _ => m.ok
  | .clz m _ _ => m.ok
  | .popc m _ _ => m.ok
  | .addi m _ _ _ => m.ok
  | .andi m _ _ _ => m.ok
  | .ori m _ _ _ => m.ok
  | .xori m _ _ _ => m.ok
  | .shi m _ _ _ _ => m.ok
  | .lih m _ _ _ => m.ok
  | .swapH m _ _ => m.ok
  | .swapW m _ _ => m.ok
  | .swapD m _ _ => m.ok
  | .beq m _ _ _ => m.ok
  | .bne m _ _ _ => m.ok
  | .blt m _ _ _ => m.ok
  | .bge m _ _ _ => m.ok
  | .bltu m _ _ _ => m.ok
  | .bgeu m _ _ _ => m.ok
  | .beqi m _ _ _ => m.ok
  | .bnei m _ _ _ => m.ok
  | .jal m _ _ => m.ok
  | .jalr m _ _ _ => m.ok
  | .ext m _ _ _ _ => m.ok
  | .exts m _ _ _ _ => m.ok
  | .ins m _ _ _ _ => m.ok
  | .scale m _ _ _ _ _ _ _ => m.ok
  | .fcvt m _ _ _ _ _ => m.ok
  | .ldu m _ _ _ _ _ => m.ok
  | .stu m _ _ _ _ => m.ok
  | .ldc m _ _ _ _ _ => m.ok
  | .stc m _ _ _ _ => m.ok
  | .ldt m _ _ _ _ _ => m.ok
  | .ldk m _ _ _ _ _ => m.ok
  | .stk m _ _ _ _ => m.ok
  | .ldm m _ _ _ _ _ => m.ok
  | .stm m _ _ _ _ => m.ok
  | .lookup m _ _ _ _ => m.ok
  | .meter m _ _ _ _ _ _ => m.ok
  | .stamp m _ => m.ok
  | .enq m _ _ _ _ => m.ok
  | .emit m _ _ _ _ => m.ok
  | .drop m _ => m.ok
  | .mark m _ => m.ok
  | .grnSeal m _ => m.ok
  | .move m _ _ _ _ _ => m.ok
  | .acq m _ _ _ => m.ok
  | .rel m _ => m.ok
  | .msg m _ _ _ _ => m.ok
  | .waitc m _ _ _ _ => m.ok
  | .semaphoreGrant _ => true
  | .creditGrant m => m.ok
  | .waitLimit m => m.ok
  | .threadResume m => m.ok
  | .fence m => m.ok
  | .yield m => m.ok
  | .done m => m.ok
  | .trap m _ => m.ok
  | .eret m => m.ok
  | .wfi m => m.ok
  | .interrupt m _ => m.ok
  | .csrr m _ _ => m.ok
  | .csrw m _ _ => m.ok
  | .kload m _ _ _ => m.ok
  | .kderive m _ _ _ => m.ok
  | .kwrap m _ _ _ => m.ok
  | .kdrop m _ _ _ => m.ok
  | .lcstep m _ _ _ => m.ok
  | .grnStoreEcc m => m.ok
  | .grnPoolEcc _ => true
  | .harvestRelease _ => true
  | .hrvGap _ => true
  | .register _ => true
  | .unregister _ => true
  | .parcelSend _ => true
  | .parcelReceive _ _ _ => true
  | .filler _ _ => true
  | .ack _ _ => true
  | .nak _ _ => true
  | .ackTimeout _ => true
  | .lnkReplayLimit _ => true
  | .powerHalf _ _ => true
  | .powerDeep _ _ => true
  | .laneReq _ _ => true
  | .laneGrant _ _ => true
  | .laneRefuse _ _ => true
  | .retrainReq _ _ => true
  | .join _ _ => true
  | .trainCtl _ _ => true
  | .marker _ _ _ => true
  | .lnkLockLost _ _ => true
  | .trainingFrame _ _ _ _ => true
  | .detectComplete _ => true
  | .trainComplete _ _ => true
  | .reverseComplete _ _ => true
  | .alignComplete _ _ _ => true
  | .trainPhaseTimeout _ _ => true
  | .halfIdleTimeout _ => true
  | .deepIdleTimeout _ => true
  | .sleepEntry _ _ => true
  | .directionWake _ => true
  | .eyeMonUpdate _ _ => true
  | .retrainTimeout _ _ => true
  | .laneSwitch _ => true
  | .laneDrive _ => true
  | .laneChangeTimeout _ => true
  | .lnkDown _ => true
  | .slip _ _ => true
  | .eyeScanStart _ => true
  | .eyeScanComplete _ _ _ => true
  | .dataParcel _ => true
  | .fillerParcel _ _ => true
  | .hello _ => true
  | .helloTimer _ => true
  | .estReq _ => true
  | .estAck _ => true
  | .estNak _ => true
  | .estRetry _ _ => true
  | .allotReq _ => true
  | .allotAck _ => true
  | .allotNak _ => true
  | .allotTimeout _ => true
  | .epochStart => true
  | .holdReport _ => true
  | .holdConfirm _ => true
  | .confirm _ _ _ _ => true
  | .localEnd _ => true
  | .sync _ => true
  | .followUp _ => true
  | .pdelayReq _ => true
  | .pdelayResp _ => true
  | .pdelayFollow _ => true
  | .syncInterval _ => true
  | .pdelayInterval _ => true
  | .syncReceiptTimeout => true
  | .ctl _ => true
  | .egressStart _ _ => true
  | .egressComplete _ => true
  | .lostFlakeTimeout _ => true
  | .refill => true
  | .flush _ => true
  | .flushComplete _ => true
  | .berthDrain _ => true
  | .berthOff _ => true
  | .berthRestore _ => true
  | .ethFrameReceive _ _ _ => true
  | .transmissionOpportunity _ => true
  | .gateChange _ => true
  | .sluiceConfigChange _ => true
  | .ethLinkUp _ _ => true
  | .ethLinkDown _ => true
  | .ptpAnnounce _ _ _ _ _ _ => true
  | .ptpSync _ _ => true
  | .ptpFollowUp _ _ _ => true
  | .ptpPdelayReq _ _ => true
  | .ptpPdelayResp _ _ _ => true
  | .ptpPdelayRespFollowUp _ _ _ => true
  | .ptpSignaling _ => true
  | .announceInterval _ => true
  | .pciTlpReceive _ _ _ => true
  | .pciCompletionReceive _ _ _ _ => true
  | .pciRequestIssue _ => true
  | .pciLinkUp _ _ _ _ => true
  | .pciLinkDown _ => true
  | .perstAssert _ => true
  | .perstRelease _ => true
  | .pwerrPop => true
  | .raise => true
  | .brgMove => true
  | .prefetchDiscard => true
  | .semLeaseExpiry _ => true
  | .atomicEmulation _ _ _ => true
  | .moverStart _ => true
  | .moverComplete _ _ _ => true
  | .movRestart _ => true
  | .mailboxResponse _ => true
  | .localBusTransfer _ => true
  | .localBusComplete _ _ _ => true
  | .uartReceive _ _ _ _ => true
  | .sigUnit => true
  | .cyclicTrigger _ => true
  | .pack => true
  | .gpioSet => true
  | .gpioTransition _ _ => true
  | .gpioDebounce _ => true
  | .canFrameReceive _ _ _ _ _ => true
  | .canFrameSent _ => true
  | .canTxTimeout _ => true
  | .canBusError _ _ _ _ => true
  | .canBusRecover _ => true
  | .canRestart _ => true
  | .vblankStart _ => true
  | .headCommit _ => true
  | .headAbandon _ => true
  | .present => true
  | .tileUpdate _ => true
  | .tileApply _ => true
  | .psrEntry _ _ => true
  | .dspUnderrun _ => true
  | .hpdLoss _ => true
  | .auxFailure _ => true
  | .hpdReturn _ => true
  | .dspTrainingComplete _ _ _ _ => true
  | .dspPllUnlock _ => true
  | .ccAttach _ _ _ _ _ _ _ _ => true
  | .ccDetach _ => true
  | .vbusRise _ => true
  | .pdSourceCapabilities _ _ => true
  | .pdRequest _ _ _ _ _ => true
  | .pdPsRdy _ _ _ => true
  | .pdPrSwap _ => true
  | .pdDrSwap _ => true
  | .pdVconnSwap _ => true
  | .pdHardReset _ => true
  | .pdEprKeepalive _ => true
  | .pdEprMode _ _ => true
  | .pdDiscoverIdentity _ => true
  | .pdDiscoverSvids _ => true
  | .pdDiscoverModes _ _ => true
  | .pdEnterMode _ _ _ => true
  | .pdExitMode _ => true
  | .pdAttention _ _ _ => true
  | .pdDpStatusUpdate _ _ => true
  | .pdDpConfigure _ _ => true
  | .pdAccept _ => true
  | .pdReject _ => true
  | .pdWait _ => true
  | .pdSoftReset _ => true
  | .swapPr _ => true
  | .swapDr _ => true
  | .swapVconn _ => true
  | .enterAvrath _ _ _ _ _ => true
  | .enterDp _ _ _ _ => true
  | .exitMode _ => true
  | .hardReset _ => true
  | .recaps _ => true
  | .swapRetry _ => true
  | .cblMuxWrite _ _ => true
  | .cblTrip _ _ _ => true
  | .cblVconnOc _ => true
  | .cableCoreRestart => true
  | .policyConfirm => true
  | .trialTimeout => true
  | .imgRevert => true
  | .safeSourceTimeout _ => true
  | .ceilingTimeout _ => true
  | .status => true
  | .random _ => true
  | .nodeAlloc _ _ => true
  | .nodeInvalidate _ => true
  | .invalidationPoint => true
  | .slotZeroise _ => true
  | .nodeFree _ => true
  | .keyGenerate _ _ => true
  | .keyLoad _ _ => true
  | .keyDrop _ => true
  | .keyExport _ _ => true
  | .keyImport _ _ _ _ => true
  | .attest _ => true
  | .dataSeal _ _ => true
  | .dataOpen _ _ => true
  | .imageAuth _ => true
  | .svnCommit => true
  | .ceilingSet _ _ _ _ _ => true
  | .selftestCfg _ _ _ => true
  | .safeEnter => true
  | .safeRelease => true
  | .lcTransition _ => true
  | .returnPrepare _ => true
  | .ownerSet _ => true
  | .testEnter => true
  | .zeroise => true
  | .poolLoad _ => true
  | .poolBusyTimeout _ => true
  | .keyVaultEcc _ => true
  | .entropySample _ => true
  | .periodicSample _ _ => true
  | .snapshot _ _ => true
  | .clear _ _ => true
  | .snapshotClear _ _ => true
  | .ringWrite => true
  | .btnPop => true
  | .log => true
  | .sliceStart _ _ => true
  | .sliceEnd _ _ _ _ => true
  | .sliceAbort => true
  | .sliceRetry _ _ => true
  | .sltForced _ _ => true
  | .bypass => true
  | .idcode => true
  | .samplePreload => true
  | .usercode => true
  | .extest => true
  | .extestPulse => true
  | .extestTrain => true
  | .testEngineAccess _ _ _ => true
  | .thermalHigh _ _ => true
  | .thermalTrip _ => true
  | .thermalRelease _ => true
  | .powerUp => true
  | .railGroupEnable => true
  | .railFault _ => true
  | .railRetry => true
  | .pgoodRise _ => true
  | .pgoodFall => true
  | .refLock => true
  | .refFault => true
  | .refLost => true
  | .epmasAuthenticated _ _ _ _ _ _ _ => true
  | .dramTrained _ _ => true
  | .startupSelftestDone _ => true
  | .firmwareAuthenticated _ _ _ _ _ _ => true
  | .standbyEnter _ => true
  | .wakeNFall => true
  | .porn => true
  | .powerLoss => true
  | .blkReset _ _ => true
  | .xspiRead m _ => m.ok
  | .xspiProgram m _ => m.ok
  | .xspiErase m => m.ok
  | .xspiComplete _ _ => true
  | .vinLoss => true
  | .ppsPulse => true
  | .irqHpd _ _ => true
  | .ackInterval _ => true
  | .policyHandover _ _ _ => true
  | .keyCall m _ => m.ok
  | .swapTimeout _ => true
  | .canRejoin _ => true

/-- Indices of a command, each with the number of things it counts: ports, heads, controllers, slots and the rest. -/
def Instr.indices (i : Instr) : List (Nat × Nat) :=
  match i with
  | .registerWrite _ addr _ _ => [(addr, 281474976710656)]
  | .regUnmapped _ addr => [(addr, 281474976710656)]
  | .lowWordRead addr => [(addr, 281474976710656)]
  | .lowWordWrite addr _ => [(addr, 281474976710656)]
  | .highWordWrite addr _ => [(addr, 281474976710656)]
  | .commit blk => [(blk, 128)]
  | .abandon blk => [(blk, 128)]
  | .commitBoundary blk => [(blk, 128)]
  | .quiesce blk => [(blk, 128)]
  | .quiesceDone blk => [(blk, 128)]
  | .quiesceRelease blk => [(blk, 128)]
  | .paceUpdate _ => []
  | .paceBelowFloor => []
  | .paceSafeTimeout => []
  | .tbandChange _ => []
  | .setpointWrite _ => []
  | .regulatorCompletion => []
  | .avsTimeout => []
  | .paceMinClear _ => []
  | .warmReset _ => []
  | .coldReset _ => []
  | .holdTrigger => []
  | .tableEnable _ => []
  | .channelAreaWrite _ _ => []
  | .poolWrite word _ => [(word, 524288)]
  | .unitIngress _ => []
  | .cacheMissComplete chan _ => [(chan, 131072)]
  | .chnFetchFail chan _ => [(chan, 131072)]
  | .unitDispatch berth => [(berth, 32)]
  | .arm chan => [(chan, 131072)]
  | .go chan => [(chan, 131072)]
  | .drain chan => [(chan, 131072)]
  | .resume chan => [(chan, 131072)]
  | .clearFault chan => [(chan, 131072)]
  | .clearStats chan => [(chan, 131072)]
  | .drainComplete chan => [(chan, 131072)]
  | .commitPoint => []
  | .shadowRelease _ => []
  | .illegalInstruction _ _ => []
  | .add _ _ _ _ => []
  | .sub _ _ _ _ => []
  | .grnAnd _ _ _ _ => []
  | .grnOr _ _ _ _ => []
  | .grnXor _ _ _ _ => []
  | .andn _ _ _ _ => []
  | .sll _ _ _ _ => []
  | .srl _ _ _ _ => []
  | .sra _ _ _ _ => []
  | .ror _ _ _ _ => []
  | .mul _ _ _ _ => []
  | .mulhu _ _ _ _ => []
  | .mulh _ _ _ _ => []
  | .divu _ _ _ _ => []
  | .div _ _ _ _ => []
  | .remu _ _ _ _ => []
  | .rem _ _ _ _ => []
  | .min _ _ _ _ => []
  | .max _ _ _ _ => []
  | .minu _ _ _ _ => []
  | .maxu _ _ _ _ => []
  | .clz _ _ _ => []
  | .popc _ _ _ => []
  | .addi _ _ _ _ => []
  | .andi _ _ _ _ => []
  | .ori _ _ _ _ => []
  | .xori _ _ _ _ => []
  | .shi _ _ _ _ _ => []
  | .lih _ _ _ _ => []
  | .swapH _ _ _ => []
  | .swapW _ _ _ => []
  | .swapD _ _ _ => []
  | .beq _ _ _ _ => []
  | .bne _ _ _ _ => []
  | .blt _ _ _ _ => []
  | .bge _ _ _ _ => []
  | .bltu _ _ _ _ => []
  | .bgeu _ _ _ _ => []
  | .beqi _ _ _ _ => []
  | .bnei _ _ _ _ => []
  | .jal _ _ _ => []
  | .jalr _ _ _ _ => []
  | .ext _ _ _ _ _ => []
  | .exts _ _ _ _ _ => []
  | .ins _ _ _ _ _ => []
  | .scale _ _ _ _ _ _ _ _ => []
  | .fcvt _ _ _ _ _ _ => []
  | .ldu _ _ _ _ _ _ => []
  | .stu _ _ _ _ _ => []
  | .ldc _ _ _ _ _ _ => []
  | .stc _ _ _ _ _ => []
  | .ldt _ _ _ _ _ _ => []
  | .ldk _ _ _ _ _ _ => []
  | .stk _ _ _ _ _ => []
  | .ldm _ _ _ _ _ _ => []
  | .stm _ _ _ _ _ => []
  | .lookup _ _ _ _ _ => []
  | .meter _ _ _ _ _ _ _ => []
  | .stamp _ _ => []
  | .enq _ _ _ _ _ => []
  | .emit _ _ _ _ _ => []
  | .drop _ _ => []
  | .mark _ _ => []
  | .grnSeal _ _ => []
  | .move _ _ _ _ _ _ => []
  | .acq _ _ _ _ => []
  | .rel _ _ => []
  | .msg _ _ _ _ _ => []
  | .waitc _ _ _ _ _ => []
  | .semaphoreGrant sem => [(sem, 64)]
  | .creditGrant _ => []
  | .waitLimit _ => []
  | .threadResume _ => []
  | .fence _ => []
  | .yield _ => []
  | .done _ => []
  | .trap _ _ => []
  | .eret _ => []
  | .wfi _ => []
  | .interrupt _ blk => [(blk, 128)]
  | .csrr _ _ _ => []
  | .csrw _ _ _ => []
  | .kload _ _ _ _ => []
  | .kderive _ _ _ _ => []
  | .kwrap _ _ _ _ => []
  | .kdrop _ _ _ _ => []
  | .lcstep _ _ _ _ => []
  | .grnStoreEcc _ => []
  | .grnPoolEcc word => [(word, 524288)]
  | .harvestRelease slot => [(slot, 4096)]
  | .hrvGap slot => [(slot, 4096)]
  | .register slot => [(slot, 64)]
  | .unregister slot => [(slot, 64)]
  | .parcelSend port => [(port, 6)]
  | .parcelReceive port _ _ => [(port, 6)]
  | .filler port _ => [(port, 6)]
  | .ack port _ => [(port, 6)]
  | .nak port _ => [(port, 6)]
  | .ackTimeout port => [(port, 6)]
  | .lnkReplayLimit port => [(port, 6)]
  | .powerHalf port _ => [(port, 6)]
  | .powerDeep port _ => [(port, 6)]
  | .laneReq port _ => [(port, 6)]
  | .laneGrant port _ => [(port, 6)]
  | .laneRefuse port _ => [(port, 6)]
  | .retrainReq port _ => [(port, 6)]
  | .join port _ => [(port, 6)]
  | .trainCtl port _ => [(port, 6)]
  | .marker port lane _ => [(port, 6), (lane, 4)]
  | .lnkLockLost port lane => [(port, 6), (lane, 4)]
  | .trainingFrame port lane _ _ => [(port, 6), (lane, 4)]
  | .detectComplete port => [(port, 6)]
  | .trainComplete port _ => [(port, 6)]
  | .reverseComplete port _ => [(port, 6)]
  | .alignComplete port _ _ => [(port, 6)]
  | .trainPhaseTimeout port _ => [(port, 6)]
  | .halfIdleTimeout port => [(port, 6)]
  | .deepIdleTimeout port => [(port, 6)]
  | .sleepEntry port _ => [(port, 6)]
  | .directionWake port => [(port, 6)]
  | .eyeMonUpdate port _ => [(port, 6)]
  | .retrainTimeout port lane => [(port, 6), (lane, 4)]
  | .laneSwitch port => [(port, 6)]
  | .laneDrive port => [(port, 6)]
  | .laneChangeTimeout port => [(port, 6)]
  | .lnkDown port => [(port, 6)]
  | .slip port lane => [(port, 6), (lane, 4)]
  | .eyeScanStart port => [(port, 6)]
  | .eyeScanComplete port _ _ => [(port, 6)]
  | .dataParcel port => [(port, 6)]
  | .fillerParcel port _ => [(port, 6)]
  | .hello port => [(port, 6)]
  | .helloTimer port => [(port, 6)]
  | .estReq port => [(port, 6)]
  | .estAck port => [(port, 6)]
  | .estNak port => [(port, 6)]
  | .estRetry port chan => [(port, 6), (chan, 131072)]
  | .allotReq port => [(port, 6)]
  | .allotAck port => [(port, 6)]
  | .allotNak port => [(port, 6)]
  | .allotTimeout port => [(port, 6)]
  | .epochStart => []
  | .holdReport port => [(port, 6)]
  | .holdConfirm port => [(port, 6)]
  | .confirm port _ _ _ => [(port, 6)]
  | .localEnd _ => []
  | .sync port => [(port, 6)]
  | .followUp port => [(port, 6)]
  | .pdelayReq port => [(port, 6)]
  | .pdelayResp port => [(port, 6)]
  | .pdelayFollow port => [(port, 6)]
  | .syncInterval port => [(port, 26)]
  | .pdelayInterval port => [(port, 26)]
  | .syncReceiptTimeout => []
  | .ctl port => [(port, 6)]
  | .egressStart group port => [(group, 13), (port, 32)]
  | .egressComplete q => [(q, 16384)]
  | .lostFlakeTimeout q => [(q, 16384)]
  | .refill => []
  | .flush q => [(q, 16384)]
  | .flushComplete q => [(q, 16384)]
  | .berthDrain berth => [(berth, 32)]
  | .berthOff berth => [(berth, 32)]
  | .berthRestore berth => [(berth, 32)]
  | .ethFrameReceive port _ _ => [(port, 10)]
  | .transmissionOpportunity port => [(port, 10)]
  | .gateChange port => [(port, 10)]
  | .sluiceConfigChange port => [(port, 10)]
  | .ethLinkUp port _ => [(port, 10)]
  | .ethLinkDown port => [(port, 10)]
  | .ptpAnnounce port _ _ _ _ _ => [(port, 10)]
  | .ptpSync port _ => [(port, 10)]
  | .ptpFollowUp port _ _ => [(port, 10)]
  | .ptpPdelayReq port _ => [(port, 10)]
  | .ptpPdelayResp port _ _ => [(port, 10)]
  | .ptpPdelayRespFollowUp port _ _ => [(port, 10)]
  | .ptpSignaling port => [(port, 10)]
  | .announceInterval port => [(port, 10)]
  | .pciTlpReceive ctrl _ _ => [(ctrl, 4)]
  | .pciCompletionReceive ctrl _ _ _ => [(ctrl, 4)]
  | .pciRequestIssue ctrl => [(ctrl, 4)]
  | .pciLinkUp ctrl _ _ _ => [(ctrl, 4)]
  | .pciLinkDown ctrl => [(ctrl, 4)]
  | .perstAssert ctrl => [(ctrl, 4)]
  | .perstRelease ctrl => [(ctrl, 4)]
  | .pwerrPop => []
  | .raise => []
  | .brgMove => []
  | .prefetchDiscard => []
  | .semLeaseExpiry sem => [(sem, 64)]
  | .atomicEmulation ctrl _ _ => [(ctrl, 4)]
  | .moverStart m => [(m, 16)]
  | .moverComplete m _ _ => [(m, 16)]
  | .movRestart m => [(m, 16)]
  | .mailboxResponse mbox => [(mbox, 31)]
  | .localBusTransfer k => [(k, 16)]
  | .localBusComplete k _ _ => [(k, 16)]
  | .uartReceive k _ _ _ => [(k, 2)]
  | .sigUnit => []
  | .cyclicTrigger chan => [(chan, 131072)]
  | .pack => []
  | .gpioSet => []
  | .gpioTransition _ _ => []
  | .gpioDebounce _ => []
  | .canFrameReceive ctrl _ _ _ _ => [(ctrl, 8)]
  | .canFrameSent ctrl => [(ctrl, 8)]
  | .canTxTimeout ctrl => [(ctrl, 8)]
  | .canBusError ctrl _ _ _ => [(ctrl, 8)]
  | .canBusRecover ctrl => [(ctrl, 8)]
  | .canRestart ctrl => [(ctrl, 8)]
  | .vblankStart head => [(head, 4)]
  | .headCommit head => [(head, 4)]
  | .headAbandon head => [(head, 4)]
  | .present => []
  | .tileUpdate head => [(head, 4)]
  | .tileApply head => [(head, 4)]
  | .psrEntry head _ => [(head, 4)]
  | .dspUnderrun head => [(head, 4)]
  | .hpdLoss head => [(head, 4)]
  | .auxFailure head => [(head, 4)]
  | .hpdReturn head => [(head, 4)]
  | .dspTrainingComplete head _ _ _ => [(head, 4)]
  | .dspPllUnlock head => [(head, 4)]
  | .ccAttach port _ _ _ _ _ _ _ => [(port, 6)]
  | .ccDetach port => [(port, 6)]
  | .vbusRise port => [(port, 6)]
  | .pdSourceCapabilities port _ => [(port, 6)]
  | .pdRequest port _ _ _ _ => [(port, 6)]
  | .pdPsRdy port _ _ => [(port, 6)]
  | .pdPrSwap port => [(port, 6)]
  | .pdDrSwap port => [(port, 6)]
  | .pdVconnSwap port => [(port, 6)]
  | .pdHardReset port => [(port, 6)]
  | .pdEprKeepalive port => [(port, 6)]
  | .pdEprMode port _ => [(port, 6)]
  | .pdDiscoverIdentity port => [(port, 6)]
  | .pdDiscoverSvids port => [(port, 6)]
  | .pdDiscoverModes port _ => [(port, 6)]
  | .pdEnterMode port _ _ => [(port, 6)]
  | .pdExitMode port => [(port, 6)]
  | .pdAttention port _ _ => [(port, 6)]
  | .pdDpStatusUpdate port _ => [(port, 6)]
  | .pdDpConfigure port _ => [(port, 6)]
  | .pdAccept port => [(port, 6)]
  | .pdReject port => [(port, 6)]
  | .pdWait port => [(port, 6)]
  | .pdSoftReset port => [(port, 6)]
  | .swapPr port => [(port, 6)]
  | .swapDr port => [(port, 6)]
  | .swapVconn port => [(port, 6)]
  | .enterAvrath port _ _ _ _ => [(port, 6)]
  | .enterDp port _ _ _ => [(port, 6)]
  | .exitMode port => [(port, 6)]
  | .hardReset port => [(port, 6)]
  | .recaps port => [(port, 6)]
  | .swapRetry port => [(port, 6)]
  | .cblMuxWrite port _ => [(port, 6)]
  | .cblTrip port _ _ => [(port, 6)]
  | .cblVconnOc port => [(port, 6)]
  | .cableCoreRestart => []
  | .policyConfirm => []
  | .trialTimeout => []
  | .imgRevert => []
  | .safeSourceTimeout port => [(port, 6)]
  | .ceilingTimeout port => [(port, 6)]
  | .status => []
  | .random _ => []
  | .nodeAlloc _ _ => []
  | .nodeInvalidate node => [(node, 65536)]
  | .invalidationPoint => []
  | .slotZeroise slot => [(slot, 256)]
  | .nodeFree node => [(node, 65536)]
  | .keyGenerate node slot => [(node, 65536), (slot, 256)]
  | .keyLoad _ slot => [(slot, 256)]
  | .keyDrop slot => [(slot, 256)]
  | .keyExport slot _ => [(slot, 256)]
  | .keyImport _ _ node slot => [(node, 65536), (slot, 256)]
  | .attest _ => []
  | .dataSeal slot _ => [(slot, 256)]
  | .dataOpen slot _ => [(slot, 256)]
  | .imageAuth _ => []
  | .svnCommit => []
  | .ceilingSet port _ _ _ _ => [(port, 6)]
  | .selftestCfg _ _ _ => []
  | .safeEnter => []
  | .safeRelease => []
  | .lcTransition _ => []
  | .returnPrepare _ => []
  | .ownerSet _ => []
  | .testEnter => []
  | .zeroise => []
  | .poolLoad chan => [(chan, 131072)]
  | .poolBusyTimeout chan => [(chan, 131072)]
  | .keyVaultEcc slot => [(slot, 256)]
  | .entropySample _ => []
  | .periodicSample _ _ => []
  | .snapshot _ _ => []
  | .clear _ _ => []
  | .snapshotClear _ _ => []
  | .ringWrite => []
  | .btnPop => []
  | .log => []
  | .sliceStart _ _ => []
  | .sliceEnd _ _ _ _ => []
  | .sliceAbort => []
  | .sliceRetry _ _ => []
  | .sltForced _ _ => []
  | .bypass => []
  | .idcode => []
  | .samplePreload => []
  | .usercode => []
  | .extest => []
  | .extestPulse => []
  | .extestTrain => []
  | .testEngineAccess _ _ _ => []
  | .thermalHigh _ _ => []
  | .thermalTrip _ => []
  | .thermalRelease _ => []
  | .powerUp => []
  | .railGroupEnable => []
  | .railFault _ => []
  | .railRetry => []
  | .pgoodRise _ => []
  | .pgoodFall => []
  | .refLock => []
  | .refFault => []
  | .refLost => []
  | .epmasAuthenticated _ _ _ _ _ _ _ => []
  | .dramTrained _ _ => []
  | .startupSelftestDone _ => []
  | .firmwareAuthenticated _ _ _ _ _ _ => []
  | .standbyEnter _ => []
  | .wakeNFall => []
  | .porn => []
  | .powerLoss => []
  | .blkReset blk _ => [(blk, 128)]
  | .xspiRead _ _ => []
  | .xspiProgram _ _ => []
  | .xspiErase _ => []
  | .xspiComplete _ _ => []
  | .vinLoss => []
  | .ppsPulse => []
  | .irqHpd head _ => [(head, 4)]
  | .ackInterval port => [(port, 6)]
  | .policyHandover _ _ _ => []
  | .keyCall _ addr => [(addr, 281474976710656)]
  | .swapTimeout port => [(port, 6)]
  | .canRejoin ctrl => [(ctrl, 8)]

/-- Every check on a command. -/
def Instr.wf (i : Instr) : Bool := i.partsOk && grnLegal i && i.indices.all fun x => decide (x.1 < x.2)

end Sys2Proof
end

