-- ==== Sys2Proof/Tests/Slice0.lean ====
section
/-! SUPPORT. Tests: a small state that meets the hypotheses of each statement, and one step on it, with results worked out from
the spec's rules; instruction words written out from the spec's encodings; ill-formed commands that WellFormed refuses. -/
namespace Sys2Proof.Tests
open Sys2Proof Sys2Proof.Machine
-- one theorem at a time: the threads of many at once would take too much memory
set_option Elab.async false

/-- The state after a command; the state itself where the command answered no next state. -/
def after (s : State) (c : Instr) : State :=
  match exec c s with
  | .next t => t
  | _ => s

/-- Reset, but in another device state. -/
def inDev (d : Dev) : State := { State.reset with dev := { DevPart.reset with st := d } }
def run0 : State := inDev .run

/-- Some register fields set: field, instance, index, value. -/
def with_ (s : State) (l : List (RegId × Nat × Nat × Nat)) : State :=
  { s with regs := l.foldl (fun f x => f.write x.1 x.2.1 x.2.2.1 x.2.2.2) s.regs }

/-- The invariant, as a test. -/
def okB (s : State) : Bool :=
  s.mem.wf && s.regs.wf && s.shadows.legalAll && s.taken.legalAll && decide (s.btn.staged.length ≤ stagingCap) &&
    decide (s.btn.logSeq < 2 ^ 20) && decide (s.moment < 2 ^ 64)

theorem inv_of_okB (s : State) (h : okB s = true) : s.Inv := by
  simp only [okB, Bool.and_eq_true, decide_eq_true_eq] at h
  exact ⟨h.1.1.1.1.1.1, h.1.1.1.1.1.2, h.1.1.1.1.2, h.1.1.1.2, h.1.1.2, h.1.2, h.2⟩

theorem test_reset_inv : State.Inv State.reset := inv_of_okB _ (by decide)

/-- The state can log a record: the hypothesis of the statements that write one. -/
def logB (s : State) : Bool := decide (s.btn.discards = 0) && decide (s.btn.staged.length < stagingCap)

theorem canLog_of_logB (s : State) (h : logB s = true) : s.canLog := by
  simp only [logB, Bool.and_eq_true, decide_eq_true_eq] at h
  exact h

/-- The last record written has this block, code, severity, channel and detail. -/
def recIs (s : State) (blk code sev : Nat) (chan : Option Nat) (detail : Nat) : Bool :=
  match s.btn.staged.getLast? with
  | some r => r.blk == blk && r.code == code && r.sev == sev && r.chan == chan && r.detail == detail
  | none => false

/-- The last output has this sink and these numbers. -/
def outIs (s : State) (k : Sink) (args : List Nat) : Bool :=
  match s.out with
  | o :: _ => o.sink == k && o.args == args
  | [] => false

/-- The frame, as a test: the groups outside `gs` and every field but the listed ones are as they were. -/
def frameB (s t : State) (gs : List Grp) (may : List RegId) : Bool :=
  let g (x : Grp) (b : Bool) : Bool := gs.contains x || b
  let rest (f : RegFile) : RegFile := f.filter fun e => !may.contains e.2.reg
  t.pending == s.pending && t.clock == s.clock && rest t.regs == rest s.regs &&
  g .moment (t.moment == s.moment) && g .shadows (t.shadows == s.shadows) && g .taken (t.taken == s.taken) && g .mem (t.mem == s.mem) &&
  g .bus (t.bus == s.bus) && g .btn (t.btn == s.btn) && g .dev (t.dev == s.dev) && g .boot (t.boot == s.boot) && g .tmb (t.tmb == s.tmb) &&
  g .chn (t.chn == s.chn) && g .grn (t.grn == s.grn) && g .sal (t.sal == s.sal) && g .rak (t.rak == s.rak) && g .lnk (t.lnk == s.lnk) &&
  g .tun (t.tun == s.tun) && g .eth (t.eth == s.eth) && g .brg (t.brg == s.brg) && g .sig (t.sig == s.sig) && g .can (t.can == s.can) &&
  g .dsp (t.dsp == s.dsp) && g .cbl (t.cbl == s.cbl) && g .key (t.key == s.key) && g .gau (t.gau == s.gau) && g .slt (t.slt == s.slt) &&
  g .drawn (t.drawn == s.drawn) && g .out (t.out == s.out)

theorem test_run_inv : run0.Inv := inv_of_okB _ (by decide)
theorem test_run_logs : run0.canLog := canLog_of_logB _ (by decide)
theorem test_paceUpdate : run0.coreAlive = true ∧ run0.moment % 4096 = 0 ∧ RegId.SYS_PACE_PACE.legal 3000 = true ∧
    (after run0 (.paceUpdate 3000)).raw .SYS_PACE_PACE = 3000 ∧ (after run0 (.paceUpdate 3000)).raw .SYS_PACE_MIN_PACE_MIN = 3000 ∧
    (after run0 (.paceUpdate 3000)).dev.below = 1 := by decide +kernel
def low4 : State := { run0 with dev := { run0.dev with below := 16 } }
theorem test_paceBelowFloor : okB low4 = true ∧ low4.fld .SYS_PACE_GUARD_BELOW_COUNT ≤ low4.dev.below ∧ low4.raw .SYS_POWER_TRANSIT = 0 ∧ logB low4 = true ∧
    recIs (after low4 .paceBelowFloor) 1 1 3 none 0 = true ∧ (after low4 .paceBelowFloor).dev.target = 1 ∧
    (after low4 .paceBelowFloor).raw .SYS_POWER_TRANSIT = 1 := by decide +kernel

def expert3 : State := with_ run0 [(.BLK_STATUS_LEVEL_ACTIVE, 0x03, 0, 1)]
theorem test_write_rw : okB run0 = true ∧ run0.coreAlive = true ∧
    (after run0 (.registerWrite (.host 0) 0x00100108 4 0xFFFFFFFD)).raw .TMB_CFG_REF_SRC = 1 ∧
    frameB run0 (after run0 (.registerWrite (.host 0) 0x00100108 4 0xFFFFFFFD)) [.grn] [.TMB_CFG_REF_SRC] = true := by decide +kernel
theorem test_write_reserved : logB run0 = true ∧ recIs (after run0 (.registerWrite .secure 0x00100108 4 3)) 2 0xF001 2 none 0x108 = true ∧
    frameB run0 (after run0 (.registerWrite .secure 0x00100108 4 3)) [.grn, .btn] [] = true := by decide +kernel
theorem test_write_rws : (after run0 (.registerWrite (.core 1) 0x00400104 4 77)).shadow .GRN_WAIT_LIMIT_US = 77 ∧
    frameB run0 (after run0 (.registerWrite (.core 1) 0x00400104 4 77)) [.grn, .shadows] [] = true := by decide +kernel
theorem test_write_basic : run0.level 0x03 = 0 ∧ frameB run0 (after run0 (.registerWrite (.core 1) 0x00200200 4 77)) [.grn] [] = true := by decide +kernel
theorem test_write_expert : okB expert3 = true ∧ expert3.level 0x03 = 1 ∧
    (after expert3 (.registerWrite (.core 1) 0x00200200 4 77)).shadow .CHN_FAULT_WINDOW_MS = 77 ∧
    frameB expert3 (after expert3 (.registerWrite (.core 1) 0x00200200 4 77)) [.grn, .shadows] [] = true := by decide +kernel
theorem test_write_w1c : let s := with_ run0 [(.TMB_STATUS_STEPPED, 0, 0, 1)]
    (after s (.registerWrite (.core 1) 0x0010010C 4 4)).raw .TMB_STATUS_STEPPED = 0 ∧
    (after s (.registerWrite (.core 1) 0x0010010C 4 3)).raw .TMB_STATUS_STEPPED = 1 := by decide +kernel
theorem test_write_ro : frameB run0 (after run0 (.registerWrite (.core 1) 0x00000100 4 0)) [.grn] [] = true := by decide +kernel
theorem test_write_narrow : recIs (after run0 (.registerWrite (.core 1) 0x00100108 2 1)) 2 0xF002 2 none 0x108 = true ∧
    recIs (after run0 (.registerWrite (.core 1) 0x00100108 1 1)) 2 0xF002 2 none 0x108 = true ∧
    frameB run0 (after run0 (.registerWrite (.core 1) 0x00100108 1 1)) [.grn, .btn] [] = true := by decide +kernel
theorem test_unmapped : spotOf 0x00900000 = none ∧ recIs (after run0 (.regUnmapped true 0x00900000)) 1 0xF003 2 none 0x00900000 = true ∧
    recIs (after run0 (.regUnmapped false 0x00900000)) 1 0xF003 2 none 0x00900000 = true ∧
    outIs (after run0 (.regUnmapped false 0x00900000)) .bus [0] = true ∧
    recIs (after run0 (.regUnmapped false 0x00100300)) 2 0xF003 2 none 0x00100300 = true ∧
    outIs (after run0 (.regUnmapped false 0x00100300)) .bus [0] = true := by decide +kernel
def halfWritten : State := after run0 (.lowWordWrite 0x03090108 0x89ABCDEF)
theorem test_lowWordWrite : halfWritten.bus.low.get? 0x03090108 = some 0x89ABCDEF ∧ frameB run0 halfWritten [.bus, .grn] [] = true := by decide +kernel
theorem test_highWordWrite : okB halfWritten = true ∧ (after halfWritten (.highWordWrite 0x0309010C 0xFFFF0001)).raw .XSPI_BUF_ADDR = 0x000189ABCDEF ∧
    run0.bus.low.get? 0x03090108 = none ∧ (after run0 (.highWordWrite 0x0309010C 0x00010002)).raw .XSPI_BUF_ADDR = 0x200000000 ∧
    frameB halfWritten (after halfWritten (.highWordWrite 0x0309010C 0xFFFF0001)) [.bus, .grn] [.XSPI_BUF_ADDR] = true := by decide +kernel
theorem test_lowWordRead : let s := { run0 with moment := 0x123456789A }
    outIs (after s (.lowWordRead 0x00100100)) .bus [0x3456789A] = true ∧
    (after s (.lowWordRead 0x00100100)).bus.snap.get? 0x00100100 = some 0x12 := by decide +kernel
def shadowed : State := after run0 (.registerWrite (.core 0) 0x00600100 4 (300 + 400 * 2 ^ 16))
def committing : State := after shadowed (.commit 0x05)
theorem test_commit : okB shadowed = true ∧ blockIds.contains 0x05 = true ∧ committing.raw .BLK_STATUS_COMMIT_PENDING 5 = 1 ∧
    committing.taken.look .HRV_CFG_TIMEOUT_US 0 0 = some 300 ∧ frameB shadowed committing [.taken] [.BLK_STATUS_COMMIT_PENDING] = true := by decide +kernel
theorem test_commit_refused : okB committing = true ∧ (after committing (.commit 5)).raw .BLK_STATUS_BUSY_REFUSED 5 = 1 ∧
    frameB committing (after committing (.commit 5)) [] [.BLK_STATUS_BUSY_REFUSED] = true := by decide +kernel
theorem test_abandon : (after committing (.abandon 5)).raw .BLK_STATUS_COMMIT_PENDING 5 = 0 ∧
    (after committing (.abandon 5)).shadow .HRV_CFG_TIMEOUT_US = 2000 ∧ (after committing (.abandon 5)).taken = [] := by decide +kernel
theorem test_commitBoundary : committing.taken.look .BLK_CTRL_LEVEL 5 0 = none ∧ (after committing (.commitBoundary 5)).raw .HRV_CFG_TIMEOUT_US = 300 ∧
    (after committing (.commitBoundary 5)).raw .BLK_STATUS_RESULT 5 = 1 ∧ (after committing (.commitBoundary 5)).raw .BLK_COMMIT_COUNT_DONE_COUNT 5 = 1 ∧
    (after committing (.commitBoundary 5)).shadows = [] := by decide +kernel
def tornTun : State := after (after run0 (.registerWrite (.core 0) 0x00A00100 4 2)) (.commit 0x18)
theorem test_commit_torn : let s := with_ tornTun [(.BLK_STATUS_LEVEL_ACTIVE, 0x18, 0, 1), (.TUN_TIMERS_ALLOT_TIMEOUT_US, 0, 0, 500)]
    okB s = true ∧ s.raw .BLK_STATUS_COMMIT_PENDING 0x18 = 1 ∧ s.atBoundary 0x18 = true ∧ s.judged.pairFault 0x18 ≠ 0 ∧
    (after s (.commitBoundary 0x18)).raw .BLK_STATUS_RESULT 0x18 = 2 ∧ recIs (after s (.commitBoundary 0x18)) 0x18 0xF004 2 none (2 + 2 ^ 32) = true ∧
    frameB s (after s (.commitBoundary 0x18)) [.taken, .btn] [.BLK_STATUS_COMMIT_PENDING, .BLK_STATUS_RESULT, .BLK_COMMIT_COUNT_REJECT_COUNT] = true := by
  decide +kernel
def busy3 : State := { run0 with chn := { run0.chn with misses := [5] } }
theorem test_quiesce : run0.blkBusy 3 = false ∧ busy3.blkBusy 3 = true ∧ (after run0 (.quiesce 3)).raw .BLK_STATUS_QUIESCED 3 = 1 ∧
    (after busy3 (.quiesce 3)).raw .BLK_STATUS_QUIESCED 3 = 0 ∧ (after busy3 (.quiesce 3)).raw .BLK_CTRL_QUIESCE 3 = 1 := by decide +kernel
theorem test_quiesceDone : let s := with_ run0 [(.BLK_CTRL_QUIESCE, 3, 0, 1)]
    (after s (.quiesceDone 3)).raw .BLK_STATUS_QUIESCED 3 = 1 ∧ okB s = true ∧
    (after (after s (.quiesceDone 3)) (.quiesceRelease 3)).raw .BLK_STATUS_QUIESCED 3 = 0 := by decide +kernel

/-- An entry in basic level: type, state, HOLD, with further bytes set. -/
def mkEntry (ty st : Nat) (hold : Bool) (more : List (Nat × Nat × Nat) := []) : List Byte :=
  leBytes 64 (more.foldl (fun n x => n + x.2.2 * 2 ^ (8 * x.1 + x.2.1)) (ty + 16 * st + hold.toNat * 2 ^ 17))

/-- The channel table at the foot of 1 GiB of DRAM, on, with some entries. -/
def tabled (s : State) (es : List (Nat × List Byte)) : State :=
  let s := with_ s [(.CHN_AREA_BASE_BASE, 0, 0, 1024), (.CHN_CFG_ENABLE, 0, 0, 1)]
  { s with boot := { s.boot with gib := 1 }, mem := es.foldl (fun m e => m.writes (0x10_0000_0000 + 64 * e.1) e.2) s.mem }
def line3 : State := tabled run0 [(7, mkEntry 5 csLive false), (9, mkEntry 5 csLive true), (11, mkEntry 5 csArmed false)]

theorem test_warmReset : okB run0 = true ∧ run0.flowing = true ∧ run0.raw .CHN_CFG_ENABLE = 0 ∧
    (let s := with_ (after shadowed (.lowWordWrite 0x03090108 5)) [(.HRV_GAPS_GAPS, 0, 0, 5), (.SYS_HOLD_CFG_GRACE, 0, 0, 9)]
     let t := after s (.warmReset 0xB7A3)
     t.raw .SYS_RESET_CAUSE_CAUSE = 3 ∧ t.raw .SYS_HOLD_CFG_GRACE = 9 ∧ t.raw .HRV_GAPS_GAPS = 0 ∧ t.shadow .HRV_CFG_TIMEOUT_US = 300 ∧ t.bus = ⟨[], [], s.bus.full⟩ ∧
     recIs (after s (.warmReset 0xB7A2)) 1 6 2 none 0 = true) := by decide +kernel
theorem test_warmReset_table : okB line3 = true ∧ line3.hostLoc = false ∧ line3.inDram line3.area (2 ^ 26) = true ∧
    (let t := after line3 (.warmReset 0xB7A3)
     t.chanState 7 = csHeld ∧ t.chanState 9 = csLive ∧ t.chanState 11 = csArmed) := by decide +kernel
theorem test_coldReset : let s := { line3 with dev := { line3.dev with safeLatch := true, latchCause := 2 }, moment := 77 }
    let t := after s (.coldReset 0xB7A3)
    t.dev.st = .boot ∧ t.moment = 0 ∧ t.mem = [] ∧ t.dev.safeLatch = true ∧ t.raw .SYS_RESET_CAUSE_CAUSE = 2 ∧ t.raw .CHN_CFG_ENABLE = 0 ∧
    recIs (after s (.coldReset 0)) 1 6 2 none 0 = true := by decide +kernel
def lossy : State := { line3 with dev := { line3.dev with heldBoth := 1, lossSince := some 0 }, clock := 3 * ms }
theorem test_holdTrigger : okB lossy = true ∧ lossy.holdDue = true ∧ logB lossy = true ∧ 0 + lossy.raw .SYS_HOLD_CFG_GRACE * ms ≤ lossy.clock ∧
    (let t := after lossy .holdTrigger
     t.dev.st = .hold ∧ recIs t 1 3 1 none 0 = true ∧ t.chanState 7 = csHeld ∧ t.chanState 9 = csLive ∧ t.raw .SYS_HOLD_STATUS_ENTER_COUNT = 1 ∧
     t.dev.target = 3 ∧ frameB lossy t [.mem, .dev, .btn, .out] [.SYS_HOLD_STATUS_ENTER_COUNT, .SYS_POWER_PACE_RAISE, .SYS_POWER_TRANSIT] = true) := by
  decide +kernel
theorem test_hold_early : let s := { lossy with clock := ms }
    s.clock < 0 + s.raw .SYS_HOLD_CFG_GRACE * ms ∧ after s .holdTrigger = s ∧ run0.holdDue = false := by decide +kernel
theorem test_blkReset : let s := with_ run0 [(.BLK_STATUS_QUIESCED, 0x23, 0, 1), (.ETH_STATUS_LINK_DOWNS, 3, 0, 9), (.ETH_STATUS_LINK_DOWNS, 4, 0, 9)]
    let t := after s (.blkReset 0x23 0xB7A3)
    t.raw .ETH_STATUS_LINK_DOWNS 3 = 0 ∧ t.raw .ETH_STATUS_LINK_DOWNS 4 = 9 ∧ recIs t 1 9 1 none 0x23 = true ∧
    (after run0 (.blkReset 0x23 0xB7A3)).raw .BLK_STATUS_BUSY_REFUSED 0x23 = 1 ∧ resettable 0x48 = false ∧
    recIs (after s (.blkReset 0x48 0xB7A3)) 1 6 2 none 0 = true ∧ recIs (after s (.blkReset 0x23 1)) 1 6 2 none 0 = true := by decide +kernel

/-- A secure core that runs, with some registers. -/
def secureWith (s : State) (regs : List (Nat × Nat)) : State :=
  { s with
    boot := { s.boot with gib := 1 }
    grn := { s.grn with ctl := s.grn.ctl.put 12 { Core.reset with regs := regs.map fun r => (r.1, BitVec.ofNat 64 r.2) } } }
def keyNodes : NMap Node := [(0, ⟨0, 0, true, 0, 0⟩), (2, ⟨0, 1, true, 0, 0⟩), (9, ⟨2, 2, true, 7, 3⟩)]
def vault (slots : NMap VaultSlot) (s : State) : State := { s with key := { s.key with nodes := keyNodes, slots := slots } }
def linkSlot : VaultSlot := ⟨[1, 2, 3], 2, 1, 0, 0, none, 0, false⟩
def keyedSlot : VaultSlot := ⟨[4, 5, 6], 9, 2, 3, 0, none, 0, false⟩
def dram0 : Nat := 0x10_0000_0000
theorem key_issues (i : Instr) (s : State) (h : (s.ready .secure && grnLegal i && (s.core 12).pc % 4 == 0 && (s.core 12).allowsAll (s.core 12).pc 4 10) = true) :
    s.Issues .secure i 0 := by
  simp only [Bool.and_eq_true, beq_iff_eq] at h
  exact ⟨h.1.1.1, h.1.1.2, h.1.2, h.2⟩
def deriving_ : State := vault [(2, linkSlot)] { secureWith run0 [(1, dram0), (2, 2 + 8 * 256)] with mem := [(dram0, 9)] }
theorem kderive_issues : deriving_.Issues .secure (.kderive .secure 3 1 2) 0 := key_issues _ _ (by decide +kernel)
theorem test_kderive : (deriving_.core 12).allowsAll dram0 32 8 = true ∧ deriving_.inDram dram0 32 = true ∧ deriving_.slot 2 = some linkSlot ∧
    deriving_.slotOrphaned 2 = false ∧ (deriving_.node 9).inUse = true ∧ (deriving_.node 9).parent = linkSlot.node ∧
    (let t := after deriving_ (.kderive .secure 3 1 2)
     (t.slot 8).map (·.node) = some 9 ∧ t.reg .secure 3 = 0 ∧ t.pc .secure = 4) := by decide +kernel
theorem test_kderive_bad : (after (secureWith run0 [(1, dram0), (2, 65536)]) (.kderive .secure 3 1 2)).reg .secure 3 = 6 ∧
    (after (secureWith run0 [(1, dram0), (2, 2)]) (.kderive .secure 3 1 2)).reg .secure 3 = 1 ∧
    (after (with_ deriving_ [(.KEY_STATUS_ZEROISED, 0, 0, 1)]) (.kderive .secure 3 1 2)).reg .secure 3 = 5 ∧
    (after { deriving_ with key := { deriving_.key with slots := [(2, linkSlot), (8, keyedSlot)] } } (.kderive .secure 3 1 2)).reg .secure 3 = 2 := by
  decide +kernel
theorem kload_issues : (secureWith run0 [(1, dram0), (2, 20)]).Issues .secure (.kload .secure 3 1 2) 0 := key_issues _ _ (by decide +kernel)
theorem test_kload : (after (secureWith run0 [(1, dram0), (2, 20)]) (.kload .secure 3 1 2)).reg .secure 3 = 6 ∧
    (after (secureWith run0 [(1, dram0 + 8), (2, 20)]) (.kload .secure 3 1 2)).reg .secure 3 = 6 ∧
    (after (with_ (secureWith run0 [(1, dram0), (2, 20)]) [(.KEY_STATUS_ZEROISED, 0, 0, 1)]) (.kload .secure 3 1 2)).reg .secure 3 = 5 := by decide +kernel
def wrapping : State := vault [(2, linkSlot), (8, keyedSlot)] (secureWith run0 [(1, dram0), (2, 8 + 2 * 256)])
theorem kwrap_issues : wrapping.Issues .secure (.kwrap .secure 3 1 2) 0 := key_issues _ _ (by decide +kernel)
theorem test_kwrap : wrapping.slotOrphaned 8 = false ∧ (wrapping.node 9).depth = 2 ∧ wrapping.mem.wf = true ∧
    (let t := after wrapping (.kwrap .secure 3 1 2)
     t.reg .secure 3 = 0 ∧ t.pc .secure = 4) ∧ wrapping.blobHead 9 = [0x31, 0x4C, 0x42, 0x4B, 1, 2, 9, 0, 0, 0, 0, 0, 3, 0, 0, 0, 7] ++ List.replicate 15 0 := by
  decide +kernel
theorem kdrop_issues : wrapping.Issues .secure (.kdrop .secure 3 0 4) 0 := key_issues _ _ (by decide +kernel)
theorem test_kdrop : let t := after (vault [(2, linkSlot), (8, keyedSlot)] (secureWith run0 [(4, 8)])) (.kdrop .secure 3 0 4)
    t.slot 8 = none ∧ t.slot 2 = some linkSlot ∧ t.reg .secure 3 = 0 ∧
    (after (secureWith run0 [(4, 256)]) (.kdrop .secure 3 0 4)).reg .secure 3 = 6 := by decide +kernel
theorem lcstep_issues : (secureWith run0 [(1, dram0), (2, 3)]).Issues .secure (.lcstep .secure 3 1 2) 0 := key_issues _ _ (by decide +kernel)
theorem test_lcstep : lcAllowed run0.key.lifecycle 3 = none ∧ (after (secureWith run0 [(1, dram0), (2, 3)]) (.lcstep .secure 3 1 2)).reg .secure 3 = 5 ∧
    (after (secureWith run0 [(1, dram0), (2, 8)]) (.lcstep .secure 3 1 2)).reg .secure 3 = 6 ∧
    (after (secureWith run0 [(1, dram0), (2, 1)]) (.lcstep .secure 3 1 2)).reg .secure 3 = 4 := by decide +kernel

/-- One unit in a harvest slot. -/
def aFlow : Flow := { blankFlow with chan := 7, bytes := [1, 2, 3], slot := some 5 }
def aSlot : HSlot := { blankSlot with unit := some 1, chan := 7, moment := 100, order := 100 * 2 ^ 32 + 77 }
def harvesting (h : HSlot) (moment clock : Nat) : State := { (with_ run0 [(.SAL_QCFG_ENABLE, 0, 3, 1), (.SAL_QCFG_BERTH, 0, 3, 18)]) with
  moment := moment
  clock := clock
  sal := { run0.sal with units := [(1, aFlow)], nextUnit := 2 }
  grn := { run0.grn with harvest := [(5, h)], nextSlot := 6 } }
theorem test_harvestRelease : let s := harvesting { aSlot with retired := true } 116 0
    s.grn.harvest.get? 5 = some { aSlot with retired := true } ∧ s.earlierSlots 5 { aSlot with retired := true } = [] ∧
    (let t := after s (.harvestRelease 5)
     t.grn.harvest = [] ∧ t.sal.units = [] ∧ frameB s t [.grn, .sal] [] = true) ∧
    after { s with moment := 115 } (.harvestRelease 5) = { s with moment := 115 } := by decide +kernel
theorem test_harvestRelease_enq : let h := { aSlot with retired := true, enq := some (3 * 2 ^ 8 + 18, false, false) }
    let s := harvesting h 116 0
    s.enqCheck 3 18 aFlow.flakes 0xFFFF false = 0 ∧ s.wouldSpill 3 aFlow.flakes = false ∧ s.sal.soft.headD 0 ≠ 6 ∧
    (let t := after s (.harvestRelease 5)
     t.grn.harvest = [] ∧ t.queue 3 = [⟨1, 1, false, false, false, 0, 0, false⟩] ∧ frameB s t [.grn, .sal] [] = true) := by decide +kernel
theorem test_harvest_held : let h := { aSlot with retired := true }
    let s := { harvesting h 116 0 with grn := { run0.grn with harvest := [(4, { aSlot with order := 7 }), (5, h)] } }
    s.earlierSlots 5 h ≠ [] ∧ after s (.harvestRelease 5) = s := by decide +kernel
theorem test_hrvGap : let s := harvesting aSlot 116 (2000 * us)
    logB s = true ∧ (let t := after s (.hrvGap 5)
     t.grn.harvest = [(5, { aSlot with gap := true })] ∧ t.raw .HRV_GAPS_GAPS = 1 ∧ recIs t 5 1 2 (some 7) (100 + 77 * 2 ^ 64) = true ∧
     frameB s t [.grn, .btn] [.HRV_GAPS_GAPS] = true) ∧
    after { s with clock := 2000 * us - 1 } (.hrvGap 5) = { s with clock := 2000 * us - 1 } := by decide +kernel

/-- A Data image of 40 bytes with no entries at pool word 0, its CRC in place. -/
def imageBody : List Byte := leBytes 4 0x47524E31 ++ [0, 1, 0, 0] ++ leBytes 4 32 ++ leBytes 4 40 ++ leBytes 8 0 ++ leBytes 4 0xABCD
def image0 : List Byte := imageBody ++ leBytes 4 (crc32 (imageBody ++ [0, 0, 0, 0] ++ List.replicate 8 0)) ++ List.replicate 8 0
def pooled0 : State := after run0 (.poolWrite 0 image0)
def registered0 : State := after pooled0 (.register 4)
theorem test_poolWrite : run0.imageAt 3 = none ∧ pooled0.mem.reads poolBase 40 = image0 ∧ frameB run0 pooled0 [.mem] [] = true ∧
    (registered0.imageAt 3).isSome = true ∧ logB registered0 = true ∧
    recIs (after registered0 (.poolWrite 3 [1, 2, 3, 4])) 4 8 2 none 0 = true ∧
    frameB registered0 (after registered0 (.poolWrite 3 [1, 2, 3, 4])) [.btn] [] = true := by decide +kernel
theorem test_register : okB pooled0 = true ∧ pooled0.headerOk 0 = true ∧ pooled0.overlaps 0 10 = false ∧ registered0.raw .GRN_IMG_STATUS_RESULT = 1 ∧
    registered0.raw .GRN_IMG_DIR_VALID 0 4 = 1 ∧ registered0.raw .GRN_IMG_DIR_LENGTH 0 4 = 10 ∧ registered0.raw .GRN_IMG_DIR_IMAGE_ID 0 4 = 0xABCD ∧
    registered0.raw .GRN_IMG_STATUS_SLOT = 4 := by decide +kernel
theorem test_register_refused : (after registered0 (.register 4)).raw .GRN_IMG_STATUS_RESULT = 6 ∧ run0.headerOk 0 = false ∧
    (after run0 (.register 4)).raw .GRN_IMG_STATUS_RESULT = 2 ∧ registered0.overlaps 0 10 = true ∧
    (after registered0 (.register 5)).raw .GRN_IMG_STATUS_RESULT = 3 := by decide +kernel
theorem test_unregister : registered0.imageRefs 4 = 0 ∧ (after registered0 (.unregister 4)).raw .GRN_IMG_DIR_VALID 0 4 = 0 ∧
    (after registered0 (.unregister 4)).raw .GRN_IMG_STATUS_RESULT = 1 ∧ (after run0 (.unregister 4)).raw .GRN_IMG_STATUS_RESULT = 7 ∧
    (let s := tabled registered0 [(3, mkEntry 5 csIdle false [(2, 0, 1)])]
     s.imageRefs 4 = 1 ∧ (after s (.unregister 4)).raw .GRN_IMG_STATUS_RESULT = 4) := by decide +kernel

/-- One channel 7 in a state. -/
def chan7 (ty st : Nat) : State := tabled run0 [(7, mkEntry ty st false)]
def memBut (s t : State) (lo hi : Nat) : Bool := t.mem.clear lo hi == s.mem.clear lo hi
def cmdRegs : List RegId := [.CHN_CMD_STATUS_RESULT, .CHN_CMD_STATUS_STATE, .CHN_CMD_STATUS_CHANNEL]
/-- CHN_CMD_STATUS after a command, and nothing else beside the listed groups. -/
def cmdB (s : State) (i : Instr) (result st : Nat) (gs : List Grp) : Bool :=
  let t := after s i
  t.raw .CHN_CMD_STATUS_RESULT == result && t.raw .CHN_CMD_STATUS_STATE == st && t.raw .CHN_CMD_STATUS_CHANNEL == 7 && frameB s t gs cmdRegs
theorem test_chn_wrong : okB (chan7 5 csArmed) = true ∧ cmdB (chan7 5 csArmed) (.arm 7) 2 csArmed [] = true ∧ cmdB (chan7 0 csIdle) (.arm 7) 2 csIdle [] = true ∧
    cmdB (chan7 5 csLive) (.go 7) 2 csLive [] = true ∧ cmdB (chan7 5 csLive) (.resume 7) 2 csLive [] = true ∧
    cmdB (chan7 5 csLive) (.clearFault 7) 2 csLive [] = true ∧ cmdB (chan7 5 csDraining) (.drain 7) 2 csDraining [] = true ∧
    cmdB (with_ (chan7 5 csLive) [(.CHN_CFG_ENABLE, 0, 0, 0)]) (.clearStats 7) 2 csLive [] = true := by decide +kernel
theorem test_chn_moves : (chan7 5 csIdle).inDram (chan7 5 csIdle).area (2 ^ 26) = true ∧ (chan7 5 csIdle).hostLoc = false ∧
    (chan7 5 csIdle).raw .LNK_STATUS_UP 0 = 0 ∧ cmdB (chan7 5 csIdle) (.arm 7) 1 csArmed [.mem] = true ∧
    (after (chan7 5 csIdle) (.arm 7)).entry 7 = mkEntry 5 csArmed false ∧ cmdB (chan7 5 csArmed) (.go 7) 1 csLive [.mem] = true ∧
    (after (chan7 5 csArmed) (.go 7)).entry 7 = mkEntry 5 csLive false ∧ cmdB (chan7 5 csHeld) (.resume 7) 1 csLive [.mem] = true ∧
    cmdB (chan7 5 csSealed) (.drain 7) 1 csDraining [.mem] = true ∧ cmdB (chan7 5 csFaulted) (.clearFault 7) 1 csArmed [.mem] = true := by decide +kernel
theorem test_chn_stats : let s := { chan7 5 csLive with mem := ((chan7 5 csLive).mem.writes ((chan7 5 csLive).statsAddr 7) (List.replicate 33 9)) }
    let t := after s (.clearStats 7)
    t.mem.read (s.statsAddr 7 + 31) = 0 ∧ t.mem.read (s.statsAddr 7 + 32) = 9 ∧ memBut s t (s.statsAddr 7) (s.statsAddr 7 + 32) = true ∧
    cmdB s (.clearStats 7) 1 csLive [.mem] = true := by decide +kernel
def flyer : State := { chan7 5 csDraining with grn := { run0.grn with threads := [(35, { blankThread with busy := true, chan := 7 })] } }
theorem test_drainComplete : (chan7 5 csDraining).flying 7 = 0 ∧ (after (chan7 5 csDraining) (.drainComplete 7)).entry 7 = mkEntry 5 csIdle false ∧
    flyer.flying 7 = 1 ∧ after flyer (.drainComplete 7) = flyer := by decide +kernel

def areaB (s : State) (off n : Nat) : Bool :=
  let bs : List Byte := List.replicate n 5
  let t := after s (.channelAreaWrite off bs)
  t.mem.reads (s.area + off) n == bs && memBut s t (s.area + off) (s.area + off + n) && frameB s t [.mem] []
def areaNo (s : State) (off code : Nat) (c : Option Nat) : Bool :=
  let t := after s (.channelAreaWrite off [5, 5])
  recIs t 3 code 2 c 0 && frameB s t [.btn] []
def off0 : State := with_ (chan7 5 csLive) [(.CHN_CFG_ENABLE, 0, 0, 0)]
theorem test_area : areaB off0 0x1C0 64 = true ∧ areaNo (chan7 5 csLive) 0x1C0 1 (some 7) = true ∧ areaNo (chan7 5 csLive) 0x00800000 1 none = true ∧
    areaB (chan7 5 csLive) 0x00C00000 3 = true ∧
    areaNo (with_ (chan7 5 csLive) [(.BLK_STATUS_COMMIT_PENDING, 3, 0, 1)]) 0x00DFFFFE 2 none = true ∧ areaB (chan7 5 csLive) 0x00E00000 3 = true ∧
    areaNo (chan7 5 csLive) 0x01000000 1 none = true ∧ frameB off0 (after off0 (.channelAreaWrite 0x01400000 [1])) [] [] = true ∧
    areaB (chan7 5 csLive) (0x02000700) 256 = true ∧ areaNo (chan7 9 csLive) 0x020007FE 1 (some 7) = true ∧
    (let s := with_ (chan7 5 csLive) [(.CHN_CFG_LOC, 0, 0, 1)]
     s.hostLoc = true ∧ frameB s (after s (.channelAreaWrite 0 [1])) [] [] = true) := by decide +kernel
theorem test_tableEnable : let s := with_ (tabled run0 [(7, mkEntry 12 csLive false), (8, mkEntry 5 csLive false)]) [(.CHN_CFG_ENABLE, 0, 0, 0)]
    let t := after s (.tableEnable [])
    okB s = true ∧ logB s = true ∧ t.raw .CHN_CFG_ENABLE = 1 ∧ t.entry 7 = mkEntry 12 csFaulted false ∧ t.entry 8 = mkEntry 5 csLive false ∧
    recIs t 3 3 3 (some 7) 0 = true ∧ frameB s t [.mem, .btn] [.CHN_CFG_ENABLE] = true := by decide +kernel
theorem test_tableEnable_pins : let host := (List.range 13).map fun i => (5 + 128 * i, mkEntry 5 csLive true)
    let s := with_ run0 [(.CHN_CFG_LOC, 0, 0, 1)]
    { s with chn := { s.chn with hostTable := hostEntries host } }.pinFault = some 5 ∧
    (let t := after s (.tableEnable host)
     t.raw .BLK_STATUS_BUSY_REFUSED 3 = 1 ∧ t.raw .CHN_CFG_ENABLE = 0 ∧ recIs t 3 4 2 none 5 = true) := by decide +kernel

def arrival7 : Arrival := ⟨7, 3, 7, 2, [1, 2, 3], 3, true, false, false, false, none, []⟩
def hot (s : State) : State := { s with chn := { s.chn with cache := [7] } }
theorem test_ingress : let s := hot (chan7 5 csLive)
    let t := after s (.unitIngress arrival7)
    s.gaugesOf 1 = [] ∧ s.fld .TRC_CFG_ENABLE = 0 ∧ s.sal.soft.headD 0 = 0 ∧ s.pickBerth 7 3 = some 19 ∧ s.cached 7 = true ∧ 1 ≤ s.panFree ∧
    eOrdered (s.entry 7) = false ∧ t.sal.nextUnit = 1 ∧ (t.sal.units.get? 0).map (·.bytes) = some [1, 2, 3] ∧
    (t.sal.units.get? 0).map (·.place) = some (.waiting false) ∧ (t.sal.units.get? 0).map (·.stampWord) = some ((0x4C + 19) * 8 * 2 ^ 20) ∧
    t.raw .CHN_CACHE_HITS_HITS = 1 ∧ frameB s t [.sal, .tmb, .chn] [.CHN_CACHE_HITS_HITS] = true := by decide +kernel
def missing7 : State := after (chan7 5 csLive) (.unitIngress arrival7)
theorem test_miss : (chan7 5 csLive).cached 7 = false ∧ (missing7.sal.units.get? 0).map (·.place) = some (.waiting true) ∧
    missing7.raw .CHN_CACHE_MISSES_MISSES = 1 ∧ missing7.chn.misses = [7] ∧ missing7.missing 7 = [0] ∧
    (let t := after missing7 (.cacheMissComplete 7 [])
     (t.sal.units.get? 0).map (·.place) = some (.waiting false) ∧ t.cached 7 = true ∧ t.chn.misses = []) ∧
    (let t := after missing7 (.chnFetchFail 7 3)
     t.sal.units = [] ∧ t.load (missing7.statsAddr 7 + 8) 8 = 1 ∧ recIs t 3 6 2 (some 7) 3 = true ∧ t.chn.misses = [] ∧ t.chn.cache = []) := by
  decide +kernel
theorem test_ingress_drop : let s := hot (chan7 5 csHeld)
    let t := after s (.unitIngress arrival7)
    t.sal.units = [] ∧ t.load (s.statsAddr 7 + 8) 8 = 1 ∧ t.raw .CHN_CACHE_HITS_HITS = 1 ∧
    (after off0 (.unitIngress arrival7)).raw .SAL_BERTH_DROP_UNITS 0 19 = 1 ∧
    (let s := with_ off0 [(.SAL_BERTH_STATE_STATE, 0, 19, 2), (.SAL_BERTH_STATE_STATE, 0, 20, 2)]
     s.pickBerth 7 3 = none ∧ (after s (.unitIngress arrival7)).raw .SAL_BERTH_DROP_UNITS 0 19 = 1) := by decide +kernel
/-- Channel 7 on an expert entry with a program at pool word 40 and budget code 3, or on a basic MEM_WINDOW entry of 256 bytes at 4096. -/
def expert7 : State := hot (tabled (with_ run0 [(.GRN_ENG_MASK_ENGINES, 0, 0, 2 ^ 32 - 1)]) [(7, mkEntry 1 csLive false [(2, 0, 1), (3, 0, 3), (4, 0, 40), (32, 0, 4096), (40, 0, 256)])])
def window7 : State := hot (tabled run0 [(7, mkEntry 1 csLive false [(32, 0, 4096), (40, 0, 256), (46, 0, 1)])])
def waiting7 (s : State) (bytes : List Byte) : State := after s (.unitIngress { arrival7 with bytes := bytes, length := bytes.length })
theorem test_dispatch : let s := waiting7 expert7 [1, 2, 3]
    let t := after s (.unitDispatch 19)
    (s.nextDispatch 19).map (·.1) = some 0 ∧ s.pickThread = some (0, 0) ∧ s.chanState 7 = csLive ∧ eLevel (s.entry 7) = 1 ∧
    (t.thread 0).busy = true ∧ (t.thread 0).pc = 160 ∧ (t.thread 0).budget = 63 ∧ t.reg (.eng 0 0) 1 = 7 ∧ t.reg (.eng 0 0) 2 = 3 ∧
    t.reg (.eng 0 0) 4 = 0x03010021 ∧ t.reg (.eng 0 0) 5 = 19 ∧ t.reg (.eng 0 0) 6 = 0 ∧ t.load (s.statsAddr 7) 8 = 1 ∧
    (t.sal.units.get? 0).map (·.place) = some (.running 0 0) ∧ frameB s t [.grn, .sal, .tmb, .mem] [] = true := by decide +kernel
theorem test_dispatch_basic : let s := waiting7 window7 (writeTlp 8192 [1, 2, 3, 4])
    let t := after s (.unitDispatch 19)
    t.sal.units = [] ∧ t.load (s.statsAddr 7) 8 = 1 ∧ t.load (s.statsAddr 7 + 8) 8 = 1 ∧ t.load (s.statsAddr 7 + 22) 2 = 0x8007 ∧
    memAllowed { blankFlow with bytes := writeTlp 8192 [1, 2, 3, 4], entry := s.entry 7 } = false ∧
    memAllowed { blankFlow with bytes := writeTlp 4096 [1, 2, 3, 4], entry := mkEntry 1 csLive false [(32, 0, 4096), (40, 0, 256), (46, 0, 3)] } = true := by
  decide +kernel

/-- A stage list of one record for channel 7: ARMED SIGNAL-free NET entry of the next generation, no annex. -/
def staged7 (e : List Byte) : State :=
  let s := with_ (chan7 5 csLive) [(.CHN_STAGE_COUNT_COUNT, 0, 0, 1), (.BLK_STATUS_COMMIT_PENDING, 3, 0, 1)]
  { s with mem := s.mem.writes (s.stageAddr 0) (e ++ List.replicate 256 0 ++ leBytes 4 7) }
def goodEntry : List Byte := mkEntry 5 csArmed false [(1, 0, 1), (7, 0, 8), (20, 0, 0)]
def checked7 : State := after (staged7 goodEntry) (.commitBoundary 3)
theorem test_commitPoint : (staged7 goodEntry).stageFault = none ∧ checked7.chn.checked = true ∧ checked7.mayCommit = true ∧
    checked7.chnCombo checked7.entriesAfter = 0 ∧ okB checked7 = true ∧
    (let t := after checked7 .commitPoint
     t.entry 7 = mkEntry 5 csArmed false [(1, 0, 1), (7, 0, 8)] ∧ t.raw .CHN_GEN_ACTIVE_GEN = 1 ∧ t.raw .CHN_STAGE_COUNT_COUNT = 0 ∧
     t.raw .BLK_STATUS_RESULT 3 = 1 ∧ t.raw .BLK_COMMIT_COUNT_DONE_COUNT 3 = 1 ∧ t.raw .BLK_STATUS_COMMIT_PENDING 3 = 0) := by decide +kernel
theorem test_commitPoint_torn : let s := staged7 (mkEntry 5 csArmed false [(1, 0, 3), (7, 0, 8)])
    let t := after s .commitPoint
    s.stageFault = some (0, 1) ∧ logB s = true ∧ t.raw .BLK_STATUS_RESULT 3 = 2 ∧ t.raw .CHN_STAGE_FAULT_VALID = 1 ∧ t.raw .CHN_STAGE_FAULT_CHECK = 1 ∧
    recIs t 3 0xF004 2 none (2 + 2 ^ 32) = true ∧ t.entry 7 = s.entry 7 := by decide +kernel
theorem test_commitPoint_waits : let s := { checked7 with chn := { checked7.chn with shadows := (List.range 8193).map fun k => (k, (1, 1)) } }
    s.mayCommit = false ∧ (after s .commitPoint).chn.checked = true ∧ (after s .commitPoint).regs = s.regs := by decide +kernel
theorem test_commitPoint_combo : let s := with_ (after (staged7 (mkEntry 3 csLive false [(1, 0, 1), (7, 0, 4), (33, 0, 1)])) (.commitBoundary 3)) []
    s.chn.checked = true ∧ s.chnCombo s.entriesAfter = 5 ∧ recIs (after s .commitPoint) 3 0xF004 2 none (3 + 5 * 2 ^ 32) = true ∧
    (after s .commitPoint).raw .BLK_STATUS_RESULT 3 = 3 := by decide +kernel
theorem test_shadowRelease : let s := { chan7 5 csLive with chn := { run0.chn with shadows := [(2, (7, 0))] } }
    let s := { s with mem := s.mem.writes (s.shadowAddr 2) [1, 2] }
    (after s (.shadowRelease 2)).chn.shadows = [] ∧ (after s (.shadowRelease 2)).mem = (chan7 5 csLive).mem ∧
    (let s := { s with grn := flyer.grn }
     s.flyingVer 7 0 = 1 ∧ (after s (.shadowRelease 2)).chn.shadows = [(2, (7, 0))]) := by decide +kernel

/-- Cable port 2 up, its four lanes ACTIVE, entered and enabled; `l` is what the port keeps. -/
def up2 (l : LnkPort) : State := { with_ run0 [(.LNK_STATUS_UP, 2, 0, 1), (.LNK_CFG_ENABLE, 2, 0, 1), (.CBL_MUX_STATE, 2, 0, 1), (.LNK_LANE_STATE_STATE, 2, 0, 5),
  (.LNK_LANE_STATE_STATE, 2, 1, 5), (.LNK_LANE_STATE_STATE, 2, 2, 5), (.LNK_LANE_STATE_STATE, 2, 3, 5)] with lnk := [(2, l)], clock := 10 * sec, moment := 5 }
def lp : LnkPort := { blankPort with phase := .up, nextSeq := 7, rxSeq := 9 }
def heldP : Held := ⟨6, [1, 2, 3]⟩
def laneRegs : List RegId := [.LNK_LANE_STATE_STATE, .LNK_LANE_STATE_POWER, .LNK_STATUS_LANE_OK, .LNK_STATUS_LANE_TX, .LNK_TRAINS_PARTIAL]
def linkIs (t : State) (l : LnkPort) : Bool := t.link 2 == l
/-- The command answers exactly this link, output and frame. -/
def lnkB (s : State) (i : Instr) (l : LnkPort) (gs : List Grp) (rs : List RegId) : Bool := linkIs (after s i) l && frameB s (after s i) (.lnk :: gs) rs
theorem test_parcelSend : let c := 10 * sec
    (up2 lp).canSend 2 = true ∧ okB (up2 lp) = true ∧ (up2 lp).fld .TRC_CFG_ENABLE = 0 ∧ (up2 lp).gaugesOf 1 = [] ∧
    lnkB (up2 { lp with blocks := [[1], [2]] }) (.parcelSend 2) { lp with blocks := [[2]] } [.out] [] = true ∧
    lnkB (up2 { lp with held := [heldP], resend := some 0 }) (.parcelSend 2) { lp with held := [heldP], idleAt := c } [.out] [] = true ∧
    lnkB (up2 { lp with queue := [⟨false, List.replicate 16 1, none⟩] }) (.parcelSend 2)
      { lp with held := [⟨7, closeParcel (List.replicate 16 1) 7 false⟩], nextSeq := 8, ackAt := c, idleAt := c } [.out, .tmb] [] = true ∧
    outIs (after (up2 lp) (.parcelSend 2)) .parcel [2] = true ∧ lnkB (up2 lp) (.parcelSend 2) lp [.out] [] = true ∧
    (up2 { lp with txSleep := 1 }).canSend 2 = false := by decide +kernel
def aParcel (seq : Nat) : List Byte := closeParcel (1 :: 6 :: List.replicate 30 0) seq false
theorem test_parcelReceive : isFiller (aParcel 9) = false ∧ parcelCrcOk (aParcel 9) = true ∧ parcelSeq (aParcel 9) = 9 ∧
    lnkB (up2 lp) (.parcelReceive 2 (aParcel 9) true) { lp with rxSeq := 10, accepted := 1, inbox := [(5, aParcel 9)] } [.tmb] [] = true ∧
    lnkB (up2 lp) (.parcelReceive 2 (aParcel 8) true) { lp with rejecting := true, blocks := [sealBlock [0xF9, 1, 8, 0]] } [] [] = true ∧
    lnkB (up2 { lp with rejecting := true }) (.parcelReceive 2 (aParcel 8) true) { lp with rejecting := true } [] [] = true ∧
    (after (up2 { lp with rejecting := true }) (.parcelReceive 2 (aParcel 9) false)).raw .LNK_FEC_UNCORR_CODEWORDS 2 = 1 := by decide +kernel
def ackBlk (nak : Nat) (seq : Nat) : List Byte := sealBlock ([0xF9, BitVec.ofNat 8 nak] ++ leBytes 2 seq)
def holding : LnkPort := { lp with held := [⟨5, [1]⟩, ⟨6, [2]⟩], fruitless := 3 }
theorem test_acks : lnkB (up2 { lp with accepted := 3 }) (.ackInterval 2) { lp with blocks := [sealBlock [0xF9, 0, 8, 0]], ackSent := 10 * sec } [] [] = true ∧
    blockOk (ackBlk 0 5) = true ∧ lnkB (up2 lp) (.filler 2 (ackBlk 0 5)) lp [] [] = true ∧
    lnkB (up2 holding) (.ack 2 (ackBlk 0 5)) { lp with held := [⟨6, [2]⟩], ackAt := 10 * sec } [] [] = true ∧
    lnkB (up2 holding) (.nak 2 (ackBlk 1 5)) { holding with resend := some 1, fruitless := 4, ackAt := 10 * sec } [] [.LNK_REPLAY_REPLAYS] = true ∧
    lnkB (up2 holding) (.ackTimeout 2) { holding with resend := some 0, fruitless := 4, ackAt := 10 * sec } [] [.LNK_REPLAY_TIMEOUTS] = true := by decide +kernel
theorem test_lnkReplayLimit : let t := after (up2 { holding with fruitless := 4 }) (.lnkReplayLimit 2)
    (up2 holding).fld .LNK_THRESH_REPLAY_LIMIT 2 = 4 ∧ recIs t 0x12 6 2 none 0xFF = true ∧ t.laneState 2 0 = lnRetrain ∧ t.laneState 2 3 = lnRetrain ∧
    (t.link 2).held = holding.held ∧ (t.link 2).resend = some 0 ∧ t.raw .LNK_TRAINS_PARTIAL 2 = 4 ∧ logB (up2 holding) = true ∧
    frameB (up2 { holding with fruitless := 4 }) t [.lnk, .btn] laneRegs = true := by decide +kernel

/-- Port 2 with its lanes in one state, in a phase. -/
def at2 (ph : Phase) (st : Nat) (l : LnkPort := lp) : State :=
  with_ (up2 { l with phase := ph }) [(.LNK_STATUS_UP, 2, 0, 0), (.LNK_LANE_STATE_STATE, 2, 0, st), (.LNK_LANE_STATE_STATE, 2, 1, st),
    (.LNK_LANE_STATE_STATE, 2, 2, st), (.LNK_LANE_STATE_STATE, 2, 3, st)]
theorem test_detectComplete : let t := after (at2 .detect lnDetect) (.detectComplete 2)
    (t.link 2).phase = .train ∧ t.laneState 2 1 = lnTrain ∧ t.raw .LNK_TXEQ_C0 2 3 = 48 ∧ t.raw .LNK_TXEQ_CM1 2 3 = 56 ∧
    (let s := at2 .detect lnDetect { lp with phaseAt := 10 * sec - 5 }
     (after s (.detectComplete 2)).link 2 = s.link 2) ∧
    (let t := after (at2 .detect lnDetect) (.trainPhaseTimeout 2 0)
     (t.link 2).attempts = 1 ∧ (t.link 2).phase = .detect ∧ t.laneState 2 2 = lnDetect) := by decide +kernel
def readyLanes : NMap Lane := [(0, { blankLane with ready := 3, revCapable := true }), (1, { blankLane with ready := 3 }), (2, { blankLane with ready := 3 }), (3, { blankLane with ready := 3 })]
theorem test_trainComplete : let s := at2 .train lnTrain { lp with lanes := readyLanes }
    s.trained 2 15 1 = true ∧ (after s (.trainComplete 2 15)).laneState 2 1 = lnReverse ∧ ((after s (.trainComplete 2 15)).link 2).phase = .reverse ∧
    (let t := after (with_ s [(.LNK_CFG_REVERSIBLE, 2, 0, 0)]) (.trainComplete 2 15)
     (t.link 2).phase = .align ∧ t.laneState 2 1 = lnAlign ∧ t.laneState 2 2 = lnAlign) ∧
    (let t := after (at2 .reverse lnReverse) (.reverseComplete 2 (some 40))
     t.raw .LNK_STATUS_REV_READY 2 = 1 ∧ (t.link 2).revSkew = some 40 ∧ t.laneState 2 0 = lnAlign) := by decide +kernel
theorem test_alignComplete : let s := at2 .align lnAlign { lp with lanes := [(2, { blankLane with locked := true }), (3, { blankLane with locked := true })] }
    let t := after s (.alignComplete 2 (some 7) 0)
    s.rxLanes 2 = [2, 3] ∧ s.key.noSession = false ∧ t.raw .LNK_STATUS_UP 2 = 1 ∧ (t.link 2).phase = .up ∧ (t.link 2).rxSeq = 0 ∧ t.laneState 2 2 = lnActive ∧
    (t.tunPort 2).sent = true ∧ (t.link 2).fwdSkew = some 7 ∧ t.key.sessions = 1 ∧ (t.link 2).queue.length = 1 := by decide +kernel
theorem test_trainingFrame : let s := at2 .train lnTrain
    let t := after s (.trainingFrame 2 2 (4 * 64) (trainChk (4 * 64) 0 * 2 ^ 16))
    bits (trainChk (4 * 64) 0 * 2 ^ 16) 23 16 = trainChk (4 * 64) (trainChk (4 * 64) 0 * 2 ^ 16) ∧ t.raw .LNK_TXEQ_CM2 2 0 = 2 ∧ t.raw .LNK_TXEQ_C0 2 0 = 46 ∧
    t.raw .LNK_TXEQ_C0 2 2 = 0 ∧ (after (up2 lp) (.trainingFrame 2 2 0 0)).link 2 = lp := by decide +kernel
theorem test_trainCtl : let w := 0x40 + trainChk 64 0x40 * 2 ^ 16
    let b := sealBlock ([0xFC, 0] ++ leBytes 2 64 ++ leBytes 3 w)
    let t := after (with_ (up2 lp) [(.LNK_LANE_STATE_STATE, 2, 2, lnRetrain)]) (.trainCtl 2 b)
    blockOk b = true ∧ bits w 23 16 = trainChk 64 w ∧ bit (fieldOf b 4 3) 6 = true ∧ t.laneState 2 2 = lnActive ∧ t.raw .LNK_TXEQ_C0 2 2 = 64 := by decide +kernel
def laneBlk (op arg at_ : Nat) : List Byte := sealBlock ([0xFB, BitVec.ofNat 8 op, BitVec.ofNat 8 arg, 0] ++ leBytes 4 at_)
theorem test_join : lnkB (up2 lp) (.join 2 (laneBlk 5 0 77)) { lp with lanes := [(2, { blankLane with joinAt := some 77 })] } [] [] = true ∧
    (let t := after (up2 lp) (.retrainReq 2 (laneBlk 4 2 0))
     t.laneState 2 0 = lnRetrain ∧ t.raw .LNK_TRAINS_PARTIAL 2 = 1 ∧ outIs t .training [2, 0, 1] = true) ∧
    (let t := after (with_ (up2 lp) [(.LNK_LANE_STATE_STATE, 2, 1, lnRetrain)]) (.retrainTimeout 2 1)
     t.laneState 2 1 = lnFail ∧ t.raw .LNK_STATUS_DEGRADED 2 = 1 ∧ recIs t 0x12 4 2 none 1 = true) := by decide +kernel
def markerBlk (cwc : Nat) : List Byte :=
  let h : List Byte := [0xFF, 0x4D, 0x72, 0xB5, 0, 0] ++ leBytes 4 cwc ++ [0, 0, 0, 0]
  sealBlock (h ++ h.map fun b => ~~~b)
theorem test_marker : markerValid (markerBlk 2048) = true ∧ markerValid [1] = false ∧
    (let t := after (up2 { lp with lanes := [(2, { blankLane with bad := 3 })] }) (.marker 2 2 (markerBlk 2048))
     t.raw .LNK_CWC_RX_CWC 2 = 2048 ∧ ((t.link 2).lane 2).bad = 0) ∧
    lnkB (up2 lp) (.marker 2 2 [1]) { lp with lanes := [(2, { blankLane with bad := 1 })] } [] [] = true ∧
    (let t := after (up2 { lp with lanes := [(2, { blankLane with bad := 4 })] }) (.lnkLockLost 2 2)
     t.laneState 2 2 = lnRetrain ∧ recIs t 0x12 3 2 none 2 = true) := by decide +kernel
theorem test_eyes : (let t := after (up2 lp) (.eyeMonUpdate 2 [90, 91, 92, 255])
     t.raw .LNK_EYE_MON_HEIGHT 2 2 = 92 ∧ t.raw .LNK_EYE_MON_HEIGHT 2 3 = 255 ∧ t.raw .LNK_EYE_MON_HEIGHT 2 0 = 0 ∧ (up2 lp).fld .LNK_THRESH_EYE_MIN_MV 2 = 15) ∧
    (let t := after (up2 lp) (.slip 2 1)
     ((t.link 2).lane 1).slips = 1) ∧
    (let s := after (with_ (up2 lp) [(.LNK_EYE_RESULT_VALID, 2, 1, 1)]) (.eyeScanStart 2)
     s.raw .LNK_EYE_CTRL_BUSY 2 = 1 ∧ s.raw .LNK_EYE_RESULT_VALID 2 1 = 0 ∧
     (let t := after s (.eyeScanComplete 2 [5000, 70] [300, 9])
      t.raw .LNK_EYE_CTRL_BUSY 2 = 0 ∧ t.raw .LNK_EYE_RESULT_HEIGHT_MV 2 0 = 4095 ∧ t.raw .LNK_EYE_RESULT_WIDTH 2 0 = 255 ∧
      t.raw .LNK_EYE_RESULT_HEIGHT_MV 2 1 = 70 ∧ t.raw .LNK_EYE_RESULT_VALID 2 1 = 1)) := by decide +kernel

def powerBlk (n at_ : Nat) : List Byte := sealBlock ([0xFA, BitVec.ofNat 8 n, 0, 0] ++ leBytes 4 at_)
theorem test_sleep : lnkB (up2 lp) (.powerHalf 2 (powerBlk 1 44)) { lp with rxEntry := some (1, 44) } [] [] = true ∧
    lnkB (up2 lp) (.powerDeep 2 (powerBlk 2 44)) { lp with rxEntry := some (2, 44) } [] [] = true ∧ (up2 lp).portBusy 2 = false ∧
    (let t := after (up2 lp) (.halfIdleTimeout 2)
     (t.link 2).blocks.length = 3 ∧ (t.link 2).txEntry = some (1, ((up2 lp).cwcTx 2 + 8) % 2 ^ 32)) ∧
    (let s := with_ (up2 { lp with txSleep := 1 }) [(.LNK_LANE_STATE_STATE, 2, 0, lnHalf)]
     let t := after s (.deepIdleTimeout 2)
     (t.link 2).txSleep = 0 ∧ (t.link 2).txEntry = some (2, (s.cwcTx 2 + 8) % 2 ^ 32) ∧ t.laneState 2 0 = lnActive) ∧
    (let s := up2 { lp with txEntry := some (2, 5), rxEntry := some (1, 5) }
     cwcPast (s.cwcTx 2) 5 = true ∧ (after s (.sleepEntry 2 true)).laneState 2 1 = lnDeep ∧ (after s (.sleepEntry 2 false)).laneState 2 2 = lnHalf ∧
     ((after s (.sleepEntry 2 false)).link 2).rxSleep = 1) ∧
    (let s := up2 { lp with txEntry := some (1, 2 ^ 31), cwcAt := 10 * sec }
     cwcPast (s.cwcTx 2) (2 ^ 31) = false ∧ (after s (.sleepEntry 2 true)).link 2 = s.link 2) := by decide +kernel
theorem test_directionWake : let s := with_ (up2 { lp with txSleep := 1, queue := [⟨false, [1], none⟩] }) [(.LNK_LANE_STATE_STATE, 2, 0, lnHalf)]
    let t := after s (.directionWake 2)
    (t.link 2).txSleep = 0 ∧ t.laneState 2 0 = lnActive ∧ (t.link 2).queue.length = 1 := by decide +kernel
def change2 : LaneChange := ⟨1, 500, true, false, none, 0⟩
theorem test_lanes : let s := with_ (up2 lp) [(.LNK_STATUS_REV_READY, 2, 0, 1)]
    oneLane 0 (complement 2) = true ∧ (after s (.laneReq 2 (laneBlk 1 2 500))).raw .LNK_STATUS_LANE_CHANGE 2 = 1 ∧
    ((after s (.laneReq 2 (laneBlk 1 2 500))).link 2).change = some ⟨1, 500, false, true, none, 10 * sec⟩ ∧
    lnkB (up2 lp) (.laneReq 2 (laneBlk 1 2 500)) { lp with blocks := List.replicate 3 (laneBlk 3 2 500) } [] [] = true ∧
    lnkB (up2 { lp with change := some change2 }) (.laneGrant 2 (laneBlk 2 2 500)) { lp with change := some { change2 with granted := true } } [] [] = true ∧
    (let t := after (up2 { lp with change := some change2 }) (.laneRefuse 2 (laneBlk 3 2 500))
     (t.link 2).change = none ∧ recIs t 0x12 8 2 none 0xFF = true) ∧
    (let t := after (up2 { lp with change := some change2 }) (.laneChangeTimeout 2)
     (t.link 2).change = none ∧ recIs t 0x12 8 2 none 0xFF = true) ∧
    (let t := after (up2 { lp with change := some { change2 with granted := true } }) (.laneSwitch 2)
     t.laneState 2 3 = lnRetrain ∧ (t.link 2).change = some { change2 with granted := true, switched := some (10 * sec) }) ∧
    (let t := after (up2 { lp with change := some { change2 with granted := true, switched := some 5 } }) (.laneDrive 2)
     outIs t .training [2, 3, 1] = true ∧ gainsTx 0 1 3 = true) := by decide +kernel
/-- The hypotheses of the link's fall; what follows goes through the hub's own clock identity, which is free. -/
theorem test_lnkDown : let s := with_ (up2 lp) [(.LNK_CFG_ENABLE, 2, 0, 0)]
    s.raw .TMB_STATUS_DISCIPLINED = 0 ∧ s.raw .LNK_STATUS_UP 2 = 1 ∧ s.raw .LNK_CFG_ENABLE 2 = 0 ∧ (s.link 2).held = [] ∧ okB s = true ∧ logB s = true ∧
    (up2 lp).avrath 2 = true ∧ (after (up2 lp) (.lnkDown 2)).link 2 = lp := by decide +kernel

/-- Port 2 up with an established peer, channel 7 of the table in some state on link 2, one parcel in the inbox. -/
def aHello : Hello := ⟨1, 4, 0, 77, 5, 0, 0, 3⟩
def peered : TunPort := { blankTun with sent := true, hello := some aHello, token := 9 }
def tun2 (u : TunPort) (b : List Byte) (st : Nat := csLive) (more : List (Nat × Nat × Nat) := [(8, 0, 2 * 2 ^ 24)]) : State :=
  let s := tabled (up2 { lp with inbox := [(5, b)] }) [(7, mkEntry 5 st false more)]
  { s with tun := { s.tun with ports := [(2, u)] }, chn := { s.chn with cache := [7] } }
def dataBytes (flags frag : Nat) (payload : List Byte) : List Byte :=
  closeParcel (parcelHeader 1 flags (2 + frag * 16) 2 7 payload.length 44 3 ++ padded payload) 9 false
def lmpBytes (op token : Nat) (body : List Byte) : List Byte :=
  closeParcel (parcelHeader 2 6 0 0 0 (4 + body.length) 0 0 ++ padded ([BitVec.ofNat 8 op, 1] ++ leBytes 2 token ++ body)) 9 false
def lmpOut (op token : Nat) (body : List Byte) : OutParcel :=
  ⟨false, parcelHeader 2 6 0 0 0 (4 + body.length) 0 0 ++ padded ([BitVec.ofNat 8 op, 1] ++ leBytes 2 token ++ body), none⟩
theorem test_dataParcel : let b := dataBytes 6 0 [1, 2, 3]
    let s := tun2 peered b
    let t := after s (.dataParcel 2)
    s.flowing = true ∧ okB s = true ∧ s.peerOk 2 = true ∧ hBad b = false ∧ s.partWaits b = false ∧ bits (fieldOf b 1 1) 3 0 = 6 ∧ s.pickBerth 2 0 = some 6 ∧
    s.cached 7 = true ∧ max (s.fld .SAL_PAN_CFG_RESERVED_FLAKES) 1 ≤ s.panFree ∧ (t.sal.units.get? 0).map (·.bytes) = some [1, 2, 3] ∧
    (t.sal.units.get? 0).map (·.hops) = some (some 2) ∧ (t.sal.units.get? 0).map (·.cseq) = some 44 ∧ (t.link 2).inbox = [] ∧
    (let t := after (tun2 peered b csHeld) (.dataParcel 2)
     t.sal.units = [] ∧ t.load (s.statsAddr 7 + 8) 8 = 1) ∧
    recIs (after (tun2 peered (dataBytes 0xE6 0 [1])) (.dataParcel 2)) 0x18 8 2 (some 7) (2 + 7 * 2 ^ 32) = true ∧ hBad (dataBytes 0xE6 0 [1]) = true ∧
    recIs (after (tun2 peered (dataBytes 6 3 [1])) (.dataParcel 2)) 0x18 9 2 (some 7) (2 + 7 * 2 ^ 32) = true := by decide +kernel
theorem test_fillerParcel : isFiller (fillerParcel 7) = true ∧ frameB (up2 lp) (after (up2 lp) (.fillerParcel 2 (fillerParcel 7))) [] [] = true := by decide +kernel
theorem test_helloTimer : let t := after (up2 lp) (.helloTimer 2)
    (t.tunPort 2).sent = true ∧ (t.tunPort 2).helloAt = 10 * sec ∧ (t.link 2).queue.length = 1 ∧
    frameB (up2 lp) t [.tun, .lnk] [] = true ∧ frameB (tun2 peered []) (after (tun2 peered []) (.helloTimer 2)) [] [] = true := by decide +kernel
def helloBody : List Byte := leBytes 2 0 ++ [1, 3, 4, 6, 8, 0] ++ leBytes 4 99 ++ leBytes 4 1234 ++ leBytes 4 0 ++ leBytes 4 0
theorem test_hello : let s := { up2 { lp with inbox := [(5, lmpBytes 1 0 helloBody)] } with tun := { run0.tun with ports := [(2, { blankTun with sent := true })] } }
    let t := after s (.hello 2)
    lmpOk (lmpBytes 1 0 helloBody) = true ∧ s.chans = [] ∧ (t.tunPort 2).hello = some ⟨3, 6, 8, 99, 1234, 0, 0, 4⟩ ∧ t.raw .TUN_PORT_STATUS_PEER_POS 0 2 = 3 ∧
    t.raw .TUN_PORT_STATUS_PEER_HOLD 0 2 = 1 ∧ t.raw .TUN_PEER_BOOT_BOOT_ID 0 2 = 99 ∧ t.raw .TUN_STATUS_PEER_OK = 4 := by decide +kernel
def estBody : List Byte := leBytes 4 7 ++ leBytes 4 7 ++ [5, 0, 0, 0] ++ leBytes 4 0
theorem test_est : let s := tun2 peered (lmpBytes 0x10 6 estBody) csArmed
    let t := after s (.estReq 2)
    s.peerOk 2 = true ∧ s.estReason 7 5 false 0 = 0 ∧ t.chanState 7 = csLive ∧ (t.link 2).queue.length = 1 ∧
    (t.link 2).queue.map (·.bytes) = [(lmpOut 0x11 6 (estBody ++ [])).bytes] ∧
    (let s := tun2 peered (lmpBytes 0x10 6 estBody) csDraining
     s.estReason 7 5 false 0 = 4 ∧ ((after s (.estReq 2)).link 2).queue.map (·.bytes) = [(lmpOut 0x12 6 (estBody ++ [4])).bytes]) ∧
    (let t := after (tun2 { peered with est := [(7, 3)] } (lmpBytes 0x11 6 estBody) csArmed) (.estAck 2)
     t.chanState 7 = csLive ∧ (t.tunPort 2).est = []) ∧
    (let t := after (tun2 peered (lmpBytes 0x12 6 (estBody ++ [4])) csArmed) (.estNak 2)
     t.raw .TUN_EST_NAKS 0 2 = 1 ∧ recIs t 0x18 1 2 (some 7) (2 + 7 * 2 ^ 32) = true) ∧
    (let s := tun2 { peered with est := [(7, 10 * sec - 10 * ms)] } [] csArmed
     let t := after s (.estRetry 2 7)
     (t.tunPort 2).est = [(7, 10 * sec)] ∧ (t.tunPort 2).token = 10 ∧ ((after { s with clock := 10 * sec - 1 } (.estRetry 2 7)).tunPort 2).token = 9) := by
  decide +kernel

def allotBody (tot ep : Nat) : List Byte := [3, 0] ++ leBytes 2 tot ++ leBytes 4 ep
def answered (s : State) (i : Instr) (op : Nat) (body : List Byte) : Bool := ((after s i).link 2).queue.map (·.bytes) == [(lmpOut op 6 body).bytes]
theorem test_allotReq : let s (tot ep : Nat) := tun2 peered (lmpBytes 0x20 6 (allotBody tot ep))
    laterEpoch 1 1 = false ∧ answered (s 9 1) (.allotReq 2) 0x22 ([3, 2, 0, 0] ++ leBytes 4 1) = true ∧ laterEpoch 8 1 = true ∧
    answered (with_ (s 9 8) [(.LNK_STATUS_LANE_CHANGE, 2, 0, 1)]) (.allotReq 2) 0x22 ([3, 1, 0, 0] ++ leBytes 4 8) = true ∧ (s 9 8).rxLimit 2 = 4096 ∧
    answered (s 4097 8) (.allotReq 2) 0x22 ([3, 3, 0, 0] ++ leBytes 4 8) = true ∧
    answered (s 4096 8) (.allotReq 2) 0x21 ([3, 0, 0, 0] ++ leBytes 4 8) = true ∧ (after (s 4096 8) (.allotReq 2)).raw .TUN_RESV_RX_NEXT 0 2 = 4096 ∧
    ((after (s 4096 8) (.allotReq 2)).tunPort 2).rxNext = some (4096, 1, 8) := by decide +kernel
def req3 : AllotReq := ⟨3, 12, [(7, 12)], 8, 10 * sec, false⟩
theorem test_allotAck : let s (op : Nat) (r : AllotReq) := tun2 { peered with pending := some r } (lmpBytes op 6 ([3, 0, 0, 0] ++ leBytes 4 r.epoch))
    (s 0x21 req3).allotTimely req3 = true ∧ ((after (s 0x21 req3) (.allotAck 2)).tunPort 2).pending = some { req3 with acked := true } ∧
    (s 0x21 { req3 with sentAt := 0 }).allotTimely { req3 with sentAt := 0 } = false ∧
    recIs (after (s 0x21 { req3 with sentAt := 0 }) (.allotAck 2)) 0x18 2 2 none 2 = true ∧ recIs (after (s 0x22 req3) (.allotNak 2)) 0x18 3 2 none 2 = true ∧
    ((after (s 0x22 req3) (.allotNak 2)).tunPort 2).retry = true ∧ recIs (after (s 0 { req3 with sentAt := 0 }) (.allotTimeout 2)) 0x18 2 2 none 2 = true ∧
    ((after (s 0 req3) (.allotTimeout 2)).tunPort 2).pending = some req3 := by decide +kernel
theorem test_epochStart : let s := { tun2 { peered with pending := some { req3 with acked := true }, credit := [(7, -50)] } [] csLive
      [(8, 0, 2 * 2 ^ 24), (16, 0, 12)] with moment := 8 * 2 ^ 16 }
    let t := after s .epochStart
    s.wanted 2 = [(7, 12)] ∧ laterEpoch 8 s.epoch = false ∧ (t.tunPort 2).shares = [(7, 12)] ∧ t.raw .TUN_PORT_STATUS_ALLOT_VER 0 2 = 3 ∧
    t.raw .TUN_RESV_TX_TOTAL 0 2 = 12 ∧ (t.tunPort 2).credit = [(7, 12 * 25598 - 50)] ∧
    ((after { s with moment := 9 } .epochStart).tunPort 2).shares = [] := by decide +kernel
def holding2 (b : List Byte) (st : Nat) : State := let s := tun2 peered b st
  { s with dev := { s.dev with st := .hold } }
theorem test_holdReport : let s := with_ (tun2 peered (lmpBytes 0x30 6 ([1, 0, 1, 8] ++ leBytes 8 0x123))) [(.TUN_REPORT_BASE_BASE, 0, 0, 0x10_0000_0000 / 16 + 2 ^ 22)]
    let t := after s (.holdReport 2)
    let a := 0x10_0000_0000 + 2 ^ 26
    s.inDram a 16 = true ∧ t.raw .TUN_REPORT_HEAD_HEAD = 1 ∧ t.mem.reads a 11 = leBytes 8 0x123 ++ [2, 1, 8] ∧ t.grn.ipend.testBit 0x18 = true := by decide +kernel
theorem test_holdConfirm : let s := holding2 (lmpBytes 0x31 6 ([1, 0, 1, 0] ++ leBytes 8 7)) csHeld
    let t := after s (.holdConfirm 2)
    t.chanState 7 = csLive ∧ t.dev.st = .run ∧ recIs t 1 4 1 none 0 = true ∧ (after s (.localEnd true)).chanState 7 = csLive ∧
    (after s (.localEnd false)).chanState 7 = csHeld ∧ (after s (.localEnd false)).dev.st = .run ∧ (after s (.localEnd false)).raw .TUN_CMD_STATUS_RESULT = 1 ∧
    (after (tun2 peered (lmpBytes 0x31 6 ([1, 0, 1, 0] ++ leBytes 8 7)) csHeld) (.holdConfirm 2)).chanState 7 = csHeld := by decide +kernel
theorem test_confirm : let s := with_ (tun2 peered []) [(.TUN_CONFIRM_COUNT_COUNT, 0, 0, 1), (.TUN_CONFIRM_BASE_BASE, 0, 0, 0x10_0000_0000 / 8)]
    let t := after s (.confirm 2 true false 4)
    t.raw .TUN_CMD_STATUS_RESULT = 1 ∧ (t.link 2).queue.map (·.bytes) = [(lmpOut 0x31 9 ([1, 0, 1, 4, 0, 0, 0, 0, 0, 0, 0, 0])).bytes] ∧
    (after run0 (.confirm 2 true false 4)).raw .TUN_CMD_STATUS_RESULT = 2 := by decide +kernel
theorem test_time : let s (op : Nat) (body : List Byte) := tun2 { peered with pdelaySeq := 4, t1 := 10, t2 := 30, t4 := 70, prev := some (0, 10) } (lmpBytes op 6 body)
    ((after (s 0x40 [5, 0, 0]) (.sync 2)).tunPort 2).syncRx = some (5, 5) ∧
    answered (s 0x42 [5, 0]) (.pdelayReq 2) 0x43 ([5, 0, 0, 0] ++ leBytes 8 5) = true ∧
    ((after (s 0x43 ([3, 0, 0, 0] ++ leBytes 8 33)) (.pdelayResp 2)).tunPort 2).t2 = 33 ∧
    ((after (s 0x44 ([3, 0, 0, 0] ++ leBytes 8 60)) (.pdelayFollow 2)).tunPort 2).delay = 15 ∧
    ((after (s 0 []) (.syncInterval 2)).tunPort 2).syncSeq = 1 ∧ ((after (s 0 []) (.pdelayInterval 2)).tunPort 2).pdelaySeq = 5 := by decide +kernel
/-- The hypotheses on FOLLOW_UP; its effect goes through the hub's own clock identity, which is free. -/
theorem test_followUp : let s := tun2 { peered with syncRx := some (5, 40) } (lmpBytes 0x41 6 ([5, 0] ++ List.replicate 21 0))
    lmpOk (lmpBytes 0x41 6 ([5, 0] ++ List.replicate 21 0)) = true ∧ s.peerOk 2 = true ∧ (s.tunPort 2).syncRx = some (5, 40) ∧ okB s = true := by decide +kernel
theorem test_syncReceiptTimeout : let s := { with_ (up2 lp) [(.TMB_STATUS_DISCIPLINED, 0, 0, 1)] with tmb := { run0.tmb with slave := some 2 } }
    let t := after s .syncReceiptTimeout
    16 * s.syncEvery ≤ s.clock ∧ t.raw .TMB_STATUS_DISCIPLINED = 0 ∧ recIs t 2 3 2 none 0 = true ∧
    (after { s with clock := 5 } .syncReceiptTimeout).raw .TMB_STATUS_DISCIPLINED = 1 := by decide +kernel

/-- A unit queued in slot 5, bound to a berth and a port, with the port's link up. -/
def unit5 : Flow := { blankFlow with chan := 7, kind := 1, bytes := List.replicate 100 3, length := 100, place := .queued 5, entry := mkEntry 5 csLive false [(12, 0, 9)] }
def item5 : Queued := ⟨0, 1, false, false, false, 0, 0, false⟩
def queued5 (berth port : Nat) (x : Queued) (f : Flow) : State :=
  let s := with_ (chan7 5 csLive) [(.SAL_QCFG_BERTH, 0, 5, berth), (.SAL_QCFG_PORT, 0, 5, port), (.SAL_QCFG_TC, 0, 5, 3), (.ETH_STATUS_LINK, 4, 0, 1),
    (.ETH_CFG_ENABLE, 4, 0, 1), (.ETH_STATUS_SPEED, 4, 0, 3), (.ETH_TC_MAX_SDU, 4, 3, 1522), (.LNK_STATUS_UP, 2, 0, 1), (.LNK_CFG_ENABLE, 2, 0, 1)]
  { s with sal := { s.sal with queues := [(5, [x])], units := [(0, f)], nextUnit := 1 } }
theorem test_egressStart : let s := queued5 21 4 item5 unit5
    let t := after s (.egressStart gEth 4)
    okB s = true ∧ logB s = true ∧ s.flowing = true ∧ s.inDram s.area (2 ^ 26) = true ∧ s.slotsOf gEth 4 = [5] ∧ s.headOf 5 = some (item5, unit5) ∧
    s.headFault 5 unit5 = 0 ∧ s.mayStart 5 item5 unit5 = true ∧ s.fits 4 3 100 = true ∧ s.shapers 5 = [] ∧ t.queue 5 = [{ item5 with started := true, sent := 1 }] ∧
    t.rak.sending = [(portKey gEth 4, 5)] ∧ frameB s t [.rak, .sal, .tmb] [] = true ∧ after s (.transmissionOpportunity 4) = t := by decide +kernel
theorem test_egressCable : let s := queued5 6 0 item5 unit5
    let t := after s (.egressStart 2 0)
    s.slotsOf 2 0 = [5] ∧ s.nextPart 2 5 = some (item5, unit5, unit5.bytes, true) ∧ s.headFault 5 unit5 = 0 ∧ eWeight unit5.entry = 0 ∧
    t.queue 5 = [{ item5 with started := true, sent := 1, ended := true }] ∧ t.tun.cseq = [(7, 1)] ∧
    (t.link 2).queue.map (·.bytes) = [parcelHeader 1 6 1 3 9 100 0 0 ++ padded unit5.bytes] ∧ frameB s t [.lnk, .tun, .sal, .tmb] [] = true := by decide +kernel
theorem test_egressComplete : let x := { item5 with started := true, sent := 1 }
    let s := queued5 21 4 x unit5
    let t := after s (.egressComplete 5)
    outIs t .frame [gEth, 4, 0] = true ∧ t.raw .ETH_TX_FRAMES_FRAMES 4 = 1 ∧ t.raw .SAL_QSTAT_UNITS_OUT 0 5 = 1 ∧ t.sal.units = [] ∧ t.queue 5 = [] ∧
    frameB s t [.out, .sal, .rak] [.ETH_TX_FRAMES_FRAMES, .SAL_QSTAT_UNITS_OUT] = true ∧
    (let s := queued5 6 0 { x with ended := true } unit5
     let t := after s (.egressComplete 5)
     t.raw .SAL_QSTAT_UNITS_OUT 0 5 = 1 ∧ t.queue 5 = [] ∧ frameB s t [.sal, .rak] [.SAL_QSTAT_UNITS_OUT] = true) ∧
    after (queued5 21 4 item5 unit5) (.egressComplete 5) = queued5 21 4 item5 unit5 := by decide +kernel
theorem test_lostFlake : let x := { item5 with started := true }
    let s := queued5 21 4 x { unit5 with whole := false }
    let t := after s (.lostFlakeTimeout 5)
    t.raw .SAL_LOST_UNITS = 1 ∧ (t.sal.units.get? 0).map (·.bad) = some true ∧ frameB s t [.sal] [.SAL_LOST_UNITS] = true ∧
    after (queued5 21 4 x unit5) (.lostFlakeTimeout 5) = queued5 21 4 x unit5 := by decide +kernel
theorem test_refill : let s := queued5 21 4 { item5 with spilled := true } unit5
    let t := after s .refill
    s.refillDue 5 = some { item5 with spilled := true } ∧ t.queue 5 = [item5] ∧ frameB s t [.sal] [] = true ∧
    after (queued5 21 4 item5 unit5) .refill = queued5 21 4 item5 unit5 ∧ (queued5 21 4 item5 unit5).refillDue 5 = none := by decide +kernel
theorem test_flush : let s := queued5 21 4 item5 unit5
    let t := after s (.flush 5)
    t.raw .SAL_QCFG_FLUSH 0 5 = 1 ∧ t.queue 5 = [] ∧ t.sal.units = [] ∧ t.load (s.statsAddr 7 + 8) 8 = 1 ∧ t.raw .SAL_QSTAT_DROPS 0 5 = 1 ∧ t.sal.flushes = [5] ∧
    (after t (.flushComplete 5)).raw .SAL_QCFG_FLUSH 0 5 = 0 ∧ (after t (.flushComplete 5)).sal.flushes = [] ∧ after s (.flushComplete 5) = s := by decide +kernel
theorem test_berths : let s := queued5 21 4 item5 unit5
    let t := after s (.berthDrain 22)
    let u := after t (.berthOff 22)
    t.raw .SAL_BERTH_STATE_STATE 0 22 = 1 ∧ t.raw .SAL_BERTH_CMD_STATUS_RESULT = 1 ∧ (after t (.berthDrain 22)).raw .SAL_BERTH_CMD_STATUS_RESULT = 2 ∧
    u.raw .SAL_BERTH_STATE_STATE 0 22 = 2 ∧ recIs u 0x19 8 2 none 22 = true ∧ after s (.berthOff 22) = s ∧
    (after u (.berthRestore 22)).raw .SAL_BERTH_STATE_STATE 0 22 = 0 ∧ recIs (after u (.berthRestore 22)) 0x19 9 1 none 22 = true ∧
    (after s (.berthRestore 22)).raw .SAL_BERTH_CMD_STATUS_RESULT = 2 ∧
    (let v := { u with sal := { u.sal with failed := [22] } }
     (after v (.berthRestore 22)).raw .SAL_BERTH_CMD_STATUS_RESULT = 2) := by decide +kernel

/-- Ethernet port 4 up, its frames on channel 7. -/
def eth4 (e : EthPort) : State := let s := with_ (hot (chan7 5 csLive)) [(.ETH_STATUS_LINK, 4, 0, 1), (.ETH_CFG_ENABLE, 4, 0, 1), (.ETH_STATUS_SPEED, 4, 0, 3),
    (.ETH_PTP_ENABLE, 4, 0, 1), (.ETH_RX_CLASS_DESC, 4, 0, 0xFF), (.ETH_RX_CLASS_DEFAULT, 4, 0, 7), (.ETH_CFG_MAX_FRAME, 4, 0, 200)]
  { s with eth := [(4, e)], clock := 10 * sec, moment := 50 }
def e4 : EthPort := { blankEth with pdelaySeq := 4, t1 := 10, t2 := 30, t4 := 70, prev := some (0, 10), capable := true }
def frame4 (etype n : Nat) (dst : Nat := 5) : List Byte :=
  let b := beBytes 6 dst ++ beBytes 6 9 ++ beBytes 2 etype ++ List.replicate n 1
  b ++ leBytes 4 (crc32 b)
theorem test_frames : let s := eth4 e4
    let one (b : List Byte) (err : Bool) (r : RegId) : Bool := (after s (.ethFrameReceive 4 b err)).raw r 4 == 1 && frameB s (after s (.ethFrameReceive 4 b err)) [] [r]
    okB s = true ∧ logB s = true ∧ s.flowing = true ∧ s.ethUp 4 = true ∧ one (frame4 0x800 45) false .ETH_RX_RUNT_FRAMES = true ∧
    one (List.replicate 201 1) false .ETH_RX_LONG_FRAMES = true ∧ one (frame4 0x800 46) true .ETH_RX_FCS_FRAMES = true ∧
    one (List.replicate 200 1) false .ETH_RX_FCS_FRAMES = true ∧ one (frame4 0x8808 46) false .ETH_RX_MACCTL_FRAMES = true ∧
    after s (.ethFrameReceive 4 (frame4 0x88F7 46 0x0180C200000E) false) = s := by decide +kernel
theorem test_frame_good : let s := eth4 e4
    let b := frame4 0x800 46
    let t := after s (.ethFrameReceive 4 b false)
    b.length = 64 ∧ s.pickBerth gEth 4 = some 21 ∧ s.cached 7 = true ∧ s.chanState 7 = csLive ∧ ceilDiv 64 128 ≤ s.panFree ∧ t.raw .ETH_RX_FRAMES_FRAMES 4 = 1 ∧
    (t.sal.units.get? 0).map (fun f => [f.chan, f.kind, f.berth, f.stampMoment]) = some [7, 1, 21, 50] ∧ (t.sal.units.get? 0).map (·.bytes) = some b ∧
    (t.sal.units.get? 0).map (·.bad) = some false ∧ (t.sal.units.get? 0).map (·.place) = some (.waiting false) ∧
    frameB s t [.sal, .tmb, .chn] [.ETH_RX_FRAMES_FRAMES, .CHN_CACHE_HITS_HITS] = true := by decide +kernel
/-- A list of two entries in force: class 0 for 30 ns, then every class. -/
def sluiced : State := with_ (eth4 { e4 with listLen := 2 }) [(.ETH_SLU_STATUS_OPER_EN, 4, 0, 1), (.ETH_SLU_OPER_CYCLE_CYCLE_NS, 4, 0, 100),
  (.ETH_SLU_OPER_ENTRY, 4, 0, 1 + 30 * 256), (.ETH_SLU_OPER_ENTRY, 4, 1, 0xFF + 70 * 256)]
theorem test_gates : (after sluiced (.gateChange 4)).raw .ETH_SLU_STATUS_GATES 4 = 1 ∧ (after sluiced (.gateChange 4)).raw .ETH_SLU_STATUS_ENTRY 4 = 0 ∧
    (after { sluiced with moment := 120 } (.gateChange 4)).raw .ETH_SLU_STATUS_GATES 4 = 0xFF ∧
    (after { sluiced with moment := 120 } (.gateChange 4)).raw .ETH_SLU_STATUS_ENTRY 4 = 1 ∧
    (after { sluiced with moment := 119 } (.gateChange 4)).raw .ETH_SLU_STATUS_ENTRY 4 = 0 ∧
    frameB sluiced (after sluiced (.gateChange 4)) [.rak] [.ETH_SLU_STATUS_GATES, .ETH_SLU_STATUS_ENTRY] = true := by decide +kernel
def changing : State := let s := eth4 { e4 with changeAt := some 50 }
  let s := with_ s [(.ETH_SLU_STATUS_CHANGE_PENDING, 4, 0, 1), (.BLK_STATUS_COMMIT_PENDING, 0x24, 0, 1)]
  let f := ((((State.reset.regs.write .ETH_SLU_CFG_GATE_EN 4 0 1).write .ETH_SLU_CFG_LIST_LEN 4 0 2).write .ETH_SLU_CYCLE_CYCLE_NS 4 0 100).write
    .ETH_SLU_LIST_GATES 4 1 6).write .ETH_SLU_LIST_INTERVAL_NS 4 1 70
  { s with taken := f, shadows := f }
theorem test_sluiceChange : let t := after changing (.sluiceConfigChange 4)
    okB changing = true ∧ t.raw .ETH_SLU_STATUS_OPER_EN 4 = 1 ∧ t.raw .ETH_SLU_OPER_BASE_BASE 4 = 50 ∧ t.raw .ETH_SLU_OPER_CYCLE_CYCLE_NS 4 = 100 ∧
    t.raw .ETH_SLU_OPER_ENTRY 4 1 = 6 + 70 * 256 ∧ (t.ethPort 4).listLen = 2 ∧ (t.ethPort 4).changeAt = none ∧ t.raw .ETH_SLU_STATUS_CHANGE_PENDING 4 = 0 ∧
    t.raw .BLK_STATUS_COMMIT_PENDING 0x24 = 0 ∧ t.raw .BLK_STATUS_RESULT 0x24 = 1 ∧ recIs t 0x24 5 2 none (0xFF + 50 * 2 ^ 32) = true ∧
    after { changing with moment := 49 } (.sluiceConfigChange 4) = { changing with moment := 49 } := by decide +kernel
theorem test_ethLinks : let s := with_ (eth4 e4) [(.ETH_STATUS_LINK, 4, 0, 0), (.ETH_CFG_MODE, 4, 0, 1)]
    let t := after s (.ethLinkUp 4 1)
    s.laneOut 28 = false ∧ t.raw .ETH_STATUS_LINK 4 = 1 ∧ t.raw .ETH_STATUS_SPEED 4 = 1 ∧ recIs t 0x24 2 1 none 0xFF = true ∧ (t.ethPort 4).capable = false ∧
    after s (.ethLinkUp 4 3) = s ∧ after s (.ethLinkDown 4) = s := by decide +kernel
/-- The hypotheses on a falling link; its effect goes through the hub's own clock identity, which is free. -/
theorem test_ethLinkDown : (eth4 e4).raw .ETH_STATUS_LINK 4 = 1 ∧ (eth4 e4).slotsOf gEth 4 = [] ∧ (eth4 e4).rak.sending = [] ∧ (eth4 e4).raw .TMB_STATUS_DISCIPLINED = 0 := by
  decide +kernel
theorem test_ptp : let s := eth4 e4
    let is (i : Instr) (e : EthPort) : Bool := (after s i).eth == [(4, e)]
    (s.ethPort 4).capable = true ∧ is (.ptpSync 4 6) { e4 with syncRx := some (6, 50) } = true ∧ is (.ptpPdelayReq 4 6) { e4 with ptp := [(3, 6, 50)] } = true ∧
    is (.ptpPdelayResp 4 3 33) { e4 with t2 := 33, t4 := 50 } = true ∧
    is (.ptpPdelayRespFollowUp 4 3 60) { e4 with delay := 15, prev := some (60, 70), capable := true } = true ∧ is (.ptpSignaling 4) e4 = true ∧
    is (.announceInterval 4) { e4 with announceAt := 10 * sec, ptp := [(11, 0, 0)] } = true ∧
    is (.syncInterval 0x14) { e4 with syncSeq := 1, syncAt := 10 * sec, ptp := [(0, 0, 0)] } = true ∧
    is (.pdelayInterval 0x14) { e4 with pdelaySeq := 5, pdelayAt := 10 * sec, ptp := [(2, 4, 0)] } = true ∧
    after (eth4 blankEth) (.ptpAnnounce 4 1 2 3 4 5) = eth4 blankEth ∧ frameB s (after s (.ptpSync 4 6)) [.eth, .tmb] [] = true := by decide +kernel
/-- A mean delay above 800 ns, and the hypotheses of Follow_Up. -/
theorem test_ptp_slow : meanDelay 10 30 60 20070 none = 10015 ∧ (3200 : Int) < 10015 ∧ ((eth4 { e4 with syncRx := some (6, 40) }).ethPort 4).syncRx = some (6, 40) := by
  decide +kernel

/-- PCI Express controller 1 up as an endpoint, its requests on channel 7. -/
def pci1 (b : BrgPart → BrgPart := id) : State := let s := with_ (hot (chan7 5 csLive)) [(.PCI_CFG_ENABLE, 1, 0, 1), (.PCI_STATUS_LINK_UP, 1, 0, 1), (.PCI_CFG_ROLE, 1, 0, 1),
    (.PCI_RX_CLASS_DEFAULT, 1, 0, 7), (.PCI_RX_CLASS_DESC, 1, 0, 0xFF)]
  { s with brg := b s.brg, clock := 10 * sec, moment := 50 }
def ask1 : BrgReq := ⟨1, .link 11 9 3, 4096, 4, tlpHead 0 0 1 9 3 15 4096, 7, none, none, [], none⟩
def asked1 : BrgReq := { ask1 with tag := some 2, slot := some 0 }
def inFlight : State := let s := pci1 fun b => { b with reqs := [asked1] }
  { s with grn := { s.grn with harvest := [(0, { blankSlot with inst := 1, chan := 7 })], nextSlot := 1 } }
theorem test_pciLinkUp : let s := with_ (pci1) [(.PCI_STATUS_LINK_UP, 1, 0, 0)]
    let t := after s (.pciLinkUp 1 4 2 true)
    okB s = true ∧ logB s = true ∧ s.flowing = true ∧ (bondMembers (s.raw .BRG_CFG_BOND) 1).isEmpty = false ∧ s.perstHigh 1 = true ∧ s.laneOut 35 = false ∧
    s.flag .PCI_CFG_ENABLE 1 = true ∧ t.raw .PCI_STATUS_LINK_UP 1 = 1 ∧ t.raw .PCI_STATUS_RATE 1 = 4 ∧ t.raw .PCI_STATUS_WIDTH 1 = 2 ∧ t.raw .PCI_STATUS_TAG10 1 = 1 ∧
    recIs t 0x32 2 1 none 0 = true ∧ after s (.pciLinkUp 1 6 2 true) = s ∧ after s (.pciLinkUp 1 4 8 true) = s ∧ after s (.pciLinkUp 1 4 3 true) = s ∧
    frameB s t [.btn] [.PCI_STATUS_LINK_UP, .PCI_STATUS_RATE, .PCI_STATUS_WIDTH, .PCI_STATUS_TAG10] = true := by decide +kernel
theorem test_pciLinkDown : let s := inFlight
    let t := after s (.pciLinkDown 1)
    s.reqsOf 1 = [asked1] ∧ s.slotsOf (gPci 1) 0 = [] ∧ s.hostLoc = false ∧ t.raw .PCI_STATUS_LINK_UP 1 = 0 ∧ t.raw .PCI_STATUS_LINK_DOWNS 1 = 1 ∧ t.brg.reqs = [] ∧
    t.grn.harvest = [] ∧ t.out = [⟨.tlp, [2], completionTlp 9 3 4 4 4096 []⟩] ∧ recIs t 0x32 1 2 none 0 = true := by decide +kernel
theorem test_perst : let s := with_ (pci1 fun b => { b with msix := [(5, (1, 2, 0)), (2048 + 5, (1, 2, 0))], msixPend := [(2048 + 6, none)] }) [(.PCI_STATUS_LINK_UP, 1, 0, 0)]
    let t := after s (.perstAssert 1)
    t.brg.perst = [(1, 0)] ∧ t.brg.msix = [(5, (1, 2, 0))] ∧ t.brg.msixPend = [] ∧ t.perstHigh 1 = false ∧ (after t (.perstRelease 1)).brg.perst = [(1, 10 * sec + 1)] ∧
    (after t (.perstRelease 1)).perstHigh 1 = false ∧ after s (.perstRelease 1) = s ∧ frameB s t [.brg] [] = true ∧
    (let u := with_ s [(.PCI_CFG_ROLE, 1, 0, 0)]
     after u (.perstAssert 1) = u) := by decide +kernel
theorem test_pwerrPop : (after (pci1 fun b => { b with pwerr := [⟨1, 2, 3, 4, 5⟩, ⟨6, 0, 0, 0, 0⟩] }) .pwerrPop).brg.pwerr = [⟨6, 0, 0, 0, 0⟩] := by decide +kernel
theorem test_tlp_unsupported : let b := tlpHead 0 2 1 9 3 15 4096
    let t := after pci1 (.pciTlpReceive 1 b none)
    tlpUnsupported b = true ∧ t.out = [⟨.tlp, [1], completionTlp 9 3 1 4 4096 []⟩] ∧ t.raw .PCI_UR_SENT_COUNT 1 = 1 := by decide +kernel
def far : State := pci1
theorem test_tlp_bar : let s := far
    let b := writeTlp 0x08000000 [1, 2, 3, 4]
    let a := 0x10_0000_0000 + 0x08000000
    let t := after s (.pciTlpReceive 1 b (some (4, 0x08000000)))
    s.raw .PCI_BAR4_LOG2_SIZE 1 = 30 ∧ tlpMemory b = true ∧ enabledRuns b 4 = [(0, 4)] ∧ s.plainDram a 4 = true ∧ s.touchesStore a 4 = false ∧ t.mem.reads a 4 = [1, 2, 3, 4] ∧
    frameB s t [.mem] [] = true ∧
    (let r := tlpHead 0 0 1 9 3 15 0x08000000
     after t (.pciTlpReceive 1 r (some (4, 0x08000000))) = { t with out := [⟨.tlp, [1], completionTlp 9 3 0 4 a [1, 2, 3, 4]⟩] } ∧ enabledRuns r 4 = [(0, 4)] ∧
      a % s.maxPayload 1 + 4 ≤ s.maxPayload 1) ∧
    (let p := b.take 2 ++ [0x40] ++ b.drop 3
     let u := after s (.pciTlpReceive 1 p (some (4, 0x08000000)))
     tlpPoisoned p = true ∧ u.brg.pwerr = [⟨a, 1, 4, 0, 50⟩] ∧ u.grn.ipend.testBit 0x30 = true) := by decide +kernel
theorem test_tlp_unit : let s := pci1
    let b := writeTlp 0x08000000 [1, 2, 3, 4]
    let t := after s (.pciTlpReceive 1 b none)
    exactOne (s.descAt 0xFF) = false ∧ s.pickBerth (gPci 1) 0 = some 26 ∧ (t.sal.units.get? 0).map (fun f => [f.chan, f.kind, f.berth, f.stampMoment]) = some [7, 2, 26, 50] ∧
    (t.sal.units.get? 0).map (·.bytes) = some b ∧ frameB s t [.sal, .tmb, .chn] [.CHN_CACHE_HITS_HITS] = true := by decide +kernel
theorem test_completion : let s := inFlight
    let t := after s (.pciCompletionReceive 1 2 0 [5, 6, 7, 8])
    let u := after s (.pciCompletionReceive 1 2 1 [])
    (s.reqsOf 1).find? (fun r => r.tag == some 2) = some asked1 ∧ t.out = [⟨.tlp, [2], completionTlp 9 3 0 4 4096 [5, 6, 7, 8]⟩] ∧ t.brg.reqs = [] ∧ t.grn.harvest = [] ∧
    frameB s t [.brg, .grn, .out, .tmb] [] = true ∧ u.out = [⟨.tlp, [2], completionTlp 9 3 4 4 4096 []⟩] ∧
    (after s (.pciCompletionReceive 1 3 0 [])).raw .PCI_LATE_CPL_COUNT 1 = 1 := by decide +kernel
theorem test_requestIssue : let s := pci1 fun b => { b with reqs := [ask1] }
    let t := after s (.pciRequestIssue 1)
    s.freeTag 1 = some 0 ∧ s.instFree 1 = true ∧ s.bufferFree 1 4 = true ∧ s.flag .BLK_STATUS_QUIESCED 0x32 = false ∧ t.brg.reqs = [{ ask1 with tag := some 0, slot := some 0 }] ∧
    t.out = [⟨.tlp, [1], retag ask1.tlp 0⟩] ∧ t.grn.nextSlot = 1 ∧ (t.grn.harvest.get? 0).map (·.inst) = some 1 ∧ after pci1 (.pciRequestIssue 1) = pci1 := by decide +kernel
/-- A message of channel 7 for the bridge. -/
def told (ty : Nat) (more : List (Nat × Nat × Nat)) (words : List Nat) (s : State) : State :=
  { s with grn := { s.grn with msgs := [⟨0x30, (words.map (leBytes 8)).flatten, some 7, 35, mkEntry ty csLive false more⟩] } }
def raise1 (vc : Nat) : State := told 4 [(32, 0, 1), (48, 0, 6)] [1 + 1 * 2 ^ 16 + 6 * 2 ^ 32, 26 + 5 * 256]
  (with_ (pci1 fun b => { b with msix := [(2048 + 6, (0x1000, 9, vc))] }) [(.SAL_QCFG_BERTH, 0, 5, 26), (.SAL_QCFG_ENABLE, 0, 5, 1), (.SAL_QCFG_LIMIT, 0, 5, 9), (.SAL_QCFG_PAN_LIMIT, 0, 5, 9)])
theorem test_raise : let s := raise1 0
    let t := after s .raise
    let u := after (raise1 1) .raise
    s.message 0x30 = s.grn.msgs.head? ∧ (s.grn.msgs.map raiseOk) = [true] ∧ s.vectorLink 1 = true ∧ s.enqCheck 5 26 1 0xFFFF false = 0 ∧ s.wouldSpill 5 1 = false ∧
    t.grn.msgs = [] ∧ t.queue 5 = [⟨0, 1, false, false, false, 0, 0, false⟩] ∧ (t.sal.units.get? 0).map (·.bytes) = some (writeTlp 0x1000 [9, 0, 0, 0]) ∧
    frameB s t [.grn, .sal] [] = true ∧ u.brg.msixPend = [(2048 + 6, some (26 + 5 * 256, 7))] ∧ u.grn.msgs = [] ∧
    (let s := told 10 [] [1] pci1
     let t := after s .raise
     t.grn.msgs = [] ∧ t.raw .BRG_MSG_REFUSED_MESSAGES = 1 ∧ recIs t 0x30 5 2 (some 7) (7 * 2 ^ 64) = true ∧ after s .brgMove = s) ∧
    (after (told 10 [] [3] pci1) .brgMove).raw .BRG_MSG_REFUSED_MESSAGES = 1 := by decide +kernel
def regioned : State := with_ pci1 [(.BRG_REGION_BASE, 0, 2, 0x20_0000_0000 / 4096), (.BRG_REGION_SIZE, 0, 2, 20), (.BRG_REGION_KIND, 0, 2, 3), (.BRG_REGION_TARGET, 0, 2, 0x08000000),
  (.BRG_REGION_READ, 0, 2, 1), (.BRG_REGION_WRITE, 0, 2, 1), (.BRG_REGION_SEM, 0, 2, 9)]
theorem test_brgMove : let s := told 1 [(44, 0, 2), (45, 0, 3), (46, 0, 3)] [2 + 256, 0x20_0000_0000, 0x20_0000_0100, 64] regioned
    let t := after s .brgMove
    s.grn.msgs.map (moveOk s) = [true] ∧ t.mover 3 = ⟨[⟨0x20_0000_0000, 0x20_0000_0100, 64, false, 7, true, 0, false⟩], none, false⟩ ∧ t.grn.msgs = [] ∧
    frameB s t [.grn, .brg] [] = true ∧
    (let full := { s with brg := { s.brg with movers := [(3, ⟨List.replicate 16 ⟨0, 0, 1, false, 7, false, 0, false⟩, none, false⟩)] } }
     after full .brgMove = full) := by decide +kernel

theorem test_prefetchDiscard : let s := pci1 fun b => { b with ahead := [⟨2, 0x2000000008, [1, 2, 3], 10 * sec - 4 * us - 1⟩] }
    let t := after s .prefetchDiscard
    t.brg.ahead = [] ∧ t.raw .BRG_DISCARD_ADDRESS 0 0 = 0x2000000008 ∧ t.raw .BRG_DISCARD_REGION 0 0 = 2 ∧ t.raw .BRG_DISCARD_MOMENT_LO 0 0 = 50 ∧
    t.raw .BRG_DISCARD_LENGTH 0 0 = 3 ∧ t.raw .BRG_DISCARD_STATUS_NEXT = 1 ∧ t.raw .BRG_DISCARD_STATUS_COUNT = 1 ∧
    after { s with clock := 10 * sec - 1 } .prefetchDiscard = { s with clock := 10 * sec - 1 } := by decide +kernel
def leasing : State := let s := with_ pci1 [(.BRG_SEM_HELD, 0, 9, 1), (.BRG_SEM_OWNER, 0, 9, 0x613), (.BRG_SEM_LEASE_US, 0, 9, 100), (.BRG_SEM_BASE, 0, 9, 0x1230)]
  { s with grn := { s.grn with semSince := [(9, 10 * sec - 100 * us)] } }
theorem test_semLease : let t := after leasing (.semLeaseExpiry 9)
    t.raw .BRG_SEM_HELD 0 9 = 0 ∧ t.raw .BRG_SEM_OWNER 0 9 = 0xFFF ∧ t.raw .BRG_SEM_TAINTED 0 9 = 1 ∧ t.grn.semSince = [] ∧
    recIs t 0x30 2 3 none (leasing.raw .BRG_SEM_BASE 0 9 + 0x613 * 2 ^ 64) = true ∧
    after { leasing with clock := 10 * sec - 1 } (.semLeaseExpiry 9) = { leasing with clock := 10 * sec - 1 } := by decide +kernel
def fetchAdd : List Byte := tlpHead 2 0x0C 1 9 3 15 0x20_0000_0010 ++ leBytes 4 0xFFFFFFFF
theorem test_atomic : let s := { regioned with mem := regioned.mem.writes 0x10_0800_0010 [5, 1] }
    let t := after s (.atomicEmulation 1 fetchAdd [])
    s.regionOf 0x20_0000_0010 = some 2 ∧ s.regionTarget 2 0x20_0000_0010 = 0x08000010 ∧ s.inDram 0x10_0800_0010 4 = true ∧ t.load 0x10_0800_0010 4 = 0x104 ∧
    t.out = [⟨.tlp, [1], completionTlp 9 3 0 4 0x20_0000_0010 [5, 1, 0, 0]⟩] ∧ t.raw .BRG_SEM_HELD 0 9 = 0 ∧
    frameB s t [.out, .mem, .brg, .grn] [.BRG_SEM_HELD, .BRG_SEM_OWNER] = true ∧ outIs (after pci1 (.atomicEmulation 1 fetchAdd [])) .tlp [1] = true ∧
    (after pci1 (.atomicEmulation 1 fetchAdd [])).raw .PCI_UR_SENT_COUNT 1 = 1 ∧
    (after (with_ regioned [(.BRG_REGION_SEM, 0, 2, 0x7F)]) (.atomicEmulation 1 fetchAdd [])).raw .PCI_UR_SENT_COUNT 1 = 1 ∧
    recIs (after (with_ s [(.BRG_SEM_TAINTED, 0, 9, 1)]) (.atomicEmulation 1 fetchAdd [])) 0x30 3 2 none 0x20_0000_0010 = true ∧
    (let w := after (with_ s [(.BRG_SEM_HELD, 0, 9, 1)]) (.atomicEmulation 1 fetchAdd [])
     w.brg.emu = [(1027, 10 * sec)] ∧ w.out = [] ∧
     (let x := after { w with clock := 20 * sec } (.atomicEmulation 1 fetchAdd [])
      10 * sec + w.raw .BRG_CFG_EMU_WAIT_US * us ≤ 20 * sec ∧ recIs x 0x30 4 2 none 0x20_0000_0010 = true ∧ x.brg.emu = [])) := by decide +kernel
/-- Mover 3 with a ring at 64 MiB of DRAM and one descriptor there. -/
def ring3 (len : Nat) : State := let s := with_ pci1 [(.MOV_RING_BASE_BASE, 0, 3, 0x10_0400_0000 / 32), (.MOV_TAIL_TAIL, 0, 3, 1)]
  { s with mem := (s.mem.writes 0x10_0400_0000 (leBytes 8 0x10_0800_0000 ++ leBytes 8 0x10_0800_0002 ++ leBytes 4 len)).writes 0x10_0800_0000 [1, 2, 3, 4] }
theorem test_mover : let s := ring3 4
    let t := after s (.moverStart 3)
    let u := after t (.moverComplete 3 [] 0)
    s.nextTransfer 3 = some ⟨0x10_0800_0000, 0x10_0800_0002, 4, true, 0, false, 0, false⟩ ∧ t.raw .MOV_STATE_STATE 0 3 = 1 ∧ (t.mover 3).run = s.nextTransfer 3 ∧
    t.leased 0x10_0800_0002 4 = false ∧ t.plainDram 0x10_0800_0002 4 = true ∧ placeOf 0x10_0800_0002 = .dram ∧ u.mem.reads 0x10_0800_0000 6 = [1, 2, 1, 2, 3, 4] ∧
    u.mem.read 0x10_0400_0018 = 1 ∧ u.raw .MOV_BYTES_BYTES 0 3 = 4 ∧ u.raw .MOV_HEAD_HEAD 0 3 = 1 ∧ u.mover 3 = ⟨[], none, true⟩ ∧
    frameB t u [.brg, .mem] [.MOV_STATE_STATE, .MOV_HEAD_HEAD, .MOV_BYTES_BYTES] = true ∧ after t (.moverStart 3) = t ∧ after s (.moverComplete 3 [] 0) = s := by
  decide +kernel
theorem test_mover_bad : let t := after (ring3 0) (.moverStart 3)
    let u := after t (.movRestart 3)
    t.raw .MOV_STATE_STATE 0 3 = 2 ∧ t.mem.read 0x10_0400_0018 = 11 ∧ (t.mover 3).run = none ∧ recIs t 0x30 7 2 none 3 = true ∧ u.raw .MOV_STATE_STATE 0 3 = 0 ∧
    u.raw .MOV_HEAD_HEAD 0 3 = 1 ∧ after (ring3 0) (.movRestart 3) = ring3 0 := by decide +kernel
/-- Mailbox 4 of this hub, in a chain whose port 2 leads to a peer further down. -/
def boxed (b : List Byte) : State := tun2 peered b
theorem test_mailbox : let s := boxed []
    let a := s.mailArea + 4 * 0x1_0000
    let s := { s with mem := (s.mem.writes (a + 8) [1]).writes (a + 0x8000) ([3, 0, 1, 0, 9, 0, 0, 0] ++ [7, 8, 9]) }
    let t := after s (.mailboxResponse 4)
    s.portTowards 1 = some 2 ∧ t.load (a + 12) 4 = 1 ∧ (t.link 2).queue.map (·.bytes) = [parcelHeader 2 6 0 3 0 11 0 0 ++ padded ([0x50, 1, 9, 0] ++ ctlBody 1 4 true 0 [7, 8, 9])] ∧
    after t (.mailboxResponse 4) = t := by decide +kernel
def ctlBytes (target mbox hops : Nat) (data : List Byte) : List Byte :=
  let body := ctlBody target mbox false 1 data
  closeParcel (parcelHeader 2 6 0 hops 0 (4 + body.length) 0 0 ++ padded ([0x50, 1, 6, 0] ++ body)) 9 false
theorem test_ctl : let s := boxed (ctlBytes 0 4 2 [7, 8, 9])
    let a := s.mailArea + 4 * 0x1_0000
    let t := after s (.ctl 2)
    lmpOk (ctlBytes 0 4 2 [7, 8, 9]) = true ∧ t.load a 4 = 1 ∧ t.mem.reads (a + 0x100) 12 = [3, 0, 1, 0, 6, 0, 0, 0, 7, 8, 9, 0] ∧ t.grn.ipend.testBit 0x30 = true ∧
    (t.link 2).inbox = [] ∧ recIs (after (boxed (ctlBytes 3 4 0 [])) (.ctl 2)) 0x18 0xA 2 none 2 = true ∧
    ((after (boxed (ctlBytes 3 4 2 [7])) (.ctl 2)).link 2).queue.map (·.bytes) = [parcelHeader 2 6 0 1 0 9 0 0 ++ padded ([0x50, 1, 6, 0] ++ ctlBody 3 4 false 1 [7])] ∧
    (let f := { s with mem := (s.mem.writes a [126]) }
     recIs (after f (.ctl 2)) 0x30 8 2 none 4 = true) := by decide +kernel
def wr2 : LocReq := ⟨2, 0x50, 0x123, [1, 2], 2, true, .nobody, 7, none, 0⟩
def loc2 (l : List LocReq) (b : NMap LocReq) : State := with_ (pci1 fun x => { x with loc := l, busy := b }) [(.I2C_CFG_ENABLE, 0, 0, 1), (.SPI_CFG_ENABLE, 1, 0, 1)]
theorem test_localBus : let s := loc2 [wr2] []
    let t := after s (.localBusTransfer 2)
    let r := after (loc2 [{ wr2 with write := false, data := [] }] []) (.localBusTransfer 2)
    let d := after t (.localBusComplete 2 0 [])
    let e := after t (.localBusComplete 2 1 [])
    s.locOn 2 = true ∧ t.brg.loc = [] ∧ t.brg.busy = [(2, { wr2 with since := 10 * sec })] ∧ t.raw .I2C_STATUS_BUSY 0 = 1 ∧ t.out = [⟨.localbus, [2, 0x50, 0x23, 2, 1], [1, 2]⟩] ∧
    r.grn.nextSlot = 1 ∧ (r.brg.busy.get? 2).map (·.slot) = some (some 0) ∧ d.brg.busy = [] ∧ d.raw .I2C_STATUS_BUSY 0 = 0 ∧ d.raw .I2C_STATUS_LAST_ERR 0 = 0 ∧
    e.raw .I2C_STATUS_LAST_ERR 0 = 1 ∧ e.raw .I2C_STATUS_ERRORS 0 = 1 ∧ e.brg.pwerr = [⟨0x123, 4, 6, 7, 50⟩] ∧
    (after (loc2 [{ wr2 with window := 3 }] []) (.localBusTransfer 3)).brg.pwerr = [⟨0x123, 4, 1, 7, 50⟩] ∧
    (after (loc2 [] [(1, { wr2 with window := 1 })]) (.localBusComplete 1 0 [])).raw .SPI_STATUS_TRANSFERS 1 = 1 := by decide +kernel
theorem test_uart : let s := with_ pci1 [(.UART_CFG_ENABLE, 1, 0, 1)]
    let t := after s (.uartReceive 1 0x41 true false)
    uartGet t.brg.uartRx 7 = [0x41] ∧ t.raw .UART_ERRORS_PARITY 1 = 1 ∧ t.raw .UART_ERRORS_FRAMING 1 = 0 ∧ t.raw .UART_ERRORS_OVERRUN 1 = 0 ∧
    after s (.uartReceive 0 0x41 true false) = s ∧
    (let f := { s with brg := { s.brg with uartRx := [(7, List.replicate 256 0)] } }
     (after f (.uartReceive 1 0x41 false false)).raw .UART_ERRORS_OVERRUN 1 = 1 ∧ (uartGet (after f (.uartReceive 1 0x41 false false)).brg.uartRx 7).length = 256) := by
  decide +kernel
/-- A layer in force whose buffer a mover's destination overlaps. -/
def leased3 : State := with_ (after (ring3 4) (.moverStart 3)) [(.DSP_LAYER_ENABLE, 1, 0, 1), (.DSP_LAYER_FB, 1, 0, 0x10_0800_0000), (.DSP_LAYER_STRIDE, 1, 0, 64), (.DSP_LAYER_HEIGHT, 1, 0, 1)]
theorem test_mover_waits : let t := after leased3 (.moverComplete 3 [] 0)
    leased3.leased 0x10_0800_0002 4 = true ∧ leased3.raw .DSP_CFG_LEASE_MODE = 0 ∧ (t.mover 3).run.map (·.waits) = some true ∧ t.raw .DSP_LEASE_WAITS_WRITES = 1 := by
  decide +kernel

/-- A map of kind `k` with one record (slot 2, 16 bits from bit 0, little-endian, scaled by 3) and the store, all beyond the channel area; channel 7 is a SIGNAL channel. -/
def sigBase : Nat := 0x10_0800_0000
def mapBytes (k outLen : Nat) : List Byte := leBytes 8 (sigBase + 4096) ++ leBytes 8 (sigBase + 8192) ++ leBytes 2 1 ++ [BitVec.ofNat 8 k, 5] ++ leBytes 2 0 ++ leBytes 2 outLen ++ leBytes 8 0
def record2 (len : Nat) : List Byte := leBytes 2 0 ++ [BitVec.ofNat 8 len, 0] ++ leBytes 4 2 ++ leBytes 4 3 ++ leBytes 4 0 ++ leBytes 16 0 ++ leBytes 16 0
def sigEntry : List Byte := mkEntry tySignal csLive false [(36, 0, 1), (40, 0, 100), (48, 0, 3), (52, 0, 7)]
def sig0 (k len : Nat) (inbox : List Delivered) (msgs : List Message) : State :=
  let s := with_ (hot (tabled run0 [(7, sigEntry)])) [(.SIG_CFG_ENABLE, 0, 0, 1), (.SIG_MAP_BASE_BASE, 0, 0, sigBase / 32), (.SIG_MAP_CFG_COUNT, 0, 0, 1),
    (.SIG_STORE_BASE_BASE, 0, 0, (sigBase + 16384) / 32), (.SIG_STORE_CFG_SLOTS, 0, 0, 8)]
  { s with
    mem := ((s.mem.writes sigBase (mapBytes k 16)).writes (sigBase + 4096) (record2 len)).writes (sigBase + 16384 + 64) (leBytes 8 7 ++ leBytes 8 90)
    sig := { s.sig with inbox := inbox }, grn := { s.grn with msgs := msgs }, moment := 400000, clock := sec }
def heard7 : Delivered := ⟨7, 0, sigEntry, leBytes 8 0 ++ leBytes 8 39990 ++ [0x10, 0x02, 9], none⟩
theorem test_sigUnit : let s := sig0 0 16 [heard7] []
    let t := after s .sigUnit
    let a := sigBase + 16384 + 64
    okB s = true ∧ logB s = true ∧ s.unitOk heard7 = true ∧ s.recordBad (s.record (s.mapEntry 0) 0) = false ∧ s.slotAt 2 = a ∧ s.inDram a 32 = true ∧
    t.mem.reads a 24 = leBytes 8 0x630 ++ leBytes 8 39990 ++ [1, 0, 0, 0] ++ leBytes 4 7 ∧ t.raw .SIG_UPDATES_WRITES = 1 ∧ t.sig.inbox = [] ∧
    frameB s t [.sig, .mem] [.SIG_UPDATES_WRITES] = true ∧ (after (sig0 0 32 [heard7] []) .sigUnit).raw .SIG_SHORT_FIELDS = 1 ∧
    (after (sig0 1 16 [heard7] []) .sigUnit).raw .SIG_REFUSED_UNITS = 1 ∧ recIs (after (sig0 1 16 [heard7] []) .sigUnit) 0x38 1 2 none (7 * 2 ^ 32) = true ∧
    (after (with_ s [(.SIG_CFG_ENABLE, 0, 0, 0)]) .sigUnit).raw .SIG_REFUSED_UNITS = 1 ∧ after (sig0 0 16 [] []) .sigUnit = sig0 0 16 [] [] := by decide +kernel
theorem test_cyclic : let s := sig0 0 16 [] []
    let t := after s (.cyclicTrigger 7)
    cyclic (s.entry 7) = true ∧ cycleTicks (s.entry 7) = 100 * us ∧ s.triggered 7 = false ∧ s.pickBerth gControl 1 = some 18 ∧ s.cached 7 = true ∧
    (t.sal.units.get? 0).map (fun f => [f.chan, f.kind, f.berth]) = some [7, 5, 18] ∧ (t.sal.units.get? 0).map (·.bytes) = some (leBytes 4 0 ++ [2, 0, 0, 0] ++ leBytes 8 400000) ∧
    frameB s t [.sal, .tmb, .chn] [.CHN_CACHE_HITS_HITS] = true ∧ t.triggered 7 = true ∧ after t (.cyclicTrigger 7) = t ∧
    after { s with moment := 400001 } (.cyclicTrigger 7) = { s with moment := 400001 } := by decide +kernel
def note (ws : List Nat) (e : List Byte) : Message := ⟨0x38, (ws.map (leBytes 8)).flatten, some 7, 35, e⟩
theorem test_pack : let x := note [1, 3] sigEntry
    let s := sig0 1 16 [] [x]
    let t := after s .pack
    packOk s x = true ∧ s.message 0x38 = some x ∧ (t.sal.units.get? 0).map (fun f => [f.chan, f.kind, f.berth]) = some [7, 5, 18] ∧
    (t.sal.units.get? 0).map (·.bytes) = some ([21] ++ List.replicate 15 0) ∧ t.raw .SIG_SENDS_UNITS = 1 ∧ t.grn.msgs = [] ∧
    (after (sig0 1 16 [] [note [1] sigEntry]) .pack).raw .SIG_REFUSED_UNITS = 1 ∧ (after (sig0 1 16 [] [note [9] sigEntry]) .gpioSet).raw .SIG_REFUSED_UNITS = 1 ∧
    after s .gpioSet = s := by decide +kernel
theorem test_gpioSet : let x := note [2, 6, 5] (mkEntry tyPeriph csLive false [(32, 0, 4), (36, 0, 0), (40, 0, 15)])
    let s := with_ (sig0 1 16 [] [x]) [(.GPIO_DIR_OUT, 0, 0, 12), (.GPIO_OUT_LEVEL, 0, 0, 9)]
    let t := after s .gpioSet
    gpioSetOk s x = true ∧ t.raw .GPIO_OUT_LEVEL = 13 ∧ t.out = [⟨.gpio, [4, 4], []⟩] ∧ t.grn.msgs = [] ∧ frameB s t [.grn, .out] [.GPIO_OUT_LEVEL] = true := by
  decide +kernel
def lined : State := with_ (sig0 0 16 [] []) [(.SIG_GPIO_LINE_RISE, 0, 5, 1), (.SIG_GPIO_LINE_CHANNEL, 0, 5, 7)]
theorem test_gpioEdges : let t := after lined (.gpioTransition 5 true)
    let u := after { t with clock := sec + 10 * us } (.gpioDebounce 5)
    t.raw .GPIO_IN_LEVEL = 32 ∧ (t.sig.edges.get? 5).map (·.moment) = some 400000 ∧ frameB lined t [.sig, .tmb] [.GPIO_IN_LEVEL] = true ∧
    after lined (.gpioTransition 5 false) = lined ∧ after (with_ lined [(.GPIO_DIR_OUT, 0, 0, 32)]) (.gpioTransition 5 true) = with_ lined [(.GPIO_DIR_OUT, 0, 0, 32)] ∧
    (after t (.gpioTransition 5 false)).raw .SIG_GPIO_BOUNCE_EDGES = 1 ∧ (after t (.gpioTransition 5 false)).sig.edges = [] ∧ (after t (.gpioTransition 5 false)).raw .GPIO_IN_LEVEL = 0 ∧
    after t (.gpioDebounce 5) = t ∧ u.sig.levels = [(5, true)] ∧ u.sig.edges = [] ∧ (u.sal.units.get? 0).map (fun f => [f.chan, f.kind, f.berth]) = some [7, 5, 18] ∧
    t.pickBerth gControl 10 = some 18 ∧ (u.sal.units.get? 0).map (·.bytes.take 8) = some (leBytes 8 400000) := by decide +kernel
/-- CAN controller 3 on its bus, a filter for identifier 0x123 on channel 7. -/
def can3 (c : CanPort) : State := { with_ (sig0 0 16 [] []) [(.CAN_CFG_ENABLE, 3, 0, 1), (.CAN_STATUS_STATE, 3, 0, 0), (.CAN_STATUS_REC, 3, 0, 5), (.CAN_STATUS_TEC, 3, 0, 9),
  (.CAN_FILTER_VALID, 3, 2, 1), (.CAN_FILTER_ID, 3, 2, 0x123), (.CAN_FILTER_MASK, 3, 2, 0x7FF), (.CAN_FILTER_CHANNEL, 3, 2, 7)] with can := [(3, c)] }
def noBufs : CanPort := ⟨[], false, false⟩
theorem test_canReceive : let s := can3 noBufs
    let t := after s (.canFrameReceive 3 0x123 true false [1, 2])
    let r := after s (.canFrameReceive 3 0x123 false true [])
    let u := after s (.canFrameReceive 3 0x124 false false [])
    s.onBus 3 = true ∧ s.canFilter 3 0x123 = some 2 ∧ t.raw .CAN_STATUS_REC 3 = 4 ∧ t.raw .CAN_RX_FRAMES_FRAMES 3 = 1 ∧ t.raw .CAN_FILTER_HITS 3 2 = 1 ∧
    (t.sal.units.get? 0).map (fun f => [f.chan, f.kind, f.berth]) = some [7, 3, 18] ∧
    (t.sal.units.get? 0).map (·.bytes) = some (leBytes 4 0x123 ++ [18, 2, 2, 3] ++ leBytes 8 400000 ++ [1, 2]) ∧ r.raw .CAN_RX_REMOTE_FRAMES 3 = 1 ∧
    u.raw .CAN_RX_UNMATCHED_FRAMES 3 = 1 ∧ frameB s u [] [.CAN_STATUS_REC, .CAN_RX_FRAMES_FRAMES, .CAN_RX_UNMATCHED_FRAMES] = true ∧
    (let o := with_ s [(.CAN_STATUS_STATE, 3, 0, 3)]
     after o (.canFrameReceive 3 0x123 true false [1, 2]) = o) := by decide +kernel
def canUnit (id : Nat) : List Byte := leBytes 4 id ++ [0, 1] ++ leBytes 10 0 ++ [7]
def two : CanPort := { noBufs with bufs := [(canUnit 0x300, 0), (canUnit 0x200, sec)] }
theorem test_canSend : let s := can3 two
    let t := after s (.canFrameSent 3)
    let d := after s (.canTxTimeout 3)
    two.winner = some (canUnit 0x200, sec) ∧ (t.canPort 3).bufs = [(canUnit 0x300, 0)] ∧ outIs t .can [3] = true ∧ t.raw .CAN_STATUS_TEC 3 = 8 ∧ t.raw .CAN_TX_FRAMES_FRAMES 3 = 1 ∧
    (d.canPort 3).bufs = [(canUnit 0x200, sec)] ∧ d.raw .CAN_TX_DROP_UNITS 3 = 1 ∧ recIs d 0x43 3 2 none 0x300 = true ∧ after (can3 noBufs) (.canFrameSent 3) = can3 noBufs ∧
    after (can3 noBufs) (.canTxTimeout 3) = can3 noBufs := by decide +kernel
theorem test_canErrors : let s := can3 two
    let p := after s (.canBusError 3 128 9 4)
    let o := after s (.canBusError 3 256 9 4)
    let r := after o (.canBusRecover 3)
    p.raw .CAN_STATUS_STATE 3 = 1 ∧ p.raw .CAN_STATUS_TEC 3 = 128 ∧ p.raw .CAN_STATUS_LEC 3 = 4 ∧ p.raw .CAN_ERRORS_COUNT 3 = 1 ∧ recIs p 0x43 1 2 none 0 = true ∧
    (after s (.canBusError 3 127 9 4)).raw .CAN_STATUS_STATE 3 = 0 ∧ o.raw .CAN_STATUS_STATE 3 = 2 ∧ o.raw .CAN_STATUS_TEC 3 = 255 ∧ o.canPort 3 = ⟨[], false, true⟩ ∧
    o.raw .CAN_TX_DROP_UNITS 3 = 2 ∧ recIs o 0x43 2 2 none 0 = true ∧ r.raw .CAN_STATUS_STATE 3 = 0 ∧ r.raw .CAN_STATUS_TEC 3 = 0 ∧ r.canPort 3 = ⟨[], false, false⟩ ∧
    after r (.canBusRecover 3) = r ∧ after r (.canRestart 3) = r ∧ (after { o with can := [(3, noBufs)] } (.canRestart 3)).canPort 3 = ⟨[], false, true⟩ ∧
    (after { o with can := [(3, noBufs)] } (.canBusRecover 3)).raw .CAN_STATUS_STATE 3 = 2 := by decide +kernel
theorem test_canRejoin : let s := with_ (can3 { noBufs with away := true }) [(.CAN_STATUS_STATE, 3, 0, 3)]
    let t := after s (.canRejoin 3)
    t.canPort 3 = noBufs ∧ t.raw .CAN_STATUS_STATE 3 = 0 ∧ after t (.canRejoin 3) = t ∧ frameB s t [.can] [.CAN_STATUS_STATE] = true := by decide +kernel

/-- Head 1 on, DisplayPort out of its own connector, video running since 1 s. -/
def hd : Head := { blankHead with lastVblank := sec, quiet := 3 }
def head1 (v : Head) (more : List (RegId × Nat × Nat × Nat) := []) : State :=
  let s := with_ (hot (chan7 5 csLive)) ([(.DSP_HCTRL_ENABLE, 1, 0, 1), (.DSP_OUT_MODE, 1, 0, 1), (.DSP_FS_BASE_BASE, 0, 0, 0x10_0800_0000 / 2 ^ 20), (.DSP_FS_SIZE_MIB, 0, 0, 16),
    (.DSP_FENCE_ADDR_ADDR, 1, 0, 0x10_0A00_0000 / 16)] ++ more)
  { s with dsp := { s.dsp with heads := [(1, v)] }, clock := 2 * sec, moment := 777 }
theorem test_headCommit : let s := { head1 hd with shadows := State.reset.regs.write .DSP_BG_RGB 1 0 5 }
    let t := after s (.headCommit 1)
    let u := after { t with clock := 3 * sec } (.vblankStart 1)
    let a := after t (.headAbandon 1)
    okB s = true ∧ logB s = true ∧ s.partner 1 = none ∧ s.pairOf 1 = [1] ∧ s.headCause [1] = 0 ∧ t.raw .DSP_HSTATUS_PENDING 1 = 1 ∧ (t.head 1).commitAt = some (2 * sec) ∧
    t.taken = s.shadows ∧ (after t (.headCommit 1)).raw .BLK_STATUS_BUSY_REFUSED 0x48 = 1 ∧ t.judged.headCause [1] = 0 ∧ t.routeClash 1 (t.judged.next .DSP_OUT_ROUTE 1) = false ∧
    u.raw .DSP_BG_RGB 1 = 5 ∧ u.raw .DSP_HSTATUS_PENDING 1 = 0 ∧ u.raw .DSP_HSTATUS_RESULT 1 = 1 ∧ u.raw .DSP_HSTATUS_SEQ 1 = 1 ∧ u.raw .DSP_FENCE_SEQ 1 = 1 ∧
    u.mem.reads 0x10_0A00_0000 16 = leBytes 2 1 ++ List.replicate 6 0 ++ leBytes 8 777 ∧ u.raw .BLK_COMMIT_COUNT_DONE_COUNT 0x48 = 1 ∧ u.grn.ipend.testBit 0x48 = true ∧
    u.raw .DSP_FRAME_COUNT_FRAMES 1 = 1 ∧ u.shadows = [] ∧ a.raw .DSP_HSTATUS_PENDING 1 = 0 ∧ a.shadow .DSP_BG_RGB 1 = 0 ∧ (a.head 1).commitAt = none ∧
    (after { t with clock := 2 * sec + us } (.vblankStart 1)).raw .DSP_BG_RGB 1 = 0 := by decide +kernel
theorem test_headReject : let s := { head1 hd with shadows := State.reset.regs.write .DSP_ACTIVE_HACTIVE 1 0 322 }
    let t := after s (.headCommit 1)
    s.headCause [1] = 1 ∧ t.raw .DSP_HSTATUS_RESULT 1 = 2 ∧ t.raw .DSP_HSTATUS_CAUSE 1 = 1 ∧ t.raw .DSP_HSTATUS_PENDING 1 = 0 ∧
    recIs t 0x48 0xF004 2 none (2 + 2 ^ 32) = true ∧ t.raw .BLK_COMMIT_COUNT_REJECT_COUNT 0x48 = 1 := by decide +kernel
theorem test_vblank : let s := head1 { hd with mute := 1 }
    let t := after s (.vblankStart 1)
    let p := after (head1 { hd with presents := [⟨3, 0x10_0810_0000, 7, [], some sec⟩] }) (.vblankStart 1)
    t.head 1 = { hd with quiet := 4, lastVblank := 2 * sec } ∧ t.raw .DSP_LINK_STATUS_PLL_LOCK 1 = 1 ∧ outIs t .video [1, 777, (0x14A * 8) * 2 ^ 20] = false ∧ t.out.length = 1 ∧
    frameB s t [.dsp, .out, .tmb] [.DSP_FRAME_COUNT_FRAMES, .DSP_LINK_STATUS_PLL_LOCK] = true ∧ p.raw .DSP_LAYER_FB 1 3 = 0x10_0810_0000 ∧ (p.head 1).presents = [] ∧
    p.raw .DSP_HSTATUS_SEQ 1 = 1 := by decide +kernel
def displayEntry : List Byte := mkEntry tyDisplay csLive false [(32, 0, 1 + 2 * 16), (33, 0, 5), (36, 0, 0x10_0800_0000), (44, 0, 256), (46, 0, 64), (48, 0, 64)]
theorem test_present : let x : Message := ⟨0x48, leBytes 8 (1 + 1 * 2 ^ 8 + 2 * 2 ^ 12) ++ leBytes 8 0x10_0800_0000, some 7, 35, displayEntry⟩
    let s := head1 hd [(.DSP_LAYER_ENABLE, 1, 2, 1), (.DSP_LAYER_STRIDE, 1, 2, 256), (.DSP_LAYER_WIDTH, 1, 2, 64), (.DSP_LAYER_HEIGHT, 1, 2, 64)]
    let s := { s with grn := { s.grn with msgs := [x] } }
    let t := after s .present
    let b := { s with grn := { s.grn with msgs := [{ x with body := leBytes 8 2 }] } }
    presentOk s x = true ∧ s.tilesBefore 1 7 = [] ∧ t.head 1 = { hd with presents := [⟨2, 0x10_0800_0000, 7, [], some (2 * sec)⟩], damaged := true, quiet := 0 } ∧ t.grn.msgs = [] ∧
    (after b .present).raw .DSP_MSG_REFUSED_MESSAGES = 1 ∧ recIs (after b .present) 0x48 7 2 (some 7) (255 * 256) = true := by decide +kernel
/-- A tile of 2 by 2 pixels of 4 bytes at (0, 0). -/
def tile2 (enc : Nat) (d : List Byte) : Tile := ⟨⟨7, 0, displayEntry, leBytes 2 0 ++ leBytes 2 0 ++ [1, 1, BitVec.ofNat 8 enc, 0] ++ leBytes 4 d.length ++ leBytes 4 0 ++ d, none⟩, 5, false, false⟩
def px : List Byte := leBytes 8 0x0807060504030201 ++ leBytes 8 0x100F0E0D0C0B0A09
theorem test_tile : let s := head1 { hd with tiles := [tile2 0 px] }
    let t := after s (.tileUpdate 1)
    let w := head1 { hd with tiles := [{ tile2 0 px with waited := true }] }
    s.tileVerdict (tile2 0 px).unit = .write (canvasOf displayEntry) (tileHead (tile2 0 px).unit.bytes) px false ∧ s.inDram 0x10_0800_0100 8 = true ∧
    t.mem.reads 0x10_0800_0000 9 = px.take 8 ++ [0] ∧ t.mem.reads 0x10_0800_0100 8 = px.drop 8 ∧ (t.head 1).tiles = [] ∧ t.raw .DSP_TILE_CLIP_TILES = 0 ∧
    (after w (.tileApply 1)).mem = t.mem ∧ frameB s t [.dsp, .mem, .out] [] = true ∧
    (let b := after (head1 { hd with tiles := [tile2 2 px] }) (.tileUpdate 1)
     b.raw .DSP_TILE_BAD_TILES = 1 ∧ (b.head 1).tiles = [] ∧ recIs b 0x48 3 2 (some 7) (1 + 2 * 256 + 0x10_0800_0000 * 2 ^ 32) = true) ∧
    after (head1 hd) (.tileUpdate 1) = head1 hd ∧ after (head1 hd) (.tileApply 1) = head1 hd := by decide +kernel
/-- Layer 2 shows the tile's buffer; at 2 s its first line is scanned or not. -/
def owned (at_ : Nat) (ts : List Tile) : State := { head1 { hd with tiles := ts } [(.DSP_LAYER_ENABLE, 1, 2, 1), (.DSP_LAYER_FB, 1, 2, 0x10_0800_0000), (.DSP_LAYER_STRIDE, 1, 2, 256),
  (.DSP_LAYER_WIDTH, 1, 2, 64), (.DSP_LAYER_HEIGHT, 1, 2, 64)] with clock := at_ }
theorem test_tile_scan : let line := 2200 * 4000000 / 148500
    let at_ := sec + 45 * line + line / 2 + 20
    let s := owned at_ [tile2 0 px]
    let t := after s (.tileUpdate 1)
    s.tileVerdict (tile2 0 px).unit = .defer ∧ (t.head 1).tiles = [{ tile2 0 px with waited := true }] ∧ after t (.tileApply 1) = t ∧
    ((after { t with clock := 2 * sec } (.tileApply 1)).head 1).tiles = [] ∧ ((after { t with clock := 2 * sec } (.tileApply 1)).head 1).damaged = true := by decide +kernel
/-- The buffer is leased by another layer that starts inside it. -/
def leasedTile (mode : Nat) : State := head1 { hd with tiles := [tile2 0 px] } [(.DSP_LAYER_ENABLE, 1, 4, 1), (.DSP_LAYER_FB, 1, 4, 0x10_0800_0100), (.DSP_LAYER_STRIDE, 1, 4, 64),
  (.DSP_LAYER_HEIGHT, 1, 4, 1), (.DSP_CFG_LEASE_MODE, 0, 0, mode)]
theorem test_tile_lease : let t := after (leasedTile 0) (.tileUpdate 1)
    let v := after (leasedTile 1) (.tileUpdate 1)
    (leasedTile 0).tileVerdict (tile2 0 px).unit = .lease 0x10_0800_0100 ∧ t.raw .DSP_LEASE_WAITS_WRITES = 1 ∧ (t.head 1).tiles = [{ tile2 0 px with waited := true, held := true }] ∧
    v.raw .DSP_LEASE_VIOL_WRITES = 1 ∧ (v.head 1).tiles = [] ∧ recIs v 0x48 2 2 (some 7) (1 + 2 * 256 + 0x10_0800_0100 * 2 ^ 32) = true := by decide +kernel
theorem test_psr : let s := { head1 { hd with lastVblank := 2 * sec } [(.DSP_OUT_MODE, 1, 0, 2), (.DSP_OUT_PSR_EN, 1, 0, 1)] with clock := 2 * sec }
    let t := after s (.psrEntry 1 true)
    s.psrReady 1 = true ∧ t.raw .DSP_HSTATUS_PSR_ACTIVE 1 = 1 ∧ outIs t .aux [1, 1] = true ∧ after s (.psrEntry 1 false) = s ∧
    (head1 hd).psrReady 1 = false ∧ after (head1 hd) (.psrEntry 1 true) = head1 hd := by decide +kernel
theorem test_headLink : let s := head1 hd [(.DSP_LINK_STATUS_UP, 1, 0, 1)]
    let d := after s (.hpdLoss 1)
    let a := after s (.auxFailure 1)
    let r := after d (.hpdReturn 1)
    let u := after r (.dspTrainingComplete 1 3 2 5)
    (after s (.dspUnderrun 1)).raw .DSP_UNDERRUN_COUNT_LINES 1 = 1 ∧ recIs (after s (.dspUnderrun 1)) 0x48 1 2 none (1 + 255 * 256) = true ∧
    d.raw .DSP_LINK_STATUS_UP 1 = 0 ∧ d.head 1 = { hd with hpd := false, lost := true } ∧ recIs d 0x48 4 2 none (1 + 255 * 256) = true ∧ after d (.hpdLoss 1) = d ∧
    a.head 1 = { hd with lost := true } ∧ after a (.auxFailure 1) = a ∧ r.head 1 = { hd with hpd := true, lost := true, training := true } ∧ s.laneOut 39 = false ∧
    s.level 0x48 = 0 ∧ u.raw .DSP_LINK_STATUS_UP 1 = 1 ∧ u.raw .DSP_LINK_STATUS_RATE 1 = 3 ∧ u.raw .DSP_LINK_CFG_LANES 1 = 2 ∧ recIs u 0x48 5 1 none (1 + 255 * 256) = true ∧
    outIs (after s (.irqHpd 1 none)) .aux [1, 2] = true ∧
    (let p := after (head1 { hd with mute := 1 }) (.dspPllUnlock 1)
     (p.head 1).mute = 2 ∧ recIs p 0x48 6 2 none (1 + 255 * 256) = true) ∧ after s (.dspPllUnlock 1) = s := by decide +kernel
theorem test_irqHpd_port : let s := with_ run0 [(.DSP_OUT_ROUTE, 1, 0, 3)]
    s.chans = [] ∧ outIs (after s (.irqHpd 1 (some 2))) .aux [1, 2, 2] = true := by decide +kernel
theorem test_headOff : let s := with_ (head1 { hd with hpd := false }) [(.DSP_HCTRL_ENABLE, 1, 0, 0)]
    after s (.dspUnderrun 1) = s ∧ after s (.auxFailure 1) = s ∧ after s (.irqHpd 1 none) = s ∧ after s (.hpdReturn 1) = { s with dsp := { s.dsp with heads := [(1, hd)] } } := by
  decide +kernel

/-- Cable port 1 with a peer, in RUN, supplied from VIN; `more` sets register fields. -/
def port1 (source : Bool) (f : CblPort → CblPort := id) (more : List (RegId × Nat × Nat × Nat) := []) : State :=
  let s := with_ run0 ([(.CBL_PORT_STATUS_ATTACHED, 1, 0, 1), (.CBL_PORT_STATUS_POWER_ROLE, 1, 0, source.toNat), (.CBL_PORT_STATUS_DATA_ROLE, 1, 0, source.toNat)] ++ more)
  { s with dev := { s.dev with vin := true, vbus := 2 }, clock := 20 * sec,
           cbl := { s.cbl with ports := [(1, f { blankCbl with gsrc := source, gsnk := !source, attachPower := source.toNat, attachData := source.toNat })] } }
def quietPort (s : State) : Bool := okB s && decide (s.btn.discards = 0) && decide (s.btn.staged.length + 2 < stagingCap) && s.btn.last == [] && s.dev.vin && s.dev.st == .run &&
  !s.coreDown && ((List.range 6).all fun q => q == 1 || !s.flag .CBL_PORT_STATUS_ATTACHED q) && s.raw .CBL_MUX_STATE 1 == 0
def pdI (a : List Nat) : Out := ⟨.pd, 1 :: a, []⟩
def gateI (a b c : Nat) : Out := ⟨.gates, [1, a, b, c], []⟩
def free1 : State := { with_ run0 [(.CBL_PORT_CFG_ROLE, 1, 0, 2)] with dev := { run0.dev with vin := true } }
theorem test_ccAttach : let t := after free1 (.ccAttach 1 1 true true 1 3 true false)
    let u := after { free1 with dev := { free1.dev with vbus := 2 } } (.ccAttach 1 0 false false 0 0 false false)
    quietPort free1 = true ∧ t.raw .CBL_PORT_STATUS_ATTACHED 1 = 1 ∧ t.raw .CBL_PORT_STATUS_ORIENT 1 = 1 ∧ t.raw .CBL_PORT_STATUS_POWER_ROLE 1 = 1 ∧ t.raw .CBL_PORT_STATUS_VCONN_ON 1 = 1 ∧
    t.raw .CBL_PORT_STATUS_CABLE_SPEED 1 = 3 ∧ t.raw .CBL_PORT_STATUS_CABLE_5A 1 = 1 ∧ (t.cblPort 1).gsrc = true ∧ t.out = [pdI [33, fixedPdo 5000 3000], gateI 1 0 0] ∧
    (u.cblPort 1).gsnk = true ∧ u.out = [gateI 0 1 0] ∧ (after free1 (.ccAttach 1 0 false false 0 0 false false)).out = [] ∧
    after (with_ free1 [(.CBL_PORT_CFG_ROLE, 1, 0, 0)]) (.ccAttach 1 1 true true 1 3 true false) = with_ free1 [(.CBL_PORT_CFG_ROLE, 1, 0, 0)] ∧
    recIs (after (with_ free1 [(.CBL_CEILING_SRC_MV, 1, 0, 0)]) (.ccAttach 1 1 true true 1 3 true false)) 0x50 2 2 none 1 = true ∧
    frameB free1 t [.cbl, .boot, .out, .btn] [.CBL_PORT_STATUS_ATTACHED, .CBL_PORT_STATUS_ORIENT, .CBL_PORT_STATUS_POWER_ROLE, .CBL_PORT_STATUS_DATA_ROLE, .CBL_PORT_STATUS_CABLE,
      .CBL_PORT_STATUS_CABLE_SPEED, .CBL_PORT_STATUS_CABLE_5A, .CBL_PORT_STATUS_CABLE_EPR, .CBL_PORT_STATUS_VCONN_ON] = true := by decide +kernel
def held1 : List (RegId × Nat × Nat × Nat) := [(.CBL_PORT_STATUS_CONTRACT, 1, 0, 1), (.CBL_CONTRACT_MV, 1, 0, 20000), (.CBL_CONTRACT_MA, 1, 0, 3000), (.CBL_CEILING_SRC_MV, 1, 0, 20000),
  (.CBL_CEILING_SRC_MA, 1, 0, 5000), (.CBL_SRC_USE_WATTS, 0, 0, 60)]
def swapReq (op : Nat) (at_ : Option Nat) (n : Nat := 3) : CblReq := ⟨op, 1, 0, n, at_, false, true⟩
theorem test_ccDetach : let s := port1 true (fun v => { v with req := some (swapReq 2 none), ams := 3 }) held1
    let t := after s (.ccDetach 1)
    quietPort s = true ∧ t.raw .CBL_PORT_STATUS_ATTACHED 1 = 0 ∧ t.raw .CBL_CONTRACT_MV 1 = 0 ∧ t.raw .CBL_SRC_USE_WATTS = 0 ∧ t.vsafe5 1 = false ∧ t.out = [gateI 0 0 1] ∧
    t.cblPort 1 = { blankCbl with discharge := true } ∧ t.raw .CBL_CMD_STATUS_RESULT 1 = 6 := by decide +kernel
theorem test_vbusRise : let s := { port1 false (fun v => { v with gsnk := false }) with dev := { run0.dev with vin := true } }
    let t := after s (.vbusRise 1)
    quietPort s = true ∧ t.vsafe5 1 = true ∧ (t.cblPort 1).gsnk = true ∧ t.out = [gateI 0 1 0] ∧ (after free1 (.vbusRise 1)).vsafe5 1 = true ∧ (after free1 (.vbusRise 1)).out = [] := by decide +kernel
/-- 5 V 3 A, 9 V 3 A, 28 V 5 A: with a ceiling of 20 V the second is the best. -/
theorem test_pdSourceCapabilities : let s := port1 false
    let i (l : List Nat) := Instr.pdSourceCapabilities 1 l
    let t := after s (i [fixedPdo 5000 3000, fixedPdo 9000 3000, fixedPdo 28000 5000])
    quietPort s = true ∧ t.out = [pdI [34, 2, 300]] ∧ (t.cblPort 1).nego = some (9000, 3000) ∧ frameB s t [.cbl, .out] [] = true ∧
    recIs (after s (i [fixedPdo 28000 5000])) 0x50 2 2 none 1 = true := by decide +kernel
/-- Without a contract: 5 V at 3 A is offered. -/
def src1 : State := port1 true (fun v => { v with gsrc := false }) [(.CBL_PORT_CFG_MUX_POLICY, 1, 0, 1)]
theorem test_pdRequest : let t := after src1 (.pdRequest 1 1 2000 3 7)
    quietPort src1 = true ∧ src1.sourcePdos 1 = [(5000, 3000)] ∧ t.raw .CBL_PORT_STATUS_CONTRACT 1 = 1 ∧ t.raw .CBL_CONTRACT_MV 1 = 5000 ∧ t.raw .CBL_CONTRACT_MA 1 = 2000 ∧
    t.raw .CBL_SRC_USE_WATTS = 10 ∧ t.out = [pdI [6], gateI 1 0 0, pdI [3]] ∧ (t.cblPort 1).offers = 3 ∧ (after src1 (.pdRequest 1 2 2000 0 0)).out = [pdI [4]] ∧
    recIs (after src1 (.pdRequest 1 1 3001 0 0)) 0x50 2 2 none 1 = true ∧
    (after (with_ src1 [(.CBL_SRC_POOL_WATTS, 0, 0, 1)]) (.pdRequest 1 1 600 0 0)).out = [pdI [4]] ∧
    frameB src1 t [.cbl, .dev, .out] [.CBL_PORT_STATUS_CONTRACT, .CBL_CONTRACT_MV, .CBL_CONTRACT_MA, .CBL_SRC_USE_WATTS] = true := by decide +kernel
theorem test_pdPsRdy : let s := port1 false fun v => { v with nego := some (9000, 3000), ams := 1 }
    let t := after s (.pdPsRdy 1 2 5)
    quietPort s = true ∧ t.raw .CBL_PORT_STATUS_CONTRACT 1 = 1 ∧ t.raw .CBL_CONTRACT_MV 1 = 9000 ∧ t.out = [] ∧ (t.cblPort 1).nego = none ∧ (t.cblPort 1).peerVdo = 5 ∧
    frameB s t [.cbl, .dev] [.CBL_PORT_STATUS_CONTRACT, .CBL_CONTRACT_MV, .CBL_CONTRACT_MA] = true := by decide +kernel
theorem test_pdPsRdy_quiet : let s := port1 true fun v => { v with nego := some (9000, 3000) }
    after (port1 false) (.pdPsRdy 1 2 5) = port1 false ∧ after s (.pdPsRdy 1 2 5) = s := by decide +kernel
theorem test_swapReceived : let s := port1 true
    let t := after s (.pdPrSwap 1)
    let b := after t (.pdPrSwap 1)
    quietPort s = true ∧ s.acceptSwap 1 1 = true ∧ s.acceptSwap 1 2 = true ∧ s.acceptSwap 1 3 = true ∧ t.raw .CBL_PORT_STATUS_POWER_ROLE 1 = 0 ∧ t.raw .CBL_PORT_STATUS_DATA_ROLE 1 = 1 ∧
    t.raw .CBL_COUNTS_SWAPS 1 = 1 ∧ (t.cblPort 1).gsnk = true ∧ t.out = [pdI [6], gateI 0 1 0, gateI 0 0 1, pdI [3]] ∧
    b.out.take 3 = [pdI [33, fixedPdo 5000 3000], pdI [6], gateI 1 0 0] ∧ (after s (.pdDrSwap 1)).raw .CBL_PORT_STATUS_DATA_ROLE 1 = 0 ∧ (after s (.pdDrSwap 1)).out = [pdI [6], pdI [3]] ∧
    (after s (.pdVconnSwap 1)).raw .CBL_PORT_STATUS_VCONN_ON 1 = 1 ∧ (after (with_ s [(.CBL_PORT_CFG_VCONN_EN, 1, 0, 0)]) (.pdVconnSwap 1)).out = [pdI [4]] ∧
    (after (with_ s [(.CBL_PORT_CFG_ACCEPT_PR, 1, 0, 0)]) (.pdPrSwap 1)).out = [pdI [4]] ∧ (after (with_ s [(.CBL_PORT_STATUS_MODE, 1, 0, 1)]) (.pdDrSwap 1)).out = [pdI [4]] := by decide +kernel
/-- A crossed swap: the Source answers Wait, the Sink abandons its own and retries after a delay (R424). -/
theorem test_swapCrossed : let r := swapReq 1 none
    let s := port1 false (fun v => { v with req := some r, ams := 2 }) [(.CBL_PORT_CFG_ACCEPT_DR, 1, 0, 0)]
    let l := { s with cbl := { s.cbl with ports := [(1, { (s.cblPort 1) with req := some (swapReq 1 none 0) })] } }
    let src := port1 true fun v => { v with req := some r }
    quietPort s = true ∧ quietPort src = true ∧ s.acceptSwap 1 2 = false ∧ s.roleOf 1 1 = 0 ∧ r.arg = 1 ∧ (after src (.pdDrSwap 1)).out = [pdI [12]] ∧
    s.raw .CBL_SWAP_CFG_RETRY_MIN_MS 1 = 50 ∧ s.raw .CBL_SWAP_CFG_RETRY_MAX_MS 1 = 100 ∧ (after l (.pdDrSwap 1)).raw .CBL_CMD_STATUS_RESULT 1 = 5 ∧
    ((after l (.pdDrSwap 1)).cblPort 1).req = none ∧ recIs (after l (.pdDrSwap 1)) 0x50 7 2 none 1 = true ∧ (after l (.pdDrSwap 1)).out = [pdI [4]] := by decide +kernel
theorem test_startSwap : let s := port1 true
    let t := after s (.swapDr 1)
    let w := with_ s [(.CBL_PORT_STATUS_MODE, 1, 0, 1)]
    t.raw .CBL_CMD_STATUS_OP 1 = 2 ∧ t.raw .CBL_CMD_STATUS_RESULT 1 = 0 ∧ t.out = [pdI [9]] ∧ (t.cblPort 1).req = some ⟨2, 0, 20 * sec, 3, none, false, true⟩ ∧
    (after t (.swapPr 1)).raw .CBL_CMD_STATUS_RESULT 1 = 2 ∧ (after w (.swapDr 1)).raw .CBL_CMD_STATUS_RESULT 1 = 4 ∧ (after w (.swapVconn 1)).out = [pdI [11]] ∧
    (after s (.swapPr 1)).out = [pdI [10]] ∧ (after run0 (.swapPr 1)).raw .CBL_CMD_STATUS_RESULT 1 = 4 ∧ quietPort w = true := by decide +kernel
theorem test_swapAnswers : let s := port1 false fun v => { v with req := some (swapReq 2 none), ams := 3 }
    let t := after s (.pdAccept 1)
    quietPort s = true ∧ t.raw .CBL_PORT_STATUS_DATA_ROLE 1 = 1 ∧ t.raw .CBL_CMD_STATUS_RESULT 1 = 1 ∧ (t.cblPort 1).req = none ∧ t.raw .CBL_COUNTS_SWAPS 1 = 1 ∧
    (after s (.pdReject 1)).raw .CBL_CMD_STATUS_RESULT 1 = 3 ∧ (after s (.swapTimeout 1)).raw .CBL_CMD_STATUS_RESULT 1 = 6 ∧ after s (.swapRetry 1) = s ∧
    (after (port1 false fun v => { v with nego := some (5000, 1000) }) (.pdReject 1)).cblPort 1 = (port1 false).cblPort 1 ∧
    (after (port1 false fun v => { v with nego := some (5000, 1000) }) (.pdWait 1)).cblPort 1 = (port1 false).cblPort 1 ∧
    (let u := after (port1 false fun v => { v with req := some (swapReq 1 none) }) (.pdAccept 1)
     u.raw .CBL_PORT_STATUS_POWER_ROLE 1 = 1 ∧ (u.cblPort 1).gsrc = true ∧ u.raw .CBL_CMD_STATUS_RESULT 1 = 1) := by decide +kernel
theorem test_swapRetry : let s (n at_ : Nat) := port1 false fun v => { v with req := some (swapReq 1 (some at_) n), ams := 2 }
    let t := after (s 3 (20 * sec)) (.swapRetry 1)
    quietPort (s 3 (20 * sec)) = true ∧ t.out = [pdI [10]] ∧ (t.cblPort 1).req = some { swapReq 1 none 2 with sentAt := 20 * sec } ∧
    ((after (s 0 (20 * sec)) (.swapRetry 1)).cblPort 1).req = none ∧ after (s 3 (21 * sec)) (.swapRetry 1) = s 3 (21 * sec) ∧
    after (s 3 (20 * sec)) (.pdReject 1) = s 3 (20 * sec) ∧ after (s 3 (20 * sec)) (.pdAccept 1) = s 3 (20 * sec) := by decide +kernel
theorem test_pdSoftReset : let s := port1 false fun v => { v with req := some (swapReq 2 none), nego := some (1, 1), ams := 3 }
    let t := after s (.pdSoftReset 1)
    t.cblPort 1 = (port1 false).cblPort 1 ∧ t.out = [pdI [3]] ∧ t.raw .CBL_CMD_STATUS_RESULT 1 = 6 := by decide +kernel
theorem test_hardReset : let s := port1 false (fun v => { v with attachPower := 1, attachData := 1, ams := 2 }) held1
    let t := after s (.pdHardReset 1)
    let c := after s (.hardReset 1)
    quietPort s = true ∧ t.raw .CBL_PORT_STATUS_CONTRACT 1 = 0 ∧ t.raw .CBL_PORT_STATUS_POWER_ROLE 1 = 1 ∧ t.raw .CBL_PORT_STATUS_DATA_ROLE 1 = 1 ∧ t.raw .CBL_COUNTS_HARD_RESETS 1 = 1 ∧
    (t.cblPort 1).gsrc = true ∧ recIs t 0x50 4 2 none (1 + (1 + 2 * 256) * 256) = true ∧ pdI [64] ∉ t.out ∧ gateI 0 0 1 ∈ t.out ∧ pdI [64] ∈ c.out ∧
    c.raw .CBL_CMD_STATUS_OP 1 = 7 ∧ c.raw .CBL_CMD_STATUS_RESULT 1 = 1 ∧ (after run0 (.hardReset 1)).raw .CBL_CMD_STATUS_RESULT 1 = 4 ∧ t.raw .CBL_SRC_USE_WATTS = 0 := by decide +kernel
theorem test_timeouts : let s := port1 true (fun v => { v with safeAt := some (19 * sec), ceilingAt := some (19 * sec) }) held1
    let ceil := with_ s [(.CBL_CEILING_SRC_MV, 1, 0, 19000)]
    recIs (after s (.safeSourceTimeout 1)) 0x50 4 2 none (1 + 4 * 256) = true ∧ ((after s (.ceilingTimeout 1)).cblPort 1).ceilingAt = none ∧ (after s (.ceilingTimeout 1)).out = [] ∧
    quietPort ceil = true ∧ ceil.overCeiling 1 = true ∧ ((after ceil (.ceilingTimeout 1)).btn.staged.map (·.detail)).getD 0 0 = 1 + 5 * 256 ∧
    after (port1 true) (.safeSourceTimeout 1) = port1 true ∧ after (port1 true) (.ceilingTimeout 1) = port1 true ∧
    (let e := port1 true fun v => { v with safeAt := some (20 * sec - 1) }; after e (.safeSourceTimeout 1) = e) := by decide +kernel
/-- 5,250 mV at a ceiling of 5,000 mV is no trip; one more is. A third trip within 10 s latches the port. -/
theorem test_cblTrip : let s := port1 true (fun v => { v with trips := [5 * sec] })
    let l := port1 true (fun v => { v with trips := [19 * sec, 18 * sec] })
    let t := after s (.cblTrip 1 5251 0)
    let u := after l (.cblTrip 1 0 3301)
    quietPort s = true ∧ after s (.cblTrip 1 5250 3300) = s ∧ (t.cblPort 1).trips = [20 * sec] ∧ (t.cblPort 1).latched = false ∧ (t.cblPort 1).gsrc = true ∧ t.raw .CBL_COUNTS_TRIPS 1 = 1 ∧
    t.btn.staged.map (fun r => (r.blk, r.code, r.sev, r.detail)) = [(0x50, 1, 3, 1), (0x50, 4, 2, 1 + 3 * 256)] ∧ u.raw .CBL_PORT_STATUS_ATTACHED 1 = 0 ∧ (u.cblPort 1).latched = true ∧
    (after u (.recaps 1)).cblPort 1 = { blankCbl with discharge := true } ∧ after u (.ccAttach 1 0 true true 0 0 false false) = u := by decide +kernel
theorem test_vconn_recaps_epr : let s := port1 false id [(.CBL_PORT_STATUS_VCONN_ON, 1, 0, 1)]
    let t := after s (.cblVconnOc 1)
    let e := port1 true id [(.CBL_PORT_CFG_EPR_EN, 1, 0, 1), (.CBL_PORT_STATUS_CABLE_EPR, 1, 0, 1), (.CBL_PORT_STATUS_CABLE_5A, 1, 0, 1)]
    t.raw .CBL_PORT_STATUS_VCONN_ON 1 = 0 ∧ (t.cblPort 1).vconnOc = true ∧ recIs t 0x50 3 2 none 1 = true ∧ after (port1 true) (.cblVconnOc 1) = port1 true ∧
    (after s (.recaps 1)).out = [pdI [7]] ∧ (after e (.recaps 1)).out = [pdI [33, fixedPdo 5000 3000]] ∧ (after s (.pdEprKeepalive 1)).out = [pdI [46]] ∧
    (after e (.pdEprMode 1 true)).raw .CBL_PORT_STATUS_EPR 1 = 1 ∧ (after e (.pdEprMode 1 true)).out = [pdI [42, 3]] ∧ (after s (.pdEprMode 1 true)).out = [pdI [4]] ∧
    (after s (.pdEprMode 1 false)).out = [pdI [42, 5]] := by decide +kernel
theorem test_coreDown : let s := { port1 true with grn := { run0.grn with ctl := run0.grn.ctl.put 8 { Core.reset with halted := true } } }
    s.coreDown = true ∧ s.aonAlive = true ∧ s.isSource 1 = true ∧ (after s (.pdPrSwap 1)).out = [pdI [12]] ∧ (after s (.pdRequest 1 1 100 0 0)).out = [pdI [12]] ∧
    (after s (.pdEnterMode 1 0x3A7D 0)).out = [pdI [12]] ∧ (after s (.pdEprKeepalive 1)).out = [pdI [46]] ∧ after run0 (.pdExitMode 1) = run0 := by decide +kernel
/-- The worked example of R412: ports 0 to 2 hold 180 W of a pool of 240 W; port 3 is offered 60 W, port 4 then 5 V at 500 mA. -/
theorem test_offers : let c (p : Nat) : List (RegId × Nat × Nat × Nat) := [(.CBL_PORT_STATUS_ATTACHED, p, 0, 1), (.CBL_PORT_STATUS_POWER_ROLE, p, 0, 1), (.CBL_PORT_STATUS_CONTRACT, p, 0, 1),
      (.CBL_CONTRACT_MV, p, 0, 20000), (.CBL_CONTRACT_MA, p, 0, 3000)]
    let s := with_ run0 ([(.CBL_SRC_POOL_WATTS, 0, 0, 240), (.CBL_CEILING_SRC_MV, 3, 0, 20000), (.CBL_CEILING_SRC_MA, 3, 0, 5000), (.CBL_PORT_STATUS_CABLE_5A, 3, 0, 1)] ++ c 0 ++ c 1 ++ c 2)
    s.offers 3 = [(5000, 5000), (9000, 5000), (15000, 4000), (20000, 3000)] ∧ (with_ s (c 3)).offers 4 = [(5000, 500)] := by decide +kernel
def vdmI (a : List Nat) : Out := ⟨.vdm, 1 :: a, []⟩
def dfp1 (more : List (RegId × Nat × Nat × Nat)) : State := port1 true id ([(.CBL_IMG_STATUS_ROM, 0, 0, 0), (.CBL_PORT_STATUS_CONTRACT, 1, 0, 1), (.CBL_PORT_CFG_DP_EN, 1, 0, 1),
  (.LNK_CFG_RATES, 1, 0, 7), (.CBL_PORT_CFG_CABLE_CHECK, 1, 0, 0)] ++ more)
def modeHyps (s : State) : Bool := okB s && logB s && !s.coreDown && s.dev.st == .run && s.raw .LNK_STATUS_UP 1 == 0 && (s.tun.ports.get? 1).isNone && s.flag .CBL_PORT_STATUS_ATTACHED 1
theorem test_discover : let s := dfp1 []
    modeHyps s = true ∧ (after s (.pdDiscoverIdentity 1)).out = [vdmI [1, 1, 0xFF00]] ∧ (after s (.pdDiscoverSvids 1)).out = [vdmI [1, 2, 0xFF00, 0x3A7D, 0xFF01]] ∧
    (after s (.pdDiscoverModes 1 0x3A7D)).out = [vdmI [1, 3, 0x3A7D, s.ownVdo 1]] ∧ (after s (.pdDiscoverModes 1 0xFF01)).out = [vdmI [1, 3, 0xFF01, 0xC0C07]] ∧
    (after s (.pdDiscoverModes 1 5)).out = [vdmI [2, 3, 5]] ∧
    (after (with_ s [(.CBL_PORT_CFG_DP_EN, 1, 0, 0), (.CBL_PORT_CFG_AVRATH_EN, 1, 0, 0)]) (.pdDiscoverSvids 1)).out = [vdmI [2, 2, 0xFF00]] := by decide +kernel
theorem test_enterMode : let s := dfp1 [(.CBL_PORT_CFG_SPLIT_EN, 1, 0, 1)]
    let t := after s (.pdEnterMode 1 0x3A7D 0x106)
    let sp := after s (.pdEnterMode 1 0x3A7D (0x106 + 16 + 32))
    let d := after s (.pdEnterMode 1 0xFF01 0)
    t.raw .CBL_PORT_STATUS_MODE 1 = 1 ∧ t.raw .CBL_MUX_STATE 1 = 1 ∧ vdmI [1, 4, 0x3A7D] ∈ t.out ∧ (t.cblPort 1).peerVdo = 0x106 ∧ sp.raw .CBL_MUX_STATE 1 = 7 ∧
    d.raw .CBL_PORT_STATUS_MODE 1 = 2 ∧ d.raw .CBL_PORT_STATUS_PIN 1 = 1 ∧ d.raw .CBL_MUX_STATE 1 = 3 ∧ recIs (after s (.pdEnterMode 1 0x3A7D 0x108)) 0x50 8 2 none 1 = true ∧
    (after s (.pdEnterMode 1 0x3A7D (0x106 + 16))).out = [vdmI [2, 4, 0x3A7D]] ∧
    (after (with_ s [(.CBL_PORT_CFG_MUX_POLICY, 1, 0, 1)]) (.pdEnterMode 1 0xFF01 0)).raw .CBL_MUX_STATE 1 = 0 ∧ (after d (.pdEnterMode 1 0xFF01 0)).out.head? = some (vdmI [2, 4, 0xFF01]) := by
  decide +kernel
theorem test_enterMode_trains : let s := dfp1 [(.LNK_CFG_ENABLE, 1, 0, 1), (.TMB_STATUS_REF_LOCK, 0, 0, 1)]
    let t := after s (.pdEnterMode 1 0x3A7D 0x106)
    modeHyps s = true ∧ t.raw .LNK_TRAINS_FULL 1 = 1 ∧ t.raw .LNK_STATUS_RATE 1 = 1 ∧ (t.link 1).phase = .detect := by decide +kernel
theorem test_exitMode : let s := dfp1 [(.CBL_PORT_STATUS_MODE, 1, 0, 2), (.CBL_PORT_STATUS_PIN, 1, 0, 1), (.CBL_MUX_STATE, 1, 0, 3)]
    let t := after s (.pdExitMode 1)
    let c := after s (.exitMode 1)
    t.raw .CBL_PORT_STATUS_MODE 1 = 0 ∧ t.raw .CBL_PORT_STATUS_PIN 1 = 0 ∧ t.raw .CBL_MUX_STATE 1 = 0 ∧ t.out = [vdmI [1, 5, 0xFF01]] ∧ c.raw .CBL_CMD_STATUS_RESULT 1 = 1 ∧
    c.raw .CBL_CMD_STATUS_OP 1 = 6 ∧ c.raw .CBL_MUX_STATE 1 = 0 ∧ (after (dfp1 []) (.exitMode 1)).raw .CBL_CMD_STATUS_RESULT 1 = 4 ∧
    (after { s with cbl := { s.cbl with ports := [(1, { blankCbl with ams := 1 })] } } (.exitMode 1)).raw .CBL_CMD_STATUS_RESULT 1 = 2 ∧
    (after (dfp1 [(.CBL_PORT_STATUS_MODE, 1, 0, 1), (.CBL_MUX_STATE, 1, 0, 1)]) (.pdExitMode 1)).raw .CBL_MUX_STATE 1 = 0 := by decide +kernel
theorem test_attention_dp : let s := dfp1 [(.CBL_PORT_STATUS_MODE, 1, 0, 2), (.CBL_PORT_STATUS_PIN, 1, 0, 1), (.CBL_MUX_STATE, 1, 0, 3)]
    let t := after s (.pdDpConfigure 1 (1 + 2 ^ 11))
    ((after s (.pdAttention 1 0x3A7D 9)).cblPort 1).peerVdo = 9 ∧ ((after s (.pdAttention 1 0xFF01 9)).cblPort 1).peerDp = 9 ∧
    (after s (.pdDpStatusUpdate 1 9)).out = [vdmI [1, 16, 0xFF01, 10]] ∧ t.raw .CBL_PORT_STATUS_MODE 1 = 3 ∧ t.raw .CBL_PORT_STATUS_PIN 1 = 2 ∧ t.raw .CBL_MUX_STATE 1 = 4 ∧
    (after s (.pdDpConfigure 1 1)).out = [vdmI [2, 17, 0xFF01]] ∧ (after (dfp1 []) (.pdDpConfigure 1 0x401)).out = [vdmI [2, 17, 0xFF01]] := by decide +kernel
theorem test_enterCmds : let s := dfp1 []
    let a := after s (.enterAvrath 1 false false 0x107 true)
    let d := after s (.enterDp 1 2 true true)
    a.raw .CBL_PORT_STATUS_MODE 1 = 1 ∧ a.raw .CBL_CMD_STATUS_RESULT 1 = 1 ∧ a.raw .CBL_CMD_STATUS_OP 1 = 4 ∧ (a.cblPort 1).peerVdo = 0x107 ∧ vdmI [0, 4, 0x3A7D, 0x10F] ∈ a.out ∧
    (after s (.enterAvrath 1 false false 0 false)).raw .CBL_CMD_STATUS_RESULT 1 = 3 ∧ recIs (after s (.enterAvrath 1 false false 0 false)) 0x50 8 2 none 1 = true ∧
    (after s (.enterAvrath 1 true true 0 true)).raw .CBL_CMD_STATUS_RESULT 1 = 3 ∧ d.raw .CBL_PORT_STATUS_MODE 1 = 3 ∧ d.raw .CBL_MUX_STATE 1 = 4 ∧ d.raw .CBL_CMD_STATUS_RESULT 1 = 1 ∧
    (after s (.enterDp 1 0 true true)).raw .CBL_CMD_STATUS_RESULT 1 = 4 ∧ (after s (.enterDp 1 1 true false)).raw .CBL_CMD_STATUS_RESULT 1 = 3 ∧
    (after d (.enterAvrath 1 false false 0 true)).raw .CBL_CMD_STATUS_RESULT 1 = 4 := by decide +kernel
theorem test_cblMuxWrite : let s := dfp1 [(.CBL_PORT_CFG_MUX_POLICY, 1, 0, 1), (.CBL_PORT_STATUS_MODE, 1, 0, 2), (.CBL_PORT_STATUS_PIN, 1, 0, 1)]
    (after s (.cblMuxWrite 1 3)).raw .CBL_MUX_STATE 1 = 3 ∧ (after s (.cblMuxWrite 1 2)).raw .BLK_STATUS_BUSY_REFUSED 0x50 = 1 ∧ (after s (.cblMuxWrite 1 2)).raw .CBL_MUX_STATE 1 = 0 ∧
    (after (dfp1 []) (.cblMuxWrite 1 0)).raw .BLK_STATUS_BUSY_REFUSED 0x50 = 1 := by decide +kernel
/-- After a contract a DFP enters the mode both ends offer; DP_FIRST turns the order round (R421). -/
theorem test_autoMode : let s (first : Nat) := with_ (port1 false fun v => { v with nego := some (9000, 3000) }) [(.CBL_IMG_STATUS_ROM, 0, 0, 0), (.CBL_PORT_STATUS_DATA_ROLE, 1, 0, 1),
      (.CBL_PORT_CFG_DP_EN, 1, 0, 1), (.LNK_CFG_RATES, 1, 0, 7), (.CBL_PORT_CFG_CABLE_CHECK, 1, 0, 0), (.CBL_PORT_CFG_DP_FIRST, 1, 0, first)]
    let m (f o : Nat) := (after (s f) (.pdPsRdy 1 o 0x107)).raw .CBL_PORT_STATUS_MODE 1
    modeHyps (s 0) = true ∧ m 0 3 = 1 ∧ m 1 3 = 3 ∧ m 0 1 = 1 ∧ m 0 2 = 3 ∧ m 0 0 = 0 := by decide +kernel
/-- A policy image of 96 bytes whose block checks; its signature is not one. -/
def policyImage : List Byte :=
  let body := leBytes 4 0x47524E31 ++ [1, 1] ++ leBytes 2 1 ++ leBytes 4 64 ++ leBytes 4 96 ++ List.replicate 12 0 ++ leBytes 4 0 ++
    leBytes 4 0x43424C31 ++ leBytes 4 7 ++ leBytes 4 0x10000 ++ leBytes 2 0 ++ leBytes 2 1 ++ List.replicate 16 0 ++ List.replicate 8 0 ++ leBytes 4 3 ++ List.replicate 20 0
  body.take 28 ++ leBytes 4 (crc32 body) ++ body.drop 32
theorem test_policyHandover : let s := dfp1 []
    fieldOf policyImage 12 4 = policyImage.length ∧ after s (.policyHandover 0 policyImage []) = s ∧ after s (.policyHandover 0 (policyImage.take 95) []) = s := by decide +kernel
def trial1 (f : CblPart → CblPart) (n : Nat := 1) : State := let s := dfp1 [(.CBL_IMG_STATUS_TRIAL, 0, 0, n)]
  { s with cbl := f { s.cbl with trialAt := some (15 * sec), svn := 7, hash := [1], start := 0x10040 } }
theorem test_trial : let s := trial1 id
    let c := after s .policyConfirm
    let r := after s .trialTimeout
    modeHyps s = true ∧ c.raw .CBL_IMG_STATUS_TRIAL = 0 ∧ c.cbl.confirmed = [1] ∧ c.cbl.trialAt = none ∧ c.key.floors.getD 1 0 = 7 ∧ c.key.anchor = s.key.anchor + 1 ∧
    r.raw .CBL_IMG_STATUS_SLOT = 1 ∧ r.raw .CBL_IMG_STATUS_TRIAL = 0 ∧ r.cbl.waiting = some 1 ∧ recIs r 0x50 6 2 none 0xFF = true ∧ (after s .imgRevert).cbl = r.cbl ∧
    after { s with clock := 20 * sec - 1 } .trialTimeout = { s with clock := 20 * sec - 1 } ∧ after (dfp1 []) .policyConfirm = dfp1 [] ∧ after (dfp1 []) .imgRevert = dfp1 [] := by
  decide +kernel
theorem test_coreRestart : let s := trial1 (fun c => { c with restartAt := some 0 }) 0
    let w := { s with cbl := { s.cbl with ports := [(1, { blankCbl with req := some (swapReq 2 none), ams := 3 })] } }
    let t := after s .cableCoreRestart
    let u := after w .cableCoreRestart
    (t.core 8).pc = 0x10040 ∧ t.cbl.restartAt = none ∧ recIs t 0x50 5 3 none 0xFF = true ∧ t.out = [] ∧ u.out = [pdI [13]] ∧ (u.cblPort 1).req = none ∧
    u.raw .CBL_CMD_STATUS_RESULT 1 = 6 ∧ after (dfp1 []) .cableCoreRestart = dfp1 [] := by decide +kernel
theorem test_policyOk : policyOk policyImage = true := by
  have rom : fieldOf policyImage 44 2 ≤ Config.aonRomVersion := Nat.le_trans (Nat.le_of_eq (by decide +kernel : fieldOf policyImage 44 2 = 0)) (Nat.zero_le _)
  simp only [policyOk, rom, decide_true, Bool.and_true]
  decide +kernel

/-- A request at the start of DRAM: service, room for a response. -/
def reqBytes (svc room : Nat) : List Byte :=
  leBytes 4 0x45505131 ++ leBytes 2 svc ++ leBytes 2 0 ++ leBytes 4 0 ++ leBytes 4 77 ++ leBytes 8 0 ++ leBytes 4 room ++ List.replicate 36 0
/-- Epmas runs in DEPLOYED with hub firmware authenticated, one request waiting, the channel area elsewhere. -/
def called (svc : Nat) (f : KeyPart → KeyPart := id) (room : Nat := 65536) : State :=
  let s := with_ { run0 with boot := { run0.boot with gib := 1, epmas := true } } [(.CHN_AREA_BASE_BASE, 0, 0, 0x401), (.KEY_STATUS_ENTROPY_OK, 0, 0, 1)]
  { s with
    mem := s.mem.writes dram0 (reqBytes svc room)
    key := f { s.key with lifecycle := 3, firmware := [1], firmwareSvn := 5, nodes := keyNodes, slots := [(2, linkSlot), (9, keyedSlot)], calls := [dram0] } }
def svcHyps (s : State) : Bool := okB s && logB s && s.coreAlive && s.boot.epmas && s.key.calls == [dram0] && s.key.invalidating.isNone && s.inDram dram0 64 &&
  !s.flag .BRG_VEC_MAP_EN 0 0x58 && s.chans.isEmpty
/-- The answer in memory: STATUS and RSP_LEN. -/
def ansB (t : State) (code len : Nat) : Bool := t.load (dram0 + 16) 4 == code + 256 + 2 ^ 31 && t.load (dram0 + 20) 4 == len && t.key.calls.isEmpty &&
  t.raw .KEY_CALL_STATUS_DONE_COUNT == 1 && t.grn.ipend.testBit 0x58
def keyB (s t : State) (gs : List Grp) (l : List RegId) : Bool := frameB s t ([.mem, .key, .grn, .btn, .drawn] ++ gs) (.KEY_CALL_STATUS_DONE_COUNT :: .KEY_NONCE_NONCE :: l)
theorem test_svc_hyps : svcHyps (called 1) = true ∧ (called 1).reqField dram0 4 2 = 1 ∧ (called 1).refuses ⟨0x01, [0, 1, 2, 3, 4, 5], 0, false, false, true⟩ dram0 100 = 0 ∧
    (called 2).refuses ⟨0x02, [1, 2, 3, 4], 1, false, false, false⟩ dram0 100 = 0 ∧ (called 0x20).refuses ⟨0x20, [2, 3], 1, false, true, false⟩ dram0 96 = 0 ∧
    (called 0x20).placeStatus 9 20 = 0 ∧ (called 0x20).placeStatus 9 9 = 2 ∧ (called 0x20).placeStatus 9 7 = 6 ∧ (called 0x20 fun k => { k with slots := [] }).placeStatus 9 20 = 1 := by
  decide +kernel
theorem test_keyDrop : let s := called 0x22
    let t := after s (.keyDrop 9)
    ansB t 0 0 = true ∧ t.slot 9 = none ∧ t.slot 2 = some linkSlot ∧ keyB s t [] [] = true ∧ ansB (after s (.keyDrop 7)) 6 0 = true ∧ (after s (.keyDrop 7)).key.slots = s.key.slots := by
  decide +kernel
/-- The statuses of R456 in their order. -/
theorem test_refusals : let c (f : KeyPart → KeyPart) := (after (called 0x22 f) (.keyDrop 9)).load (dram0 + 16) 1
    c (fun k => { k with failed := true }) = 9 ∧ c (fun k => { k with lifecycle := 4 }) = 5 ∧ c (fun k => { k with firmware := [] }) = 5 ∧ c (fun k => { k with lost := true }) = 13 ∧
    (after (with_ (called 0x22) [(.KEY_STATUS_ZEROISED, 0, 0, 1)]) (.keyDrop 9)).load (dram0 + 16) 1 = 5 ∧
    (after { called 0x22 with mem := (called 0x22).mem.write (dram0 + 40) 1 } (.keyDrop 9)).load (dram0 + 16) 1 = 7 ∧
    (after (called 0x20 id 95) (.keyGenerate 9 20)).load (dram0 + 16) 1 = 12 ∧ (after (called 0x41 fun k => { k with anchor := 8129 }) .svnCommit).load (dram0 + 16) 1 = 8 ∧
    recIs (after (called 0x22 fun k => { k with lifecycle := 4 }) (.keyDrop 9)) 0x58 6 2 none (77 * 2 ^ 32) = true := by decide +kernel
theorem test_svnCommit : let s := called 0x41
    let t := after s .svnCommit
    ansB t 0 0 = true ∧ t.key.floors = [5, 0, 0] ∧ t.key.anchor = 1 ∧ keyB s t [] [] = true ∧
    ansB (after (called 0x41 fun k => { k with floors := [6, 0, 0] }) .svnCommit) 10 0 = true := by decide +kernel
/-- Without an authorisation block the Crypto Officer's services end AUTH_FAIL. -/
theorem test_no_block : let c (code : Nat) (i : Instr) := (after (called code) i).load (dram0 + 16) 1
    c 0x10 (.nodeAlloc 2 7) = 4 ∧ c 0x11 (.nodeInvalidate 2) = 4 ∧ c 0x12 (.nodeFree 9) = 4 ∧ c 0x50 (.ceilingSet 0 1 1 1 1) = 4 ∧ c 0x51 (.selftestCfg 1 1 0x3FF) = 4 ∧
    c 0x61 .safeRelease = 4 ∧ c 0x71 (.returnPrepare (List.replicate 16 0)) = 4 ∧ c 0x70 (.lcTransition 4) = 4 ∧ c 0x70 (.lcTransition 0) = 5 ∧
    (after (called 0x72 fun k => { k with lifecycle := 2 }) (.ownerSet [])).load (dram0 + 16) 1 = 4 ∧
    (after (called 0x73 fun k => { k with lifecycle := 4 }) .testEnter).load (dram0 + 16) 1 = 4 := by decide +kernel
theorem test_zeroise : let s := called 0x7F
    let t := after s .zeroise
    ansB t 0 0 = true ∧ t.key.slots = [] ∧ t.raw .KEY_STATUS_ZEROISED = 1 ∧ t.raw .KEY_ORPHANS_SLOTS = 2 ∧ recIs t 0x58 8 3 none (77 * 2 ^ 32) = true ∧
    keyB s t [] [.KEY_STATUS_ZEROISED, .KEY_ORPHANS_SLOTS] = true := by decide +kernel
theorem test_safeEnter : let t := after (called 0x60) .safeEnter
    t.dev.st = .safe ∧ t.dev.safeLatch = true ∧ t.raw .SYS_STATE_SAFE_CAUSE = 3 ∧ ansB t 0 0 = true ∧
    (after { called 0x60 with dev := { run0.dev with st := .test } } .safeEnter).load (dram0 + 16) 1 = 5 := by decide +kernel
theorem test_service_errors : let c (code : Nat) (i : Instr) := (after (called code) i).load (dram0 + 16) 1
    c 2 (.random 0) = 6 ∧ c 2 (.random 4097) = 6 ∧ c 0x20 (.keyGenerate 9 9) = 2 ∧ c 0x21 (.keyLoad [] 20) = 6 ∧ c 0x23 (.keyExport 50 []) = 1 ∧ c 0x24 (.keyImport [] [] 9 9) = 2 ∧
    c 0x31 (.dataSeal 9 []) = 6 ∧ c 0x31 (.dataSeal 50 []) = 1 ∧ c 0x32 (.dataOpen 50 []) = 1 ∧ c 0x40 (.imageAuth (dram0 + 256)) = 4 := by decide +kernel
theorem test_keyCall : let s := { called 1 with key := { (called 1).key with calls := [] } }
    let full := { s with key := { s.key with calls := List.replicate 8 dram0 } }
    let bad := { called 3 with key := { (called 3).key with calls := [] } }
    let t := after bad (.keyCall (.core 2) dram0)
    (after s (.keyCall (.core 2) dram0)).key.calls = [dram0] ∧ (after full (.keyCall (.core 2) dram0)).raw .KEY_CALL_STATUS_FULL = 1 ∧ t.key.calls = [] ∧
    t.load (dram0 + 16) 8 = 7 + 256 + 2 ^ 31 ∧ t.raw .KEY_CALL_STATUS_DONE_COUNT = 1 ∧ recIs (after s (.keyCall (.mover 1) dram0)) 0x58 6 2 none 0 = true ∧
    recIs (after s (.keyCall (.core 2) 0)) 0x58 6 2 none 0 = true := by decide +kernel
/-- Node 2 is invalidated: at P its slot and the slot of node 9 below it are doomed; each is zeroised, and the call ends. -/
def invalid_ : State := called 0x11 fun k => { k with invalidating := some ⟨[2], dram0, none, none⟩, written := some (newEpochs [2] keyNodes) }
theorem test_invalidation : let t := after invalid_ .invalidationPoint
    let u := after t (.slotZeroise 2)
    let w := after u (.slotZeroise 9)
    t.key.anchor = 1 ∧ (t.node 2).epoch = 1 ∧ t.key.slots.map (·.2.doomed) = [true, true] ∧ t.key.calls = [dram0] ∧ t.key.invalidating = some ⟨[2], dram0, none, some 0⟩ ∧
    u.slot 2 = none ∧ u.raw .KEY_ORPHANS_SLOTS = 1 ∧ recIs u 0x58 1 3 none (2 + 2 * 2 ^ 16) = true ∧ u.key.calls = [dram0] ∧ w.key.slots = [] ∧ w.key.invalidating = none ∧
    ansB w 0 2 = true ∧ w.load (dram0 + 64) 2 = 1 ∧ recIs w 0x58 1 3 none (9 + 9 * 2 ^ 16) = true ∧ after (called 1) .invalidationPoint = called 1 ∧
    after (called 1) (.slotZeroise 9) = called 1 ∧ after (called 1) (.slotZeroise 50) = called 1 := by decide +kernel
theorem test_vaultEcc : let s := called 1
    let t := after s (.keyVaultEcc 9)
    t.slot 9 = none ∧ recIs t 0x58 10 3 none (9 + 9 * 2 ^ 16) = true ∧ frameB s t [.key, .btn] [.KEY_ORPHANS_SLOTS] = true ∧ after s (.keyVaultEcc 50) = s := by decide +kernel
/-- A LIVE sealed channel on slot 9 is SEALED. -/
theorem test_vaultEcc_channel : let s := tabled { run0 with key := { run0.key with slots := [(9, keyedSlot)] } } [(7, mkEntry 5 csLive false [(2, 0, 4), (20, 0, 9)])]
    let t := after s (.keyVaultEcc 9)
    s.chans = [7] ∧ eSealed (s.entry 7) = true ∧ eKeyKind (s.entry 7) = 0 ∧ eKeyRef (s.entry 7) % 256 = 9 ∧ s.chanState 7 = csLive ∧ s.inDram (s.area + 64 * 7) 64 = true ∧
    s.hostLoc = false ∧ t.chanState 7 = csSealed ∧ t.slot 9 = none := by decide +kernel
theorem test_pool : let s := called 1 fun k => { k with poolWaits := [(7, dram0 + 4096, 0)] }
    let t := after s (.poolLoad 7)
    let late := { s with clock := 100 * us }
    t.key.poolWaits = [] ∧ t.key.slots = s.key.slots ∧ recIs t 0x58 12 2 (some 7) (255 * 2 ^ 16 + 7 * 2 ^ 32) = true ∧ s.chanState 7 = csIdle ∧
    after { s with clock := 100 * us - 1 } (.poolBusyTimeout 7) = { s with clock := 100 * us - 1 } ∧ (after late (.poolBusyTimeout 7)).key.poolWaits = [] ∧
    recIs (after late (.poolBusyTimeout 7)) 0x58 11 2 (some 7) (255 * 2 ^ 16 + 7 * 2 ^ 32) = true ∧ after (called 1) (.poolLoad 7) = called 1 ∧
    after (called 1) (.poolBusyTimeout 7) = called 1 := by decide +kernel
theorem test_entropy : let s := called 1
    let t := after s (.entropySample false)
    after s (.entropySample true) = s ∧ t.raw .KEY_STATUS_ERROR = 1 ∧ t.raw .KEY_STATUS_ENTROPY_OK = 0 ∧ t.key.failed = true ∧ recIs t 0x58 3 4 none 0 = true ∧
    frameB s t [.key, .btn] [.KEY_STATUS_ENTROPY_OK, .KEY_STATUS_ERROR] = true ∧ after t (.entropySample false) = t := by decide +kernel

/-- Gauge 12 of the worked example of R475: LOG2, BASE 0, GAU_HIGH 40,000; three latencies. -/
def gauge12 : State := with_ run0 [(.GAU_CFG_LOG2, 0, 12, 1), (.GAU_CFG_HIGH_EN, 0, 12, 1), (.GAU_HIGH_HIGH, 0, 12, 40000)]
def three : State := (sample 12 164000).run ((sample 12 12800).run ((sample 12 4400).run gauge12))
theorem test_gauge_example : let t := after three (.snapshot 12 false)
    t.raw .GAU_COUNT_COUNT 0 12 = 3 ∧ t.raw .GAU_SUM_SUM 0 12 = 181200 ∧ t.raw .GAU_MIN_VALUE 0 12 = 4400 ∧ t.raw .GAU_MAX_VALUE 0 12 = 164000 ∧
    [13, 14, 18].map (fun k => t.raw .GAU_BIN_COUNT 0 (32 * 12 + k)) = [1, 1, 1] ∧ t.raw .GAU_BIN_COUNT 0 (32 * 12 + 15) = 0 ∧
    recIs three 0x60 1 2 none (12 + 164000 * 2 ^ 32) = true ∧ three.grn.ipend.testBit 0x60 = true := by decide +kernel
/-- Linear bins of 10 from -5: floor, not truncation. -/
theorem test_gauge_linear : binOf false (-5) 10 (-6) = 0 ∧ binOf false (-5) 10 4 = 0 ∧ binOf false (-5) 10 5 = 1 ∧ binOf false 0 1 1000 = 31 ∧ binOf true 100 1 100 = 0 ∧
    binOf true 100 1 101 = 1 ∧ satSigned (2 ^ 63) = 2 ^ 63 - 1 := by decide
/-- Gauge 3 samples PACE each microsecond. -/
def pace3 (m : Nat) : State := { with_ run0 [(.GAU_CFG_SOURCE, 0, 3, 4), (.GAU_CFG_PERIOD_US, 0, 3, 1), (.GAU_WIDTH_WIDTH, 0, 3, 10), (.SYS_PACE_PACE, 0, 0, 25)] with moment := m }
theorem test_periodic : let t := after (pace3 8000) (.periodicSample 3 0)
    let c := after t (.snapshotClear 3 false)
    (pace3 8000).periodic 3 0 = some 25 ∧ okB (pace3 8000) = true ∧ (t.gauge 3).count = 1 ∧ (t.gauge 3).bins = [(2, 1)] ∧ frameB (pace3 8000) t [.gau] [] = true ∧
    after (pace3 8001) (.periodicSample 3 0) = pace3 8001 ∧ after run0 (.periodicSample 3 0) = run0 ∧ c.raw .GAU_SUM_SUM 0 3 = 25 ∧ c.raw .GAU_SNAP_MOMENT_MOMENT 0 3 = 8000 ∧
    (c.gauge 3).count = 0 ∧ (after t (.clear 3 false)).gau = [] ∧
    (let e := after (after run0 (.clear 3 false)) (.snapshot 3 false); e.raw .GAU_MIN_VALUE 0 3 = 0x7FFFFFFFFFFFFFFF ∧ e.raw .GAU_MAX_VALUE 0 3 = 0x8000000000000000) := by decide +kernel
def rec1 (sev : Nat) : Rec := ⟨5, 9, 2, 0x60, sev, 1, some 7, 12⟩
/-- Two records staged, a ring of 2,048 at the start of DRAM. -/
def ring (head tail : Nat) (more : List (RegId × Nat × Nat × Nat) := []) : State :=
  let s := with_ { run0 with boot := { run0.boot with gib := 1, trained := true } } ([(.BTN_RING_CFG_ENABLE, 0, 0, 1), (.BTN_RING_CFG_LOG2_SIZE, 0, 0, 16), (.BTN_RING_BASE_BASE, 0, 0, dram0 / 2 ^ 16),
    (.BTN_HEAD_HEAD, 0, 0, head), (.BTN_TAIL_TAIL, 0, 0, tail), (.BTN_RING_CFG_IRQ_SEV, 0, 0, 3)] ++ more)
  { s with btn := { s.btn with staged := [rec1 3, rec1 1] } }
theorem test_ringWrite : let s := ring 1 0
    let t := after s .ringWrite
    let w0 := after (ring 2047 0) .ringWrite
    let w := after w0 .ringWrite
    okB s = true ∧ s.btnCap = 2048 ∧ s.btnFill = 1 ∧ t.btn.staged = [rec1 1] ∧ t.raw .BTN_HEAD_HEAD = 2 ∧
    t.mem.reads (dram0 + 32) 32 = leBytes 8 5 ++ leBytes 4 (9 + 2 * 2 ^ 20) ++ [0x60, 3, 1, 0] ++ leBytes 4 (7 + 2 ^ 31) ++ leBytes 12 12 ∧ t.grn.ipend.testBit 0x61 = true ∧
    frameB s t [.mem, .btn, .grn] [.BTN_HEAD_HEAD] = true ∧ w0.raw .BTN_TAIL_TAIL = 0 ∧ w0.raw .BTN_HEAD_HEAD = 0 ∧ w0.btnFill = 2048 ∧ w.raw .BTN_TAIL_TAIL = 1 ∧ w.raw .BTN_LOST_RECORDS = 1 ∧ w.raw .BTN_STATUS_WRAPPED = 1 ∧ w.raw .BTN_HEAD_HEAD = 1 ∧ w.btnFill = 2048 ∧
    (after t .ringWrite).grn.ipend = t.grn.ipend := by decide +kernel
theorem test_ringStop : let s := { ring 0 0 [(.BTN_RING_CFG_MODE, 0, 0, 1)] with bus := ⟨[], [], [0]⟩ }
    let off := with_ s [(.BTN_RING_CFG_ENABLE, 0, 0, 0)]
    after s .ringWrite = s ∧ after s .btnPop = s ∧ after off .ringWrite = off ∧ (after off .btnPop).btn.staged = [rec1 1] ∧ after run0 .btnPop = run0 := by decide +kernel
def logMsg (w : Nat) : State := { run0 with grn := { run0.grn with msgs := [⟨0x61, leBytes 8 w ++ leBytes 12 99 ++ leBytes 4 0, some 7, 35, []⟩] } }
theorem test_log : let t := after (logMsg (1 + 2 * 256 + 0x123 * 2 ^ 16)) .log
    t.grn.msgs = [] ∧ recIs t 0x61 0x8123 2 (some 7) 99 = true ∧ (after (logMsg 2) .log).raw .BTN_MSG_REFUSED_MESSAGES = 1 ∧ (after (logMsg 2) .log).btn.staged = [] ∧
    after run0 .log = run0 := by decide +kernel
/-- DEPLOYED and running, 1,000 s after reset; every kind enabled. -/
def slt1 (p : SltPart → SltPart := id) : State :=
  let s := with_ run0 [(.SLT_KINDS_ENABLE, 0, 0, 0x7FF), (.SLT_SCHED_RETRY_MS, 0, 0, 100), (.SLT_SCHED_INTERVAL_S, 0, 0, 600), (.SAL_STATUS_PANS_ONLINE, 0, 0, 16)]
  { s with key := { s.key with lifecycle := 3 }, clock := 1000 * sec, slt := p s.slt }
def running (kind t : Nat) (forced : Bool := false) : State := slt1 fun p => { p with running := some ⟨kind, t, 0, forced⟩ }
theorem test_sliceStart : let s := slt1
    let g (k t : Nat) := after s (.sliceStart k t)
    okB s = true ∧ s.quiet 0x68 = false ∧ s.sltMayRun 3 = true ∧ s.sltReady 3 5 = true ∧ (g 3 5).slt.running = some ⟨3, 5, 1000 * sec, false⟩ ∧ (g 3 5).raw .SLT_STATUS_KIND = 3 ∧
    (g 3 5).raw .SLT_STATUS_TARGET = 5 ∧ (g 3 5).raw .SLT_STATUS_RUNNING = 1 ∧ ((g 0 2).sltSet 0 2).out = true ∧ (g 0 2).raw .SAL_STATUS_PANS_ONLINE = 15 ∧ (g 1 9).grn.closed = [9] ∧
    (g 8 4).key.pipesOut = [4] ∧ after s (.sliceStart 3 24) = s ∧ after s (.sliceRetry 3 5) = s ∧ after (g 3 5) (.sliceStart 7 1) = g 3 5 := by decide +kernel
theorem test_sliceRetry : let s (at_ : Nat) := slt1 fun p => { p with sets := [(sltKey 7 2, { blankSet with retryAt := at_ })] }
    (after (s (1000 * sec)) (.sliceRetry 7 2)).slt.running = some ⟨7, 2, 1000 * sec, false⟩ ∧ ((after (s (1000 * sec)) (.sliceRetry 7 2)).sltSet 7 2).retryAt = 0 ∧
    after (s (1000 * sec)) (.sliceStart 7 2) = s (1000 * sec) ∧ after (s (1000 * sec + 1)) (.sliceRetry 7 2) = s (1000 * sec + 1) := by decide +kernel
theorem test_slicePass : let s := running 7 2
    let t := after s (.sliceEnd true false false 0)
    let p := after (running 0 2) (.sliceEnd true false false 0)
    t.slt.running = none ∧ t.raw .SLT_STATUS_SLICES = 1 ∧ t.sltSet 7 2 = ⟨0, 1000 * sec, false, false, false, 0⟩ ∧ t.raw .SLT_KIND_STATUS_DONE 0 7 = 1 ∧ (p.sltSet 0 2).done = 1 ∧
    (after { s with slt := { s.slt with sets := [(sltKey 7 2, { blankSet with failed := true })] } } (.sliceEnd true false false 0)).btn.staged.map (·.code) = [4] := by decide +kernel
theorem test_sliceFail : let f (k t : Nat) (w : Bool) := after (running k t) (.sliceEnd false false w 77)
    ((f 7 9 false).sltSet 7 9).failed = true ∧ (f 7 9 false).raw .SLT_FAILS_COUNT = 1 ∧ recIs (f 7 9 false) 0x68 1 3 none (7 + 9 * 256 + 77 * 2 ^ 32) = true ∧
    ((f 7 9 false).sltSet 7 9).retryAt = 1000 * sec + 100 * ms ∧ (f 7 9 false).dev.st = .run ∧ recIs (f 5 9 false) 0x68 5 2 none (5 + 9 * 256) = true ∧ ((f 5 9 false).sltSet 5 9).failed = false ∧
    (f 2 9 false).berthState 9 = 1 ∧ (f 4 9 false).laneState 2 1 = lnFail ∧ (f 9 0 false).raw .KEY_STATUS_ERROR = 1 ∧ recIs (f 10 3 false) 0x68 6 2 none (10 + 3 * 256) = true := by decide +kernel
theorem test_sliceFail_safe : let f (k t : Nat) (w : Bool) := after (running k t) (.sliceEnd false false w 77)
    (f 3 1 false).dev.st = .safe ∧ (f 3 1 false).raw .SYS_STATE_SAFE_CAUSE = 1 ∧ (f 7 3 false).dev.st = .safe := by decide +kernel
theorem test_sliceAbort : let s := running 1 9
    let t := after s .sliceAbort
    t.slt.running = none ∧ t.raw .SLT_ABORTS_COUNT = 1 ∧ (t.sltSet 1 9).retryAt = 1000 * sec + 100 * ms ∧ recIs t 0x68 2 0 none (1 + 9 * 256) = true ∧
    after (running 1 9 true) .sliceAbort = running 1 9 true ∧ after (running 7 9) .sliceAbort = running 7 9 ∧ (after (running 0 2) .sliceAbort).raw .SLT_ABORTS_COUNT = 1 ∧
    after slt1 .sliceAbort = slt1 ∧ after slt1 (.sliceEnd true false false 0) = slt1 := by decide +kernel
theorem test_sltForced : let s := slt1
    let t := after s (.sltForced 7 9)
    s.gated 7 9 = false ∧ (t.sltSet 7 9).forced = true ∧ t.raw .SLT_FORCED_COUNT = 1 ∧ recIs t 0x68 3 2 none (7 + 9 * 256) = true ∧ after t (.sltForced 7 9) = t ∧
    after { s with clock := 600 * sec - 1 } (.sltForced 7 9) = { s with clock := 600 * sec - 1 } := by decide +kernel
theorem test_tap : let o (s : State) (i : Instr) := (after s i).out.map (·.args)
    o run0 .bypass = [[0]] ∧ o run0 .idcode = [[1]] ∧ o run0 .samplePreload = [[2]] ∧ o run0 .usercode = [[3]] ∧ o run0 .extest = [[0]] ∧ o (inDev .safe) .extest = [[4]] ∧
    o (inDev .test) .extestPulse = [[5]] ∧ o (with_ (inDev .boot) [(.SYS_STATE_BOOT_FAIL, 0, 0, 1)]) .extestTrain = [[6]] ∧ o (inDev .boot) .extestTrain = [[0]] ∧
    recIs (after run0 .extestPulse) 0x68 8 2 none 0 = true ∧ o run0 (.testEngineAccess false 0 0) = [[0]] ∧ o run0 (.testEngineAccess true 0 0) = [] ∧
    recIs (after run0 (.testEngineAccess true 0 0)) 0x68 8 2 none 0 = true ∧ o { run0 with key := { run0.key with lifecycle := 4 } } (.testEngineAccess true 16 7) = [[16, 7]] := by decide +kernel

def boot1 (b : BootPart → BootPart) (more : List (RegId × Nat × Nat × Nat) := []) : State := let s := with_ (inDev .boot) more
  { s with boot := b s.boot, clock := sec }
def aon1 (b : BootPart → BootPart) : State := { inDev .aon with boot := b (inDev .aon).boot, clock := sec }
def removedB (s t : State) : Bool := t.dev.st == .aon && t.boot.groups == 0 && !t.boot.epmas && !t.boot.trained && t.raw .TMB_STATUS_REF_LOCK == 0 && t.moment == 0 && t.cbl == s.cbl &&
  t.key.slots.isEmpty && t.key.lifecycle == s.key.lifecycle && t.out == ⟨.rails, [0], []⟩ :: s.out
def offB (t : State) (cause : Nat) : Bool := t.dev.st == .off && !t.dev.safeLatch && t.mem.isEmpty && t.moment == 0 && t.raw .SYS_RESET_CAUSE_CAUSE == cause && t.cbl == CblPart.reset && t.boot.groups == 0
/-- A hub that runs with something in memory, in the vault and in the log. -/
def busy : State := let s := called 1
  { s with moment := 99, dev := { s.dev with vin := true } }
theorem test_thermal : let s := { run0 with boot := { run0.boot with epmas := true } }
    let t := after busy (.thermalTrip 140)
    let held := { State.reset with dev := { DevPart.reset with thermalHold := true, vin := true } }
    let r := after held (.thermalRelease 99)
    okB s = true ∧ s.flowing = true ∧ offB t 1 = true ∧ t.dev.thermalHold = true ∧ t.key.lifecycle = 3 ∧ after busy (.thermalTrip 139) = busy ∧ r.dev.st = .aon ∧ r.dev.thermalHold = false ∧
    r.boot.groups = 1 ∧ after held (.thermalRelease 100) = held ∧ (after held .powerUp).dev = held.dev ∧
    (after { held with dev := { held.dev with vin := false } } (.thermalRelease 99)).dev.st = .off ∧ after run0 (.thermalRelease 0) = run0 := by decide +kernel
/-- 130 °C is hot for either grade. -/
theorem test_thermal_limit : 16 * (if Config.grade = 1 then 110 else 130) ≤ 16 * 130 := by split <;> decide
theorem test_powerUp : let t := after State.reset .powerUp
    let v := after State.reset (.vbusRise 2)
    okB State.reset = true ∧ logB State.reset = true ∧ t.dev.st = .aon ∧ t.dev.vin = true ∧ t.boot.groups = 1 ∧ t.raw .CBL_IMG_STATUS_ROM = 1 ∧ t.out = [⟨.rails, [1], []⟩] ∧
    frameB State.reset t [.dev, .boot, .grn, .out] [] = true ∧ v.dev.st = .aon ∧ v.dev.vbus = 4 ∧ v.raw .CBL_PORT_STATUS_ATTACHED 2 = 1 ∧ (v.cblPort 2).gsnk = true ∧ v.boot.groups = 0 ∧
    (after v .powerUp).boot.groups = 1 := by decide +kernel
theorem test_rails : let g (n at_ : Nat) := aon1 fun b => { b with groups := n, railAt := at_ }
    let t := after (g 2 0) .railGroupEnable
    let f := after (g 2 0) (.railFault false)
    let r := after { f with clock := 2 * sec } .railRetry
    t.boot.groups = 3 ∧ t.boot.railAt = sec ∧ t.out = [⟨.rails, [3], []⟩] ∧ after (g 4 0) .railGroupEnable = g 4 0 ∧ after (g 2 sec) .railGroupEnable = g 2 sec ∧ removedB (g 2 0) f = true ∧
    f.raw .SYS_BOOT_INFO_RAIL_FAULT = 1 ∧ f.boot.railGroup = some 2 ∧ f.boot.faults = 1 ∧ after f .railRetry = f ∧ r.boot.groups = 1 ∧ r.boot.railFaultAt = none ∧
    after (g 2 sec) (.railFault false) = g 2 sec ∧ (after (boot1 id) (.railFault true)).boot.railGroup = some 2 ∧ after (g 0 0) .railRetry = g 0 0 := by decide +kernel
theorem test_pgood : let s := aon1 fun b => { b with groups := 4, railGroup := some 2 }
    let t := after s (.pgoodRise (0x88 + 0x30))
    let b := after (aon1 fun b => { b with groups := 4 }) (.pgoodRise 6)
    t.dev.st = .boot ∧ t.raw .TMB_CFG_REF_SRC = 1 ∧ t.raw .BRG_CFG_BOND = 0 ∧ (List.range 4).map (fun n => t.raw .PCI_CFG_ROLE n) = [1, 1, 1, 0] ∧ recIs t 1 7 3 none 2 = true ∧
    t.boot.pgoodAt = sec ∧ b.raw .BRG_CFG_BOND = 0 ∧ b.btn.staged = [] ∧ after (boot1 id) (.pgoodRise 0) = boot1 id := by decide +kernel
theorem test_removal : let t := after busy .pgoodFall
    let w := after busy (.standbyEnter 0xB7A3)
    removedB busy t = true ∧ removedB busy w = true ∧ w.boot.standby = true ∧ recIs (after busy (.standbyEnter 1)) 1 6 2 none 0 = true ∧ after (inDev .aon) .pgoodFall = inDev .aon ∧
    (after { w with dev := { w.dev with vin := true } } .powerUp).boot.groups = 0 ∧ (after w .wakeNFall).boot.groups = 1 ∧ (after busy .wakeNFall).boot.faults = 0 := by decide +kernel
theorem test_loss : let t := after busy .porn
    let p := after busy .powerLoss
    let v := { busy with dev := { busy.dev with vbus := 2 } }
    offB t 1 = true ∧ t.dev.vin = true ∧ offB p 5 = true ∧ p.dev.vin = false ∧ removedB v (after v .vinLoss) = true ∧ (after v .vinLoss).dev.vin = false ∧ after busy .vinLoss = busy ∧
    t.raw .KEY_STATUS_ENTROPY_OK = State.reset.raw .KEY_STATUS_ENTROPY_OK := by decide +kernel
theorem test_ref : let s := boot1 id
    let t := after s .refFault
    t.raw .SYS_BOOT_INFO_REF_FAULT = 1 ∧ t.boot.refAt = sec ∧ after { t with clock := sec + 99 * ms } .refFault = { t with clock := sec + 99 * ms } ∧
    (after { t with clock := sec + 100 * ms } .refFault).boot.refAt = sec + 100 * ms ∧ after run0 .refFault = run0 ∧ s.raw .TMB_STATUS_REF_LOCK = 0 := by decide +kernel
/-- A grandmaster at 0.1 s after a second is 0.1 s late at the pulse: at first it steps. -/
theorem test_pps : let s (m : Nat) := { with_ run0 [(.TMB_CFG_REF_SRC, 0, 0, 1), (.TMB_STATUS_REF_LOCK, 0, 0, 1)] with moment := m }
    let t := after (s (10 * sec - sec / 10)) .ppsPulse
    phaseOf ((s (10 * sec - sec / 10)).asTime (10 * sec - sec / 10)) < 0 ∧ t.moment = 10 * sec ∧ t.raw .TMB_STATUS_STEPPED = 1 ∧ recIs t 2 1 1 none (sec / 10) = true ∧ t.tmb.acquired = true ∧
    (after (s (10 * sec + 40)) .ppsPulse).moment = 10 * sec + 40 ∧ after run0 .ppsPulse = run0 := by decide +kernel
/-- A board record: GPIO lines 0 to 3 driven in SAFE, 0 and 1 high; port 2 enabled at RUN. -/
def board1 : List Byte :=
  let b := leBytes 4 0x42445231 ++ leBytes 6 15 ++ leBytes 6 3 ++ [4, 0] ++ List.replicate 10 0
  b ++ leBytes 4 (crc32 b)
theorem test_board : boardOk board1 = true ∧ boardOk (board1.set 4 0) = false := by decide +kernel
theorem test_epmas : let s := boot1 id
    let f := after s (.epmasAuthenticated false 0 false false [] board1 0)
    let l := { s with dev := { s.dev with safeLatch := true, latchCause := 2 } }
    let t := after l (.epmasAuthenticated true 1 true true [9] board1 0)
    f.raw .SYS_STATE_BOOT_FAIL = 1 ∧ f.boot.epmas = false ∧ t.dev.st = .safe ∧ t.raw .SYS_STATE_SAFE_CAUSE = 2 ∧ t.boot.epmas = true ∧ t.raw .SYS_BOOT_INFO_EPMAS_SLOT = 1 ∧
    t.raw .SYS_BOOT_INFO_FALLBACK = 1 ∧ t.raw .GPIO_SAFE_EN_EN = 15 ∧ t.raw .GPIO_SAFE_LEVEL_LEVEL = 3 ∧ t.key.kernel = [9] ∧
    after run0 (.epmasAuthenticated true 1 true true [] [] 0) = run0 := by decide +kernel
def ready_ : State := boot1 (fun b => { b with epmas := true }) [(.TMB_STATUS_REF_LOCK, 0, 0, 1)]
theorem test_boot_trained : let d := after ready_ (.dramTrained true 8)
    d.boot.trained = true ∧ d.boot.gib = 8 ∧ d.raw .DDR_STATUS_GIB = 8 ∧ d.raw .DDR_STATUS_TRAINED = 1 ∧
    after (boot1 id) (.dramTrained true 8) = boot1 id ∧ after d (.firmwareAuthenticated true 1 true [7] 3 64) = d := by decide +kernel
theorem test_boot_fault : (after ready_ (.dramTrained false 8)).raw .SYS_BOOT_INFO_DDR_FAULT = 1 := by decide +kernel
theorem test_boot_firmware : let e := { ready_ with boot := { ready_.boot with trained := true, tested := true, linkAuto := 4 } }
    let r := after e (.firmwareAuthenticated true 1 true [7] 3 64)
    r.dev.st = .run ∧ r.key.firmware = [7] ∧ r.key.firmwareSvn = 3 ∧ (r.core 3).pc = 64 ∧
    r.raw .SYS_BOOT_INFO_FW_SLOT = 1 ∧ r.raw .LNK_CFG_ENABLE 2 = 1 ∧ r.raw .LNK_CFG_ENABLE 1 = 0 := by decide +kernel
theorem test_boot_refused : let e := { ready_ with boot := { ready_.boot with trained := true, tested := true } }
    (after e (.firmwareAuthenticated false 0 false [] 0 0)).raw .SYS_STATE_BOOT_FAIL = 1 := by decide +kernel
theorem test_startup_fail : let f := after ready_ (.startupSelftestDone [(1, 40, false)])
    (after ready_ (.startupSelftestDone [(3, 2, false)])).dev.st = .safe ∧ (after ready_ (.startupSelftestDone [(3, 2, false)])).raw .SYS_STATE_SAFE_CAUSE = 1 ∧ f.grn.closed = [40] ∧
    (f.sltSet 1 40).failed = true ∧ f.dev.st = .boot ∧ after run0 (.startupSelftestDone []) = run0 := by decide +kernel
theorem test_refLost : (with_ run0 [(.TMB_STATUS_REF_LOCK, 0, 0, 1)]).raw .TMB_STATUS_REF_LOCK = 1 ∧
    (with_ run0 [(.TMB_STATUS_REF_LOCK, 0, 0, 1)]).coreAlive = true := by decide +kernel
def flash1 (a : Nat) : State := with_ { run0 with boot := { run0.boot with gib := 1 } } [(.XSPI_ADDR_ADDR, 0, 0, a), (.XSPI_BUF_ADDR, 0, 0, dram0)]
theorem test_xspi : let s := flash1 0x80010
    let t := after s (.xspiRead (.core 0) 3)
    let c := after t (.xspiComplete [1, 2, 3, 4] false)
    let e := after s (.xspiErase (.core 0))
    let no := after (flash1 0x100000) (.xspiProgram (.core 1) 8)
    t.raw .XSPI_STATUS_BUSY = 1 ∧ t.out = [⟨.flash, [1, 0x80010, 3], []⟩] ∧ c.mem.reads dram0 4 = [1, 2, 3, 0] ∧ c.raw .XSPI_STATUS_BUSY = 0 ∧ c.raw .XSPI_STATUS_RESULT = 1 ∧
    c.boot.xspi = none ∧ (after t (.xspiComplete [] true)).raw .XSPI_STATUS_RESULT = 3 ∧ e.boot.xspi = some (3, 0x80000, dram0, 65536) ∧ no.raw .XSPI_STATUS_RESULT = 2 ∧
    recIs no 0x78 1 2 none 0x100000 = true ∧ (after (flash1 0x100000) (.xspiProgram .secure 8)).raw .XSPI_STATUS_BUSY = 1 ∧ after t (.xspiErase (.core 0)) = t ∧
    after s (.xspiComplete [] true) = s ∧ flashAllowed (.core 0) 0x7FFFF 2 = false ∧ flashAllowed (.core 0) 0xFFFFF 1 = true := by decide +kernel

/-! Grainer instructions: a busy thread 0 of engine 0 on an otherwise idle station, and control core 1. -/
def th0 : Thread := { blankThread with busy := true, unit := 5, chan := 9, hi := 64, budget := 100 }
def on (h : Thread) : State := { run0 with grn := { run0.grn with threads := run0.grn.threads.put 0 h }, boot := { run0.boot with gib := 1 } }
def withRegs (l : List (Nat × Word)) (h : Thread) : Thread := { h with regs := l.foldl (fun m x => m.put x.1 x.2) h.regs }
def m0 : Mach := .eng 0 0
def k1 : Mach := .ctl 1
def core1 : Core := { Core.reset with status := 1, tvec := 0x400 }
def onCore (c : Core) : State := { run0 with grn := { run0.grn with ctl := run0.grn.ctl.put 1 c }, boot := { run0.boot with gib := 1 } }
def withCoreRegs (l : List (Nat × Word)) (c : Core) : Core := { c with regs := l.foldl (fun m x => m.put x.1 x.2) c.regs }

/-- The hypothesis Issues, as a test. -/
def issuesB (s : State) (m : Mach) (i : Instr) (cost : Nat) : Bool :=
  s.ready m && grnLegal i && match m with
    | .eng e t => let h := s.thread (threadKey e t); decide (h.lo ≤ h.pc) && decide (h.pc < h.hi) && decide (h.steps + cost ≤ h.budget)
    | _ => let c := s.core (coreKey m); decide (c.pc % 4 = 0) && c.allowsAll c.pc 4 10

theorem issues_of_issuesB (s : State) (m : Mach) (i : Instr) (cost : Nat) (h : issuesB s m i cost = true) : s.Issues m i cost := by
  cases m <;> simp_all [issuesB, State.Issues]

/-- The registers of a run that ends at `pc` with the given values in the listed registers. -/
def endsAt (t : State) (m : Mach) (pc : Nat) (l : List (Reg × Word)) : Bool :=
  t.pc m == pc && l.all fun x => t.reg m x.1 == x.2

def ab : State := on (withRegs [(1, 7), (2, 0xFFFFFFFFFFFFFFFE#64), (3, 0x0102030405060708#64)] th0)
theorem test_issues : ab.Issues m0 (.divu m0 4 1 2) 8 := issues_of_issuesB _ _ _ _ (by decide +kernel)
theorem test_core_issues : (onCore core1).Issues k1 (.add k1 4 1 2) 1 := issues_of_issuesB _ _ _ _ (by decide +kernel)
theorem test_add_wraps : endsAt (after ab (.add m0 4 1 2)) m0 4 [(4, 5), (1, 7)] = true ∧
    endsAt (after ab (.add m0 1 1 2)) m0 4 [(1, 5)] = true ∧ (after ab (.add m0 0 1 2)).reg m0 0 = 0 := by decide +kernel
theorem test_divisions : endsAt (after ab (.divu m0 4 1 0)) m0 4 [(4, 0xFFFFFFFFFFFFFFFF#64)] = true ∧ (after ab (.divu m0 4 1 0)).stepsOf m0 = 8 ∧
    endsAt (after ab (.rem m0 4 2 1)) m0 4 [(4, 0xFFFFFFFFFFFFFFFE#64)] = true ∧ endsAt (after ab (.div m0 4 1 2)) m0 4 [(4, 0xFFFFFFFFFFFFFFFD#64)] = true := by decide +kernel
theorem test_shifts_and_counts : endsAt (after ab (.sra m0 4 2 1)) m0 4 [(4, 0xFFFFFFFFFFFFFFFF#64)] = true ∧ endsAt (after ab (.clz m0 4 1)) m0 4 [(4, 61)] = true ∧
    endsAt (after ab (.popc m0 4 1)) m0 4 [(4, 3)] = true ∧ endsAt (after ab (.mulh m0 4 1 2)) m0 4 [(4, 0xFFFFFFFFFFFFFFFF#64)] = true ∧
    endsAt (after ab (.mulhu m0 4 1 2)) m0 4 [(4, 6)] = true := by decide +kernel
theorem test_immediates : endsAt (after ab (.addi m0 4 1 0xFFF8#16)) m0 4 [(4, 0xFFFFFFFFFFFFFFFF#64)] = true ∧
    endsAt (after ab (.andi m0 4 2 0xFFF8#16)) m0 4 [(4, 0xFFF8)] = true ∧ endsAt (after ab (.lih m0 1 3 0xABCD#16)) m0 4 [(1, 0xABCD000000000007#64)] = true ∧
    endsAt (after ab (.swapW m0 4 3)) m0 4 [(4, 0x08070605)] = true ∧ endsAt (after ab (.exts m0 4 3 3 5)) m0 4 [(4, 0xFFFFFFFFFFFFFFE1#64)] = true ∧
    endsAt (after ab (.ins m0 3 1 8 7)) m0 4 [(3, 0x0102030405060708#64 - 0x0700 + 0x0700)] = true := by decide +kernel
/-- The second worked example's shape: 1000 × 3 / 2 + 10 is 1510, clipped to 8 bits unsigned is 255 with the flag in g5. -/
theorem test_scale_clips : let s := on (withRegs [(1, 1000), (2, 0x0000000100000003#64), (3, 10)] th0)
    endsAt (after s (.scale m0 4 1 2 8 false false true)) m0 4 [(4, 255), (5, 1)] = true ∧
    endsAt (after s (.scale m0 4 1 2 0 false false true)) m0 4 [(4, 1510), (5, 0)] = true ∧
    issuesB s m0 (.scale m0 4 1 2 8 false false true) 2 = true := by decide +kernel
theorem test_fcvt : let s := on (withRegs [(1, 5), (2, 0x7FC00001)] th0)
    endsAt (after s (.fcvt m0 4 1 0 3 0)) m0 4 [(4, 0x40A00000)] = true ∧ endsAt (after s (.fcvt m0 4 2 3 1 0)) m0 4 [(4, 0)] = true := by decide +kernel
def mid : State := on { withRegs [(1, 7), (2, 0xFFFFFFFFFFFFFFFE#64)] th0 with pc := 32 }
theorem test_branches : endsAt (after mid (.blt m0 2 1 0xFFFE#16)) m0 24 [] = true ∧ endsAt (after mid (.bltu m0 2 1 0xFFFE#16)) m0 36 [] = true ∧
    endsAt (after mid (.beqi m0 1 7 3)) m0 44 [] = true ∧ endsAt (after mid (.jal m0 4 2)) m0 40 [(4, 36)] = true ∧
    endsAt (after mid (.jalr m0 1 1 1)) m0 8 [(1, 36)] = true := by decide +kernel
def loads0 : State :=
  on { withRegs [(1, 0x10)] th0 with u := th0.u.writes 0x10 [0xFE, 0xFF], k := th0.k.writes 0x18 [1, 2, 3, 4, 5, 6, 7, 8], entry := [0x45] ++ List.replicate 63 0 }
theorem test_loads : issuesB loads0 m0 (.ldu m0 4 1 1 true 0) 1 = true ∧ endsAt (after loads0 (.ldu m0 4 1 1 true 0)) m0 4 [(4, 0xFFFFFFFFFFFFFFFE#64)] = true ∧
    endsAt (after loads0 (.ldu m0 4 1 1 false 0)) m0 4 [(4, 0xFFFE)] = true ∧ endsAt (after loads0 (.ldk m0 4 1 3 false 8)) m0 4 [(4, 0x0807060504030201#64)] = true ∧
    endsAt (after loads0 (.ldc m0 4 0 0 false 0)) m0 4 [(4, 0x45)] = true := by decide +kernel
def tables0 (kind : Nat) : State :=
  let s := on { withRegs [(1, 1), (2, 0x40), (3, 8)] th0 with descs := [⟨dram0, 2, kind, 1, 1⟩], k := th0.k.writes 8 (leBytes 8 77) }
  { s with mem := s.mem.writes dram0 (leBytes 8 55 ++ leBytes 8 66 ++ leBytes 8 77 ++ leBytes 8 88) }
theorem test_table_load : let t := after (on { withRegs [(1, 8)] th0 with descs := [⟨dram0, 2, 1, 0, 1⟩] }) (.ldt m0 4 1 0 false 0)
    t.pc m0 = 4 ∧ t.reg m0 4 = 0 ∧ (t.thread 0).wait = .table := by decide +kernel
theorem test_lookup : let t := after (tables0 2) (.lookup m0 4 3 2 0)
    issuesB (tables0 2) m0 (.lookup m0 4 3 2 0) 4 = true ∧ t.reg m0 4 = 2 ∧ (t.thread 0).k.reads 0x40 8 = leBytes 8 88 ∧ (t.thread 0).wait = .table ∧ (tables0 2).search ⟨dram0, 2, 2, 1, 1⟩ 54 = none := by
  decide +kernel
theorem test_stores : let s := on (withRegs [(1, 0x0A0B0C0D), (2, 0x10)] th0)
    issuesB s m0 (.stu m0 1 2 1 0) 1 = true ∧ (after s (.stu m0 1 2 1 0)).pc m0 = 4 ∧ ((after s (.stu m0 1 2 1 0)).thread 0).u.reads 0x10 3 = [0x0D, 0x0C, 0] ∧
    ((after s (.stk m0 1 2 2 4)).thread 0).k.reads 0x14 4 = [0x0D, 0x0C, 0x0B, 0x0A] ∧
    (after (with_ s [(.CHN_AREA_BASE_BASE, 0, 0, 1024)]) (.stc m0 1 2 0 0x30)).pc m0 = 4 := by decide +kernel
def stamp0 := after (on th0) (.stamp m0 4)
theorem test_stamp : issuesB (on th0) m0 (.stamp m0 4) 1 = true ∧ endsAt stamp0 m0 4 [(4, 0), (5, BitVec.ofNat 64 (0x6C * 8 * 2 ^ 20))] = true ∧ stamp0.tmb.seqs.get? 0x6C = some 1 := by
  decide +kernel
theorem test_meter : let s := with_ (on (withRegs [(1, 3), (2, 100)] th0)) [(.RAK_METER_TYPE, 0, 3, 1), (.RAK_METER_ALG, 0, 3, 1)]
    issuesB s m0 (.meter m0 4 1 2 0 false false) 2 = true ∧ (after s (.meter m0 4 1 2 0 false false)).reg m0 4 = 2 ∧ (after s (.meter m0 4 0 2 0 false false)).reg m0 4 = 3 := by decide +kernel
def enqs (h : Thread) : State :=
  let s := with_ (queued5 21 4 item5 unit5) [(.SAL_QCFG_ENABLE, 0, 5, 1), (.SAL_QCFG_LIMIT, 0, 5, 40), (.SAL_QCFG_PAN_LIMIT, 0, 5, 20)]
  { s with
    sal := { s.sal with queues := [] }
    grn := { s.grn with threads := [(0, h)] } }
def enq0 : State := enqs { withRegs [(1, 0x515), (2, 16), (3, 0x7)] th0 with unit := 0, chan := 7 }
theorem test_enq : issuesB enq0 m0 (.enq m0 1 false true false) 1 = true ∧ enq0.sal.units.get? 0 = some unit5 ∧ enq0.late 0 = false ∧ enq0.enqCheck 5 21 1 0 false = 0 ∧
    enq0.wouldSpill 5 1 = false ∧ enq0.sal.soft.headD 0 ≠ 6 ∧ (let t := after enq0 (.enq m0 1 false true false)
      t.queue 5 = [⟨0, 1, false, false, false, 0, 0, false⟩] ∧ (t.thread 0).enq = true ∧ (t.sal.units.get? 0).map (·.saf) = some true ∧ frameB enq0 t [.grn, .sal] [] = true) := by decide +kernel
def ordered0 : State :=
  let s := enq0
  { s with
    sal := { s.sal with units := [(0, { unit5 with slot := some 2 })] }
    grn := { s.grn with harvest := [(2, ⟨some 0, 0, 7, 0, 0, 0, false, false, false, none, [], []⟩)] } }
theorem test_enq_ordered : let t := after ordered0 (.enq m0 1 false true false)
    t.queue 5 = [] ∧ (t.thread 0).heldEnq = some (0x515, true, false) ∧ ordered0.ordered 0 = true ∧
    (let u := after t (.done m0)
     (u.thread 0).busy = false ∧ ((u.grn.harvest.get? 2).map fun x => (x.retired, x.enq)) = some (true, some (0x515, true, false)) ∧ u.queue 5 = []) := by decide +kernel
theorem test_enq_twice : let s := enqs { withRegs [(1, 0x515)] th0 with unit := 0, chan := 7, enq := true }
    let t := after s (.enq m0 1 false false false)
    logB s = true ∧ recIs t 4 9 2 (some 7) (faultDetail 0 { th0 with chan := 7, unit := 0, steps := 1 } (encodeGrn (.enq m0 1 false false false)).toNat) = true ∧
    (t.thread 0).pc = 4 ∧ frameB s t [.grn, .btn] [] = true := by decide +kernel
theorem test_emit : let i : Instr := .emit m0 1 0 2 0
    issuesB enq0 m0 i 2 = true ∧ ((after enq0 i).thread 0).emitted = [⟨0x515, 0, List.replicate 16 0⟩] ∧ (after enq0 i).stepsOf m0 = 2 ∧
    (let s := enqs { withRegs [(1, 0x515), (2, 16)] th0 with unit := 0, chan := 7, emitted := List.replicate 8 ⟨1, 0, [0]⟩ }
     issuesB s m0 i 2 = true ∧ ((after s i).thread 0).emitted.length = 8 ∧ frameB s (after s i) [.grn, .btn] [] = true) := by decide +kernel
theorem test_mark_seal : ((after enq0 (.mark m0 3)).sal.units.get? 0).map (fun f => (f.bad, f.trace)) = some (true, true) ∧
    issuesB enq0 m0 (.mark m0 3) 1 = true ∧ ((after enq0 (.grnSeal m0 true)).sal.units.get? 0).map (·.sealReq) = some true ∧
    issuesB enq0 m0 (.grnSeal m0 true) 1 = true := by decide +kernel
theorem test_drop : let t := after enq0 (.drop m0 9)
    issuesB enq0 m0 (.drop m0 9) 1 = true ∧ enq0.flag .TRC_CFG_ENABLE = false ∧ enq0.mem.wf = true ∧ enq0.inDram (enq0.statsAddr 7) 32 = true ∧
    (t.thread 0).busy = false ∧ t.sal.units = [] ∧ t.load (enq0.statsAddr 7 + 8) 8 = 1 ∧ t.load (enq0.statsAddr 7 + 22) 2 = 0x8009 := by decide +kernel
theorem test_done : let t := after enq0 (.done m0)
    issuesB enq0 m0 (.done m0) 1 = true ∧ enq0.ownSlot 0 = none ∧ (t.thread 0).busy = false ∧ t.sal.units = [] ∧ t.load (enq0.statsAddr 7 + 8) 8 = 0 := by decide +kernel
theorem test_faults : let t := after enq0 (.trap m0 77)
    issuesB enq0 m0 (.trap m0 77) 1 = true ∧ okB enq0 = true ∧ enq0.chanState 7 = csLive ∧ (t.thread 0).busy = false ∧ t.sal.units = [] ∧
    t.raw .GRN_FAULT_COUNT_FAULTS = 1 ∧ t.load (enq0.statsAddr 7 + 16) 4 = 1 ∧ t.load (enq0.statsAddr 7 + 22) 2 = 5 := by decide +kernel
theorem test_illegal : decodeGrn m0 0xFFFFFFFF#32 = none ∧ enq0.ready m0 = true ∧
    (after enq0 (.illegalInstruction m0 0xFFFFFFFF#32)).load (enq0.statsAddr 7 + 22) 2 = 4 ∧ (after enq0 (.grnStoreEcc m0)).load (enq0.statsAddr 7 + 8) 8 = 1 ∧
    (after enq0 (.grnStoreEcc m0)).raw .GRN_FAULT_COUNT_FAULTS = 0 := by decide +kernel
/-- The room for a fault on a channel that is not running: the hypothesis of the fault statement. -/
theorem test_fault_room : let s := { enq0 with mem := (tabled run0 [(7, mkEntry 5 csDraining false)]).mem }
    s.chanState 7 = csDraining ∧ s.inDram (s.statsAddr 7) 32 = true ∧ s.btn.discards = 0 ∧ s.btn.staged.length + 2 ≤ stagingCap ∧ okB s = true ∧
    issuesB s m0 (.trap m0 77) 1 = true ∧ (after s (.trap m0 77)).load (s.statsAddr 7 + 22) 2 = 5 := by decide +kernel
theorem test_outside_image : let s := enqs { th0 with unit := 0, chan := 7, pc := 64 }
    s.ready m0 = true ∧ (after s (.add m0 1 1 1)).load (s.statsAddr 7 + 22) 2 = 2 := by decide +kernel
theorem test_poolEcc : logB run0 = true ∧ run0.imageAt 100 = none ∧ recIs (after run0 (.grnPoolEcc 100)) 4 7 3 none 100 = true ∧
    (after (after run0 (.grnPoolEcc 100)) (.grnPoolEcc 100)).btn.staged.length = 1 := by decide +kernel
def body0 : State := on { withRegs [(1, 0x20), (2, 16), (3, 0x80)] th0 with u := th0.u.writes 0x20 [1, 2, 3], k := th0.k.writes 0x20 [7, 8] }
theorem test_move : let t := after body0 (.move m0 3 1 2 3 0)
    issuesB body0 m0 (.move m0 3 1 2 3 0) 2 = true ∧ (t.thread 0).k.reads 0x80 4 = [1, 2, 3, 0] ∧ (t.thread 0).k.reads 0x20 2 = [7, 8] ∧ t.stepsOf m0 = 2 := by decide +kernel
theorem test_msg : let t := after body0 (.msg m0 4 1 2 0x30)
    issuesB body0 m0 (.msg m0 4 1 2 0x30) 1 = true ∧ body0.creditFree 0x30 = true ∧ body0.ordered 0 = false ∧ t.grn.msgs.map (fun x => (x.blk, x.chan)) = [(0x30, some 9)] ∧ t.reg m0 4 = 0 := by decide +kernel
theorem test_core_move : let s := { onCore (withCoreRegs [(1, BitVec.ofNat 64 dram0), (2, 8), (3, BitVec.ofNat 64 (dram0 + 4096))] core1) with
      mem := Memory.writes [] dram0 [1, 2] }
    let s := with_ s [(.CHN_AREA_BASE_BASE, 0, 0, 1028)]
    let t := after s (.move k1 3 1 2 4 4)
    issuesB s k1 (.move k1 3 1 2 4 4) 2 = true ∧ (s.core 1).allowsAll dram0 8 8 = true ∧ s.plainDram dram0 8 = true ∧ s.plainDram (dram0 + 4096) 8 = true ∧
    s.touchesStore (dram0 + 4096) 8 = false ∧ t.mem.reads (dram0 + 4096) 3 = [1, 2, 0] ∧ t.pc k1 = 4 := by decide +kernel
def plain1 : State :=
  with_ { onCore (withCoreRegs [(1, BitVec.ofNat 64 dram0), (2, 0xFFFFFF80), (3, BitVec.ofNat 64 (dram0 + 1))] core1) with mem := Memory.writes [] dram0 [0x80, 0xFF] }
    [(.CHN_AREA_BASE_BASE, 0, 0, 1028)]
theorem test_core_loads : issuesB plain1 k1 (.ldm k1 4 1 1 true 0) 1 = true ∧ endsAt (after plain1 (.ldm k1 4 1 1 true 0)) k1 4 [(4, 0xFFFFFFFFFFFFFF80#64)] = true ∧
    (after plain1 (.stm k1 2 1 2 4)).mem.reads (dram0 + 4) 5 = [0x80, 0xFF, 0xFF, 0xFF, 0] ∧ (let t := after plain1 (.ldm k1 4 3 1 true 0)
      t.pc k1 = 0x400 ∧ (t.core 1).tcause = 2 ∧ (t.core 1).tval = dram0 + 1 ∧ (t.core 1).tepc = 0) := by decide +kernel
/-- In user mode with no region the protection unit refuses every address but those of region 0, which maps the code only. -/
theorem test_core_protected : let c := withCoreRegs [(1, BitVec.ofNat 64 dram0)] { core1 with status := 0, mpuCfg := [(0, 0x9000 + 0x500 + 12)] }
    let s := with_ (onCore c) [(.CHN_AREA_BASE_BASE, 0, 0, 1028)]
    issuesB s k1 (.ldm k1 4 1 1 true 0) 1 = true ∧ (s.core 1).allowsAll dram0 2 8 = false ∧ ((after s (.ldm k1 4 1 1 true 0)).core 1).tcause = 4 ∧
    ((after s (.stm k1 2 1 2 4)).core 1).tcause = 5 ∧ ((after s (.stm k1 2 1 2 4)).core 1).status = 1 := by decide +kernel
theorem test_semaphores : let s := with_ (on (withRegs [(1, 5)] th0)) []
    let t := after s (.acq m0 4 1 false)
    okB s = true ∧ issuesB s m0 (.acq m0 4 1 false) 1 = true ∧ t.flag .BRG_SEM_HELD 0 5 = true ∧ t.raw .BRG_SEM_OWNER 0 5 = 0 ∧ t.reg m0 4 = 0 ∧
    (after t (.acq m0 4 1 false)).reg m0 4 = 3 ∧ (after t (.rel m0 1)).flag .BRG_SEM_HELD 0 5 = false ∧ logB s = true ∧
    (after s (.rel m0 1)).btn.staged.map (fun r => (r.blk, r.code, r.sev)) = [(4, 0xB, 2)] := by decide +kernel
def waiting : State :=
  let s := with_ (on (withRegs [(1, 5), (4, 9)] th0)) [(.BRG_SEM_HELD, 0, 5, 1), (.BRG_SEM_OWNER, 0, 5, 0x600)]
  after s (.acq m0 4 1 false)
theorem test_sem_wait : waiting.waitOf m0 = .sem 5 4 0 ∧ waiting.grn.semWaits = [(0, 5)] ∧ waiting.pc m0 = 4 ∧
    (let s := with_ waiting [(.BRG_SEM_HELD, 0, 5, 0)]
     let t := after s (.semaphoreGrant 5)
     t.flag .BRG_SEM_HELD 0 5 = true ∧ t.waitOf m0 = .none ∧ t.reg m0 4 = 0) ∧
    (let s := { waiting with clock := 4000000000 }
     let t := after s (.waitLimit m0)
     s.raw .GRN_WAIT_LIMIT_US * us ≤ s.clock ∧ t.waitOf m0 = .none ∧ t.reg m0 4 = 1 ∧ t.grn.semWaits = []) ∧
    (let s := with_ (on (withRegs [(1, 5), (4, 9)] th0)) [(.BRG_SEM_HELD, 0, 5, 1), (.BRG_SEM_OWNER, 0, 5, 0x600)]
     (after s (.acq m0 4 1 true)).reg m0 4 = 1) := by decide +kernel
theorem test_waits : let t := after body0 (.waitc m0 4 1 false 0x30)
    issuesB body0 m0 (.waitc m0 4 1 false 0x30) 1 = true ∧ (t.thread 0).credits = [0x30] ∧ t.reg m0 4 = 0 ∧
    (let s := on { th0 with wait := .credit 0x30 4 0 }
     s.creditFree 0x30 = true ∧ ((after s (.creditGrant m0)).thread 0).wait = .none ∧ ((after s (.creditGrant m0)).thread 0).credits = [0x30]) ∧
    ((after (on { th0 with wait := .table }) (.threadResume m0)).thread 0).wait = .none ∧
    issuesB body0 m0 (.fence m0) 1 = true ∧ (after body0 (.fence m0)).pc m0 = 4 ∧ issuesB body0 m0 (.yield m0) 1 = true ∧ (after body0 (.yield m0)).grn.yields = [] := by decide +kernel
def full (s : State) : State := { s with sal := { s.sal with queues := [(0, [{ item5 with flakes := 4 }])] } }
theorem test_waits_space : let s := with_ body0 [(.SAL_QCFG_LIMIT, 0, 0, 4)]
    let i : Instr := .waitc m0 4 0 true 0
    issuesB s m0 i 1 = true ∧ s.spaceFor 0 0 = some 1 ∧ ((after s i).thread 0).spaces = [(0, 1)] ∧ (full s).spaceFor 0 0 = none ∧
    (after (full s) i).waitOf m0 = .space 0 4 0 := by decide +kernel
theorem test_yield_others : let s := { body0 with grn := { body0.grn with threads := body0.grn.threads.put 1 { th0 with unit := 6 } } }
    s.othersReady 0 = [1] ∧ (after s (.yield m0)).grn.yields = [(0, [1])] ∧ (after s (.yield m0)).ready m0 = false ∧
    (after (after s (.yield m0)) (.fence (.eng 0 1))).ready m0 = true := by decide +kernel
theorem test_core_trap : let s := onCore { core1 with status := 2, pc := 8, mpuCfg := [(0, 0x9000 + 0x700 + 47)] }
    let t := after s (.trap k1 5)
    issuesB s k1 (.trap k1 5) 1 = true ∧ (t.core 1).tcause = 8 ∧ (t.core 1).tval = 5 ∧ (t.core 1).tepc = 8 ∧ (t.core 1).status = 9 ∧ t.pc k1 = 0x400 ∧
    issuesB t k1 (.eret k1) 0 = true ∧ ((after t (.eret k1)).core 1).status = 10 ∧ (after t (.eret k1)).pc k1 = 8 := by decide +kernel
theorem test_core_interrupt : let s := { onCore { core1 with status := 3, ienable := 2 ^ 0x50 } with grn := { (onCore { core1 with status := 3, ienable := 2 ^ 0x50 }).grn with ipend := 2 ^ 0x50 } }
    let t := after s (.interrupt k1 0x50)
    s.ready k1 = true ∧ (t.core 1).tcause = 2 ^ 63 + 0x50 ∧ (t.core 1).status = 13 ∧ issuesB s k1 (.wfi k1) 0 = true ∧ (after s (.wfi k1)).waitOf k1 = .none ∧
    (after (onCore core1) (.wfi k1)).waitOf k1 = .wfi := by decide +kernel
theorem test_csrs : let s := onCore (withCoreRegs [(1, 0x123)] core1)
    issuesB s k1 (.csrr k1 4 0) 0 = true ∧ (after s (.csrr k1 4 0)).reg k1 4 = 0x11 ∧ (after s (.csrr k1 4 2)).reg k1 4 = 0x400 ∧
    ((after s (.csrw k1 2 1)).core 1).tvec = 0x120 ∧ ((after s (.csrw k1 1 1)).core 1).status = 3 ∧ ((after s (.csrw k1 0x10 1)).core 1).ienable = 0x123 ∧
    issuesB (after s (.csrw k1 1 1)) k1 (.csrw k1 1 1) 0 = true ∧ decodeGrn k1 0xFFFFFFFF#32 = none ∧ ((after s (.illegalInstruction k1 0xFFFFFFFF#32)).core 1).tcause = 1 := by decide +kernel
/-- Words of every family and profile survive the round trip, at their greatest operands. -/
theorem test_roundtrip : [Instr.add m0 31 31 31, .ext m0 31 31 63 0, .jal m0 31 0xFFFFF, .ldu m0 31 31 3 false 0x7FF, .enq m0 31 true true true,
    .waitc m0 31 31 false 0x61, .drop m0 255].all (fun i => decide (grnLegal i = true ∧ decodeGrn m0 (encodeGrn i) = some i)) = true ∧
    [Instr.csrw k1 0x7FF 31, .eret k1, .ldm k1 31 31 2 true 0x400].all (fun i => decide (grnLegal i = true ∧ decodeGrn k1 (encodeGrn i) = some i)) = true := by decide +kernel
/-- Each check of WellFormed refuses its ill-formed command. -/
theorem test_illformed : (Instr.add (.eng 95 15) 1 1 1).wf = true ∧ (Instr.add (.eng 96 0) 1 1 1).wf = false ∧ (Instr.add (.eng 0 16) 1 1 1).wf = false ∧
    (Instr.add (.ctl 4) 1 1 1).wf = false ∧ (Instr.ext m0 1 1 63 1).wf = false ∧ (Instr.ldm m0 1 1 0 false 0).wf = false ∧
    (Instr.registerWrite (.host 3) 0 4 (2 ^ 32 - 1)).wf = true ∧ (Instr.registerWrite (.host 4) 0 4 0).wf = false ∧ (Instr.registerWrite (.mover 16) 0 4 0).wf = false ∧
    (Instr.registerWrite (.core 0) 0 3 0).wf = false ∧ (Instr.registerWrite (.core 0) 0 4 (2 ^ 32)).wf = false := by decide +kernel
theorem test_pool_channels : let s := with_ (tabled run0 [(7, mkEntry 5 csLive false [(0, 16, 1), (4, 0, 2)])]) [(.GRN_IMG_DIR_VALID, 0, 4, 1), (.GRN_IMG_DIR_LENGTH, 0, 4, 10)]
    let t := after s (.grnPoolEcc 3)
    s.imageAt 3 = some 4 ∧ s.hostLoc = false ∧ s.inDram s.area (2 ^ 26) = true ∧ s.btn.staged.length + s.chans.length < stagingCap ∧ s.chans = [7] ∧
    eLevel (s.entry 7) = 1 ∧ s.imageHas 4 (eOffset (s.entry 7)) = true ∧ t.load (s.statsAddr 7 + 16) 4 = 1 ∧ t.load (s.statsAddr 7 + 22) 2 = 2 := by decide +kernel
/-- The queue: a command in front runs, an empty queue ticks. -/
theorem test_front_and_tick : let s := { run0 with pending := [.paceMinClear 0xC1EA, .commitPoint] }
    (match Machine.step s with | .next t => t.pending == [Instr.commitPoint] && t.clock == 0 | _ => false) = true ∧
    (match Machine.step run0 with | .next t => t.clock == 1 && t.moment == 1 | _ => false) = true ∧ run0.raw .TMB_RATE_RATE_PPB = 0 ∧ run0.tmb.frac = 0 ∧
    (match Machine.step State.reset with | .next t => t.clock == 1 && t.moment == 0 | _ => false) = true := by decide +kernel

end Sys2Proof.Tests
end

section
/-! SUPPORT. CHN_CMD (R70, R71): CHN_CMD_STATUS after a command, and the commands that end with WRONG_STATE. -/
namespace Sys2Proof.Machine

/-! ### Fields in force -/

theorem RegId.legal_iff (r : RegId) (v : Nat) :
    r.legal v = true ↔ v < 2 ^ r.info.width ∧ ∀ p ∈ r.info.reserved, v < p.1 ∨ p.2 < v := by
  simp [RegId.legal]

theorem raw_setF_self (s : State) (r : RegId) (v i j : Nat) (hv : r.legal v = true) (hp : spotFits i j = true) :
    ((setF r v i j).run s).raw r i j = v :=
  RegFile.read_write_self s.regs r i j v hv hp

theorem raw_setF_of_ne (s : State) {r r' : RegId} (v i j i' j' : Nat) (hp : spotFits i' j' = true) (h : r' ≠ r) :
    ((setF r v i j).run s).raw r' i' j' = s.raw r' i' j' :=
  RegFile.read_write_ne s.regs r r' i j i' j' v hp fun he => h he.1

/-! ### CHN_CMD_STATUS -/

/-- The register fields of CHN_CMD_STATUS. -/
def chnStatusRegs : List RegId := [.CHN_CMD_STATUS_RESULT, .CHN_CMD_STATUS_STATE, .CHN_CMD_STATUS_CHANNEL]

/-- `t` follows `s` by a report in CHN_CMD_STATUS and nothing else. -/
def State.ReportsOnly (s t : State) (c result st : Nat) : Prop :=
  t.raw .CHN_CMD_STATUS_RESULT = result ∧ t.raw .CHN_CMD_STATUS_STATE = st ∧ t.raw .CHN_CMD_STATUS_CHANNEL = c ∧
    s.Keeps t [] (anyOf chnStatusRegs)

theorem within_cmdStatus {gs : List Grp} {may : RegId → Nat → Nat → Bool} {c result st : Nat} (h : ∀ r ∈ chnStatusRegs, may r 0 0 = true) :
    (cmdStatus c result st).Within gs may :=
  Prog.within_all_cons (within_setF (h _ (by simp [chnStatusRegs]))) <|
    Prog.within_all_cons (within_setF (h _ (by simp [chnStatusRegs]))) <|
      Prog.within_all_cons (within_setF (h _ (by simp [chnStatusRegs]))) Prog.within_all_nil

/-- RESULT has two bits and reserves 3; STATE has four bits and CHANNEL seventeen. -/
theorem legal_chnStatus_result {v : Nat} (h : v < 3) : RegId.CHN_CMD_STATUS_RESULT.legal v = true :=
  (RegId.legal_iff _ _).2 ⟨Nat.lt_succ_of_lt h, List.forall_mem_singleton.2 (.inl h)⟩
theorem legal_chnStatus_state {v : Nat} (h : v < 16) : RegId.CHN_CMD_STATUS_STATE.legal v = true :=
  (RegId.legal_iff _ _).2 ⟨h, List.forall_mem_nil _⟩
theorem legal_chnStatus_channel {v : Nat} (h : v < 2 ^ 17) : RegId.CHN_CMD_STATUS_CHANNEL.legal v = true :=
  (RegId.legal_iff _ _).2 ⟨h, List.forall_mem_nil _⟩

theorem cmdStatus_reportsOnly (s : State) {c result st : Nat} (hc : c < 2 ^ 17) (hr : result < 3) (hs : st < 16) :
    s.ReportsOnly ((cmdStatus c result st).run s) c result st := by
  have hp : spotFits 0 0 = true := rfl
  refine ⟨?_, ?_, ?_, within_cmdStatus (by simp [anyOf]) s⟩ <;> simp only [cmdStatus, Prog.run_all_cons, Prog.run_all_nil]
  · rw [raw_setF_of_ne _ _ _ _ _ _ hp (by decide), raw_setF_of_ne _ _ _ _ _ _ hp (by decide),
      raw_setF_self _ _ _ _ _ (legal_chnStatus_result hr) hp]
  · rw [raw_setF_of_ne _ _ _ _ _ _ hp (by decide), raw_setF_self _ _ _ _ _ (legal_chnStatus_state hs) hp]
  · exact raw_setF_self _ _ _ _ _ (legal_chnStatus_channel hc) hp

/-! ### The state that a report shows -/

theorem eState_lt (e : List Byte) : eState e < 16 := Nat.mod_lt _ (by decide)

theorem State.chanState_lt (s : State) (c : Nat) : s.chanState c < 16 := by
  unfold State.chanState
  split
  · decide
  · exact eState_lt _

/-! ### The transitions of R70 that commands cause -/

theorem cmdTarget_arm_eq_none {ty st : Nat} : cmdTarget 1 ty st = none ↔ st ≠ csIdle ∨ ty = tyFree := by
  simp only [cmdTarget, ite_eq_right_iff, reduceCtorEq, imp_false, Decidable.not_and_iff_or_not, Decidable.not_not, ne_eq]
theorem cmdTarget_go_eq_none {ty st : Nat} : cmdTarget 2 ty st = none ↔ st ≠ csArmed := by simp [cmdTarget]
theorem cmdTarget_drain_eq_none {ty st : Nat} : cmdTarget 3 ty st = none ↔ st = csIdle ∨ st = csDraining ∨ csFaulted < st := by
  simp only [cmdTarget, ite_eq_left_iff, reduceCtorEq, imp_false, Decidable.not_not]
theorem cmdTarget_resume_eq_none {ty st : Nat} : cmdTarget 4 ty st = none ↔ st ≠ csHeld := by simp [cmdTarget]
theorem cmdTarget_clearFault_eq_none {ty st : Nat} : cmdTarget 5 ty st = none ↔ st ≠ csSealed ∧ st ≠ csFaulted := by
  simp [cmdTarget]

/-! ### CHN_CMD -/

theorem run_chnCmd_of_target_none {s : State} {c op : Nat} (ha : s.coreAlive = true) (hc : c < 2 ^ 17) (he : s.raw .CHN_CFG_ENABLE ≠ 0)
    (ht : cmdTarget op (eType (s.entry c)) (s.chanState c) = none) :
    (chnCmd op c).run s = (cmdStatus c 2 (s.chanState c)).run s := by
  simp only [chnCmd, Prog.run_get, Nat.mod_eq_of_lt hc, ha, Prog.run_on_true, he, if_false, ht]

theorem run_chnCmd_of_disabled {s : State} {c : Nat} (op : Nat) (ha : s.coreAlive = true) (hc : c < 2 ^ 17) (he : s.raw .CHN_CFG_ENABLE = 0) :
    (chnCmd op c).run s = (cmdStatus c 2 (eState (s.entry c))).run s := by
  simp only [chnCmd, Prog.run_get, Nat.mod_eq_of_lt hc, ha, Prog.run_on_true, he, if_true]

/-- R71, first paragraph: a command whose transition R70 does not list. -/
theorem chnCmd_reportsOnly_of_target_none {s : State} {c op : Nat} (ha : s.coreAlive = true) (hc : c < 2 ^ 17)
    (he : s.raw .CHN_CFG_ENABLE ≠ 0) (ht : cmdTarget op (eType (s.entry c)) (s.chanState c) = none) :
    s.ReportsOnly ((chnCmd op c).run s) c 2 (s.chanState c) := by
  rw [run_chnCmd_of_target_none ha hc he ht]
  exact cmdStatus_reportsOnly s hc (by decide) (s.chanState_lt c)

/-- R71, second paragraph: any command while ENABLE is 0. -/
theorem chnCmd_reportsOnly_of_disabled {s : State} {c : Nat} (op : Nat) (ha : s.coreAlive = true) (hc : c < 2 ^ 17)
    (he : s.raw .CHN_CFG_ENABLE = 0) : s.ReportsOnly ((chnCmd op c).run s) c 2 (eState (s.entry c)) := by
  rw [run_chnCmd_of_disabled op ha hc he]
  exact cmdStatus_reportsOnly s hc (by decide) (eState_lt _)

/-- Each of the six commands is CHN_CMD with its own OP. -/
theorem exec_eq_chnCmd (s : State) (c : Nat) :
    ∀ i ∈ [Instr.arm c, .go c, .drain c, .resume c, .clearFault c, .clearStats c], ∃ op, exec i s = s.does (chnCmd op c) := by
  simp only [List.forall_mem_cons]
  exact ⟨⟨1, rfl⟩, ⟨2, rfl⟩, ⟨3, rfl⟩, ⟨4, rfl⟩, ⟨5, rfl⟩, ⟨6, rfl⟩, by simp⟩

/-- Settles O38: a command that moves no channel runs as its report alone. -/
theorem wrongState : Obligations.WrongState := by
  intro s c _ ha hc
  refine ⟨fun he => ?_, fun he i hi => ?_⟩
  · have report : ∀ op, cmdTarget op (eType (s.entry c)) (s.chanState c) = none →
        ∃ t, s.does (chnCmd op c) = .next t ∧ s.ReportsOnly t c 2 (s.chanState c) := fun op ht =>
      ⟨_, rfl, chnCmd_reportsOnly_of_target_none ha hc (by omega) ht⟩
    exact ⟨fun h => report 1 (cmdTarget_arm_eq_none.2 h), fun h => report 2 (cmdTarget_go_eq_none.2 h),
      fun h => report 4 (cmdTarget_resume_eq_none.2 h), fun h h' => report 5 (cmdTarget_clearFault_eq_none.2 ⟨h, h'⟩),
      fun h => report 3 (cmdTarget_drain_eq_none.2 (h.imp_right .inl))⟩
  · obtain ⟨op, hop⟩ := exec_eq_chnCmd s c i hi
    exact ⟨_, hop, chnCmd_reportsOnly_of_disabled op ha hc he⟩

end Sys2Proof.Machine
end

section
/-! SUPPORT. Gauges (R471 to R475): how a sample enters the accumulators of its gauge, and what a clear and a snapshot leave. -/
namespace Sys2Proof.Machine

/-! ### Frames of rate-limited records and interrupts -/

section
variable {gs : List Grp} {may : RegId → Nat → Nat → Bool}

theorem within_logLim {blk code sev inst every chan detail} (h : Grp.btn ∈ gs) (h1 : may .BTN_LOST_RECORDS 0 0 = true)
    (h2 : may .BTN_STATUS_OVERFLOW 0 0 = true) (h3 : may .BTN_SUPPRESSED_RECORDS 0 0 = true) :
    (logLim blk code sev inst every chan detail).Within gs may :=
  Prog.within_get fun _ => Prog.within_ite
    (fun _ => Prog.within_all_cons (within_btn h) (Prog.within_all_cons (within_logRec h h1 h2) Prog.within_all_nil))
    fun _ => within_bump h3

theorem within_raiseVector {ctrl vec} (hb : Grp.brg ∈ gs) (ho : Grp.out ∈ gs) : (raiseVector ctrl vec).Within gs may :=
  Prog.within_get fun _ => Prog.within_on fun _ => Prog.within_ite (fun _ => within_brg hb) fun _ => within_emitOut ho

theorem within_raiseIrq {blk} (hg : Grp.grn ∈ gs) (hb : Grp.brg ∈ gs) (ho : Grp.out ∈ gs) : (raiseIrq blk).Within gs may :=
  Prog.within_get fun _ => Prog.within_on fun _ =>
    Prog.within_seq (within_grn hg) (Prog.within_on fun _ => within_raiseVector hb ho)

end

/-! ### The accumulators of each gauge -/

theorem State.gauge_of_put_self {s t : State} {g : Nat} {x : GauAcc} (h : t.gau = s.gau.put g x) : t.gauge g = x := by
  rw [State.gauge, h, NMap.get?_put_self, Option.getD_some]

theorem State.gauge_of_put_ne {s t : State} {g k : Nat} {x : GauAcc} (h : t.gau = s.gau.put g x) (hk : k ≠ g) :
    t.gauge k = s.gauge k := by
  rw [State.gauge, h, NMap.get?_put_ne _ _ hk, State.gauge]

/-- The bin of gauge `g` that a sample `v` falls in. -/
def State.sampleBin (s : State) (g : Nat) (v : Int) : Nat :=
  binOf (s.flag .GAU_CFG_LOG2 0 g) (sgn 64 (s.raw .GAU_BASE_BASE 0 g)) (s.raw .GAU_WIDTH_WIDTH 0 g) v

/-- The record and the interrupt of R475 leave every gauge alone. -/
theorem gau_sample (s : State) (g : Nat) (v : Int) :
    ((sample g v).run s).gau = s.gau.put g ((s.gauge g).add v (s.sampleBin g v)) := by
  have frame : ∀ (b c : Bool) (d : Nat), (Prog.all [.on b (logLim 0x60 1 2 g sec none d), .on c (raiseIrq 0x60)]).Within
      [.btn, .grn, .brg, .out] (fun _ _ _ => true) := fun _ _ _ =>
    Prog.within_all_cons (Prog.within_on fun _ => within_logLim (by decide) rfl rfl rfl) <|
      Prog.within_all_cons (Prog.within_on fun _ => within_raiseIrq (by decide) (by decide) (by decide)) Prog.within_all_nil
  exact (frame _ _ _ (s.apply (.gau fun m => m.put g ((s.gauge g).add v (s.sampleBin g v))))).groups .gau (by decide)

/-! ### Bins and saturation (R473) -/

theorem satSigned_eq_ite (v : Int) :
    satSigned v = if 2 ^ 63 - 1 < v then 2 ^ 63 - 1 else if v < -(2 ^ 63) then -(2 ^ 63) else v := by
  unfold satSigned
  omega

/-- Bin 0 holds distances below 1, bin 1 + e those from 2^e to 2^(e+1) - 1. -/
theorem binOf_log2 (base width v : Int) :
    (v - base < 1 ∧ binOf true base width v = 0) ∨
      ∃ e : Nat, (2 : Int) ^ e ≤ v - base ∧ v - base < 2 ^ (e + 1) ∧ binOf true base width v = min 31 (1 + e) := by
  by_cases hd : v - base < 1
  · exact .inl ⟨hd, by simp only [binOf, if_true, if_pos hd]⟩
  · have hn : ((v - base).toNat : Int) = v - base := Int.toNat_of_nonneg (by omega)
    refine .inr ⟨(v - base).toNat.log2, ?_, ?_, by simp only [binOf, if_true, if_neg hd]⟩ <;> rw [← hn]
    · exact_mod_cast Nat.log2_self_le (by omega)
    · exact_mod_cast Nat.lt_log2_self

theorem binOf_linear (base v : Int) {width : Int} (hw : 0 < width) :
    (v < base ∧ binOf false base width v = 0) ∨
      (base ≤ v ∧ ∃ q : Nat, (q : Int) * width ≤ v - base ∧ v - base < (q + 1) * width ∧ binOf false base width v = min 31 q) := by
  by_cases hv : v < base
  · exact .inl ⟨hv, by simp only [binOf, Bool.false_eq_true, if_false, if_pos hv]⟩
  · have hq : (((v - base) / width).toNat : Int) = (v - base) / width :=
      Int.toNat_of_nonneg (Int.ediv_nonneg (by omega) (Int.le_of_lt hw))
    refine .inr ⟨by omega, ((v - base) / width).toNat, ?_, ?_,
      by simp only [binOf, Bool.false_eq_true, if_false, if_neg hv]⟩ <;> rw [hq]
    · exact Int.ediv_mul_le _ (Int.ne_of_gt hw)
    · exact Int.lt_ediv_add_one_mul_self _ hw

/-- The count of one bin. -/
def GauAcc.bin (a : GauAcc) (k : Nat) : Nat := (a.bins.get? k).getD 0

theorem GauAcc.bin_add_self (a : GauAcc) (v : Int) (k : Nat) : (a.add v k).bin k = min (a.bin k + 1) (2 ^ 32 - 1) := by
  rw [GauAcc.bin, GauAcc.add, NMap.get?_put_self, Option.getD_some]
  rfl

theorem GauAcc.bin_add_ne (a : GauAcc) (v : Int) {j k : Nat} (h : j ≠ k) : (a.add v k).bin j = a.bin j := by
  rw [GauAcc.bin, GauAcc.add, NMap.get?_put_ne _ _ h, GauAcc.bin]

/-! ### The commands, for one gauge of a hub that is alive -/

theorem exec_periodicSample {s : State} {g : Nat} {value v : Int} (ha : s.coreAlive = true) (hg : g < 256)
    (hp : s.raw .GAU_CFG_PERIOD_US 0 g ≠ 0) (hm : s.moment % (s.raw .GAU_CFG_PERIOD_US 0 g * us) = 0) (hv : s.periodic g value = some v) :
    exec (.periodicSample g value) s = s.does (sample g v) := by
  have due : (decide (g < 256) && s.raw .GAU_CFG_PERIOD_US 0 g != 0 && s.moment % (s.raw .GAU_CFG_PERIOD_US 0 g * us) == 0) = true := by
    simp only [Bool.and_eq_true, decide_eq_true_eq, bne_iff_ne, beq_iff_eq]
    exact ⟨⟨hg, hp⟩, hm⟩
  show execPeriodicSample g value s = _
  simp only [execPeriodicSample, State.does, whenAlive, Prog.run_get, ha, Prog.run_on_true, due, hv]

theorem run_gauCmd_snapshot {g : Nat} (hg : g < 256) (s : State) : (gauCmd g 1 false).run s = (snapGauge g).run s := by
  show (snapGauge (g % 256)).run s = _
  rw [Nat.mod_eq_of_lt hg]

theorem run_gauCmd_clear {g : Nat} (hg : g < 256) (s : State) : (gauCmd g 2 false).run s = (clearGauge g).run s := by
  show (clearGauge (g % 256)).run s = _
  rw [Nat.mod_eq_of_lt hg]

theorem exec_clear {s : State} {g : Nat} (ha : s.coreAlive = true) (hg : g < 256) :
    exec (.clear g false) s = s.does (clearGauge g) := by
  show s.does (whenAlive (gauCmd g 2 false)) = _
  simp only [State.does, whenAlive, Prog.run_get, ha, Prog.run_on_true, run_gauCmd_clear hg]

theorem exec_snapshot {s : State} {g : Nat} (ha : s.coreAlive = true) (hg : g < 256) :
    exec (.snapshot g false) s = s.does (snapGauge g) := by
  show s.does (whenAlive (gauCmd g 1 false)) = _
  simp only [State.does, whenAlive, Prog.run_get, ha, Prog.run_on_true, run_gauCmd_snapshot hg]

/-! ### What a clear leaves -/

theorem gauge_clearGauge_self (s : State) (g : Nat) : ((clearGauge g).run s).gauge g = GauAcc.blank := by
  show ((s.gau.del g).get? g).getD _ = _
  rw [NMap.get?_del_self, Option.getD_none]

theorem within_clearGauge (g : Nat) : (clearGauge g).Within [.gau] noReg := within_gau (by decide)

/-! ### What a snapshot shows (R474) -/

theorem RegId.legal_of_lt {r : RegId} {v : Nat} (hr : r.info.reserved = []) (hv : v < 2 ^ r.info.width) : r.legal v = true :=
  (RegId.legal_iff r v).2 ⟨hv, hr ▸ List.forall_mem_nil _⟩

theorem enc_lt (w : Nat) (i : Int) : enc w i < 2 ^ w := by
  have hpos : (0 : Int) < (2 ^ w : Nat) := Int.natCast_pos.2 (Nat.two_pow_pos w)
  exact (Int.toNat_lt (Int.emod_nonneg i (Int.ne_of_gt hpos))).2 (Int.emod_lt_of_pos i hpos)

theorem spotFits_iff (i j : Nat) : spotFits i j = true ↔ i < 2 ^ 8 ∧ j < 2 ^ 24 := by
  simp only [spotFits, Bool.and_eq_true, decide_eq_true_eq]

/-- A row of writes to one field, at consecutive indices. -/
theorem raw_each_setF_self (s : State) (r : RegId) (f : Nat → Nat) (b : Nat) {k : Nat} (hv : r.legal (f k) = true)
    (hp : spotFits 0 (b + k) = true) (l : List Nat) :
    ((Prog.each l fun k => setF r (f k) 0 (b + k)).run s).raw r 0 (b + k) = if k ∈ l then f k else s.raw r 0 (b + k) := by
  induction l generalizing s with
  | nil => rfl
  | cons a t ih =>
    rw [Prog.run_each_cons, ih]
    by_cases ht : k ∈ t
    · rw [if_pos ht, if_pos (List.mem_cons_of_mem a ht)]
    · rw [if_neg ht]
      by_cases hk : k = a
      · subst hk
        rw [if_pos List.mem_cons_self, raw_setF_self s r _ _ _ hv hp]
      · rw [if_neg fun h => (List.mem_cons.1 h).elim hk ht]
        exact RegFile.read_write_ne s.regs r r _ _ _ _ _ hp fun h => hk (Nat.add_left_cancel h.2.2)

theorem raw_each_setF_of_ne (s : State) {r r' : RegId} (f j : Nat → Nat) (i' j' : Nat) (hp : spotFits i' j' = true) (h : r' ≠ r)
    (l : List Nat) : ((Prog.each l fun k => setF r (f k) 0 (j k)).run s).raw r' i' j' = s.raw r' i' j' :=
  (Prog.within_each (fun _ => within_setF (decide_eq_true rfl)) l s : s.Keeps _ [] fun r'' _ _ => decide (r'' = r)).regs r' i' j'
    (decide_eq_false h) hp

theorem raw_snapGauge (s : State) {g : Nat} (hg : g < 256) (hc : (s.gauge g).count < 2 ^ 64) :
    ((snapGauge g).run s).raw .GAU_COUNT_COUNT 0 g = (s.gauge g).count ∧
    ((snapGauge g).run s).raw .GAU_SUM_SUM 0 g = enc 64 (s.gauge g).sum ∧
    ((snapGauge g).run s).raw .GAU_MIN_VALUE 0 g = enc 64 (s.gauge g).low ∧
    ((snapGauge g).run s).raw .GAU_MAX_VALUE 0 g = enc 64 (s.gauge g).high := by
  have hp : spotFits 0 g = true := (spotFits_iff _ _).2 (by omega)
  have hcount : RegId.GAU_COUNT_COUNT.legal (s.gauge g).count = true := RegId.legal_of_lt rfl hc
  have hsum : ∀ i, RegId.GAU_SUM_SUM.legal (enc 64 i) = true := fun i => RegId.legal_of_lt rfl (enc_lt 64 i)
  have hmin : ∀ i, RegId.GAU_MIN_VALUE.legal (enc 64 i) = true := fun i => RegId.legal_of_lt rfl (enc_lt 64 i)
  have hmax : ∀ i, RegId.GAU_MAX_VALUE.legal (enc 64 i) = true := fun i => RegId.legal_of_lt rfl (enc_lt 64 i)
  simp only [snapGauge, Prog.run_get, Prog.run_all_cons, Prog.run_all_nil]
  refine ⟨?_, ?_, ?_, ?_⟩ <;>
    simp only [raw_each_setF_of_ne, raw_setF_of_ne, raw_setF_self, hp, hcount, hsum, hmin, hmax, ne_eq, reduceCtorEq, not_false_eq_true]

theorem raw_snapGauge_bin (s : State) {g k : Nat} (hg : g < 256) (hk : k < 32) (hb : (s.gauge g).bin k < 2 ^ 32) :
    ((snapGauge g).run s).raw .GAU_BIN_COUNT 0 (32 * g + k) = (s.gauge g).bin k := by
  have hp : spotFits 0 (32 * g + k) = true := (spotFits_iff _ _).2 (by omega)
  simp only [snapGauge, Prog.run_get, Prog.run_all_cons, Prog.run_all_nil]
  exact (raw_each_setF_self _ _ (s.gauge g).bin _ (RegId.legal_of_lt rfl hb) hp _).trans (if_pos (List.mem_range.2 hk))

/-- Settles O58: the accumulators after a sample are those of `GauAcc.add`, wherever the sample comes from; a snapshot after a
clear shows the blank ones. -/
theorem gaugeSample : Obligations.GaugeSample := by
  intro s g hg a base width bin inBin took
  have sampleBin_inBin : ∀ v, s.flag .GAU_CFG_LOG2 0 g = true ∨ 0 < width → inBin v (s.sampleBin g v) := by
    intro v hw
    cases hl : s.flag .GAU_CFG_LOG2 0 g
    · simp only [inBin, State.sampleBin, hl, Bool.false_eq_true, if_false]
      exact binOf_linear base v (hw.resolve_left (Bool.eq_false_iff.1 hl))
    · simp only [inBin, State.sampleBin, hl, if_true]
      exact binOf_log2 base width v
  have took_sample : ∀ v, took ((sample g v).run s) v := by
    intro v
    have hgau := gau_sample s g v
    refine ⟨?_, ?_, ?_, ?_, fun hw => ⟨s.sampleBin g v, sampleBin_inBin v hw, ?_, fun j hj => ?_⟩,
      fun _ => State.gauge_of_put_ne hgau⟩ <;> rw [State.gauge_of_put_self hgau]
    · rfl
    · exact satSigned_eq_ite _
    · show min a.low v = _
      omega
    · show max a.high v = _
      omega
    · exact GauAcc.bin_add_self a v _
    · exact GauAcc.bin_add_ne a v hj
  refine ⟨took_sample, fun ha => ⟨fun value v hp hm hv => ⟨_, exec_periodicSample ha hg hp hm hv, took_sample v⟩, ?_⟩⟩
  have hblank := gauge_clearGauge_self s g
  have hbin : ∀ k, (((clearGauge g).run s).gauge g).bin k = 0 := fun k => by rw [hblank]; rfl
  obtain ⟨hcount, hsum, hmin, hmax⟩ := raw_snapGauge ((clearGauge g).run s) hg (by rw [hblank]; decide)
  rw [hblank] at hcount hsum hmin hmax
  refine ⟨_, _, exec_clear ha hg, exec_snapshot ha hg, hcount, hsum, hmin, hmax, fun k hk => ?_, within_clearGauge g s⟩
  rw [raw_snapGauge_bin _ hg hk (by rw [hbin]; decide), hbin]

end Sys2Proof.Machine
end
